-- ==== Sys2Proof/Word.lean ====
section
/-! DEFINITION. The word types of R6 and their plainest reading as integers. -/

namespace Sys2Proof

/-- R6: a word is 18 bits. -/
abbrev W18 := BitVec 18
/-- R6: a double is 36 bits. -/
abbrev W36 := BitVec 36
/-- R6: an accumulator is 54 bits. -/
abbrev W54 := BitVec 54
/-- A 32-bit register of the register map, or a host-memory container (R7). -/
abbrev W32 := BitVec 32
/-- R6: a byte is 8 bits; bytes appear only outside the word-addressed memories. -/
abbrev Byte := BitVec 8
/-- R254: a stored word is 18 data bits [17:0] and three signature bits [20:18]. -/
abbrev Stored := BitVec 21

/-- One bit of a bit vector as a one-bit Nat (0 or 1). -/
def bitNat {w : Nat} (x : BitVec w) (i : Nat) : Nat := if x.getLsbD i then 1 else 0

/-- The field [hi:lo] of a register value, right-aligned. -/
def field (x : W32) (hi lo : Nat) : Nat := (x.toNat >>> lo) % 2 ^ (hi + 1 - lo)

/-- `x` with its field [hi:lo] replaced by the low bits of `v`. -/
def setField (x : W32) (hi lo v : Nat) : W32 :=
  let m : W32 := BitVec.ofNat 32 ((2 ^ (hi + 1 - lo) - 1) <<< lo)
  (x &&& ~~~m) ||| (BitVec.ofNat 32 ((v % 2 ^ (hi + 1 - lo)) <<< lo))

end Sys2Proof
end

