-- ==== Sys2Proof/Machine/Store.lean ====
section
/-! DEFINITION. Sparse data by key: a list of key and value pairs with strictly rising keys that lists no
entry equal to what an unlisted key reads as. Every memory, register map and table of the State is one. -/

namespace Sys2Proof.Machine

/-- Sparse data by key. -/
abbrev Store (V : Type) := List (Nat × V)

variable {V : Type}

/-- The listed value at `k`, if any. -/
def Store.find : Store V → Nat → Option V
  | [], _ => none
  | (k, v) :: m, i => if k = i then some v else Store.find m i

/-- The value at `i`: the listed one, else `d`. -/
def Store.get (m : Store V) (d : V) (i : Nat) : V := (Store.find m i).getD d

/-- The list with key `i` bound to `v`, kept in rising order. -/
def Store.put : Store V → Nat → V → Store V
  | [], i, v => [(i, v)]
  | (k, u) :: m, i, v =>
    if i < k then (i, v) :: (k, u) :: m
    else if k = i then (i, v) :: m
    else (k, u) :: Store.put m i v

/-- The list without key `i`. -/
def Store.del : Store V → Nat → Store V
  | [], _ => []
  | (k, u) :: m, i => if k = i then Store.del m i else (k, u) :: Store.del m i

/-- The write that keeps the canonical form: writing what an unlisted key reads as removes the entry. -/
def Store.set [DecidableEq V] (m : Store V) (d : V) (i : Nat) (v : V) : Store V :=
  if v = d then Store.del m i else Store.put m i v

/-- Every key of `m` is above `n`. -/
def Store.above (n : Nat) : Store V → Bool
  | [] => true
  | (k, _) :: m => decide (n < k) && Store.above n m

/-- Keys strictly rising. -/
def Store.sorted : Store V → Bool
  | [] => true
  | (k, _) :: m => Store.above k m && Store.sorted m

/-- No entry equals what its key reads as unlisted. -/
def Store.sparse [DecidableEq V] (d : Nat → V) : Store V → Bool
  | [] => true
  | (k, v) :: m => decide (v ≠ d k) && Store.sparse d m

/-- The canonical form. -/
def Store.wf [DecidableEq V] (d : Nat → V) (m : Store V) : Bool := Store.sorted m && Store.sparse d m

end Sys2Proof.Machine
end

