-- ==== Sys2Proof/Machine/Types.lean ====
section
/-! DEFINITION. The types of the commands' operands: what names an object (R23), where a syllable issues,
what a DMA read returned, what arrives on a wire. -/

namespace Sys2Proof.Machine

/-- A die d, 3 bits (R23). Only dies below NDIE are populated (R3). -/
abbrev DieNo := Fin 8
/-- An engine e of a die (R18). -/
abbrev EngNo := Fin 64
/-- A host port HP0 or HP1, on FD0 or FD1 (R19); also a panel port. -/
abbrev PortNo := Fin 2

/-- The variants of R2. -/
inductive Variant where
  | dxd2064 | dxd4064 | dxd6064 | dxd8064
  deriving DecidableEq, Repr

/-- Who issues a register-space access (R45): a host port or an engine. -/
inductive Src where
  | host (p : PortNo)
  | eng (d : DieNo) (e : EngNo)
  deriving DecidableEq, Repr

/-- The two directions of the spine ring (R35, R36). -/
inductive Dir where
  | up | dn
  deriving DecidableEq, Repr

/-- A check that fails on a value that no stored check bit of the State can show (R368): a parity error in a
register operand, or a residue error. The environment decides it; the other detected errors come
from the stored check bits themselves. -/
inductive CheckErr where
  | parity | residue
  deriving DecidableEq, Repr

/-- Where one syllable issues: the engine, its slot (R101), the extension that an XT donates to it (R102),
whether it closes its bundle, and a check that fails at it. A bundle is the run of
syllables up to the one with `last`; they issue together (R100). -/
structure At where
  die : DieNo
  eng : EngNo
  slot : Fin 8
  ext : Option (BitVec 12)
  last : Bool
  err : Option CheckErr
  deriving DecidableEq, Repr

/-- The shift kinds of SHI and VSHI (R193). -/
abbrev ShiftKind := BitVec 2

/-- Which block's CNTCLR a write sets (R165, R275, R363). -/
inductive CntBlock where
  | eng (e : EngNo) | shm | ken
  deriving DecidableEq, Repr

/-- What the scrubber reads (R393). -/
inductive ScrubTarget where
  | shared (bank : Fin 64) (word : BitVec 20)
  | local (e : EngNo) (addr : BitVec 16)
  | program (e : EngNo) (half : Bool) (bundle : BitVec 12)
  | queueArray (array : Fin 32) (row : Nat)
  | sharedBits (group : BitVec 12)
  | mailbox (word : BitVec 12)
  | passEnd
  deriving DecidableEq, Repr

/-- A field of a port's PCIe configuration space that a rule uses (R423, R427, R438, R459). -/
inductive CfgField where
  | classCode | maxPayload | maxReadRequest | timeout | ecrcGen | ecrcCheck | msixEnable | msixMask
  deriving DecidableEq, Repr

/-- What an access of a host reaches through a port: BAR0, BAR2 (R424), or its configuration space (R423). -/
inductive HostSpace where
  | bar0 | bar2
  | config (f : CfgField)
  deriving DecidableEq, Repr

/-- Why a die stops (R389). -/
inductive StopCause where
  | pllUnlock | rail | thermal | queueMemory
  deriving DecidableEq, Repr

/-- What the part measures or receives at a tick: the junction temperature (R601), the offset from the
master's tick (R64), the DCO offset and lock (R99), and the PTP time in samples (R469). -/
structure TickIn where
  temp : BitVec 12
  skew : BitVec 8
  ppm : BitVec 16
  lock : BitVec 2
  ptpMsc : BitVec 64
  /-- The offset in cycles of the tick from the nearest whole multiple of the frame period since the PTP epoch (R61). -/
  ptpPhase : Int
  /-- The levels of TMU_IN (R519). -/
  pins : BitVec 4
  deriving DecidableEq, Repr

/-- What an edge between ticks that may clock a TMU channel comes from (R512): SRC 000b, 001b, 010b, and 100b with its pin. -/
inductive TmuSrc where
  | cclk8 | refclk | media
  | pin (n : Fin 4)
  deriving DecidableEq, Repr

/-- SRC of a source. -/
def TmuSrc.code : TmuSrc → Nat
  | .cclk8 => 0
  | .refclk => 1
  | .media => 2
  | .pin _ => 4

/-- One slot of a doorbell page as read (R433). -/
structure DbSlot where
  ring : Fin 64
  pi : W32
  ci : W32
  gen : W32
  deriving DecidableEq, Repr

/-- The part of a command descriptor that every command has (R439), and how it was read. -/
structure Desc where
  port : PortNo
  ring : Fin 64
  opcode : BitVec 16
  flags : BitVec 8
  die : BitVec 8
  tag : W32
  rbuf : BitVec 64
  rlen : W32
  /-- The descriptor read succeeded (R442 check 1). -/
  readOk : Bool
  /-- Every byte marked 0 is 0, and a kind byte names a row of R445 (R442 check 7). -/
  zeroOk : Bool
  deriving DecidableEq, Repr

/-- A slow-path entry as read by DMA (R458), with what the wire adds. -/
structure SlowPkt where
  addr : BitVec 64
  len : BitVec 16
  port : BitVec 8
  tsReq : Bool
  tagged : Bool
  bytes : List Byte
  txTime : BitVec 80
  deriving DecidableEq, Repr

/-- The MACsec SecTAG of a received frame, and whether its ICV verifies (R482). -/
structure SecTag where
  sci : BitVec 64
  an : BitVec 2
  pn : BitVec 64
  icvOk : Bool
  deriving DecidableEq, Repr

/-- The RTP part of a received packet (R475). -/
structure Rtp where
  /-- Its header carries CSRCs, an extension or padding. -/
  odd : Bool
  seq : BitVec 16
  ts : W32
  payload : List Byte
  deriving DecidableEq, Repr

/-- PTP message types that the part acts on (R478, R479). -/
inductive PtpKind where
  | sync | followUp | delayReq | delayResp | pdelayReq | pdelayResp | pdelayRespFollowUp | other
  deriving DecidableEq, Repr

/-- A PTP message as received (R479). Times are in nanoseconds. -/
structure Ptp where
  kind : PtpKind
  domain : BitVec 8
  /-- The sender's port identity: clockIdentity and portNumber (R480). -/
  source : BitVec 80
  seqId : BitVec 16
  /-- The port identity whose request a response answers (R479). -/
  reqSource : BitVec 80
  twoStep : Bool
  /-- The origin or receive timestamp the message carries, corrected. -/
  time : Int
  /-- The part's own reception timestamp (R478). -/
  rxTime : Int
  deriving DecidableEq, Repr

/-- An Ethernet frame as received (R474), with its fields taken apart. -/
structure EthFrame where
  /-- Media-clock samples since the tick at its reception (R475). -/
  pos : Nat
  /-- The capacity of the next posted slow-path buffer (R458). -/
  cap : Nat
  len : Nat
  fcsOk : Bool
  dst : BitVec 48
  vlan : Option (BitVec 12)
  etherType : BitVec 16
  sec : Option SecTag
  /-- IPv4 UDP: destination address and port, and whether without options or fragmentation. -/
  udp : Option (BitVec 32 × BitVec 16 × Bool)
  rtp : Option Rtp
  ptp : Option Ptp
  deriving DecidableEq, Repr

/-- A block of 128 words (R316). -/
abbrev BlockWords := List W18

/-- The body of an NCTL slot (R489). -/
structure Nctl where
  leash : W32
  ret : BitVec 16
  kind : BitVec 8
  data : List Byte
  deriving DecidableEq, Repr

/-- What a slot of a node carries (R488, R489). -/
inductive FinBody where
  | empty
  | nctl (b : Nctl)
  | carrier (words : BlockWords)
  deriving DecidableEq, Repr

/-- A Finolrus slot as it arrives at the part (R488): its header fields and its body. -/
structure FinSlot where
  dirB : Bool
  hop : BitVec 6
  node : Fin 64
  strm : BitVec 4
  slot : BitVec 16
  fnlo : BitVec 16
  sent : BitVec 16
  bseq : BitVec 16
  body : FinBody
  /-- The capacity of the next posted slow-path buffer (R458). -/
  cap : Nat
  deriving DecidableEq, Repr

/-- An FS phase drift of more than half a sample period (R506). -/
inductive Slip where
  | none | repeated | dropped
  deriving DecidableEq, Repr

/-- A rail of R597, in the order of R613. -/
inductive Rail where
  | core | sram | io | sd | sdh | pll
  deriving DecidableEq, Repr

/-- The bit of the rail in DIE_MON.RAILOK (R613). -/
def Rail.bit : Rail → Nat
  | .core => 0 | .sram => 1 | .io => 2 | .sd => 3 | .sdh => 4 | .pll => 5

/-- The number of populated dies of a variant (R2). -/
def Variant.dies : Variant → Nat
  | .dxd2064 => 2 | .dxd4064 => 4 | .dxd6064 => 6 | .dxd8064 => 8

end Sys2Proof.Machine
end

