-- ==== Sys2Proof/Machine/KenState.lean ====
section
/-! DEFINITION. The state of the kennel, queues, flows and leaves (R76 to R79, R316 to R362). -/

namespace Sys2Proof.Machine

/-- The six block states of R327. -/
inductive BState where
  | free | queued | held | tent | transit | loaned
  deriving DecidableEq, Repr

/-- The code of a block state (R327). -/
def BState.code : BState → Nat
  | .free => 0 | .queued => 1 | .held => 2 | .tent => 3 | .transit => 4 | .loaned => 5

/-- One block of a pool (R327 to R337). -/
structure Block where
  st : BState
  /-- The loan account, for LOANED. -/
  acct : Nat
  /-- LOANED and receiving content. -/
  landing : Bool
  /-- For TRANSIT toward another die: the global queue, and whether it has been sent (R331, R336). -/
  dst : Nat
  sent : Bool
  /-- HELD by an overrun, to become FREE at the next commit phase (R90). -/
  overrun : Bool
  /-- In the free list, which the tally check compares with the FREE counter (R358). -/
  inFree : Bool
  deriving DecidableEq, Repr

/-- A FREE block. -/
def Block.free : Block := ⟨.free, 0, false, 0, false, false, true⟩

/-- A block in a queue: handle, ticks it has seen since it became pending (R340), whether a run holds it, and whether its
dequeue is committed (R341). -/
structure QEnt where
  h : BitVec 16
  age : Nat
  held : Bool
  gone : Bool
  deriving DecidableEq, Repr

/-- The state of one queue (R339). -/
structure Queue where
  com : List QEnt
  pend : List QEnt
  bp : Bool
  /-- Pending and committed blocks, and the age of the oldest committed one, at the end of the last queue-commit step (R364). -/
  pendN : Nat
  depN : Nat
  oldN : Nat
  deriving DecidableEq, Repr

def Queue.zero : Queue := ⟨[], [], false, 0, 0, 0⟩

/-- The parameters of one queue (R339, R343). -/
structure QParam where
  policy : BitVec 2
  dlim : BitVec 16
  alim : BitVec 16
  deriving DecidableEq, Repr

def QParam.zero : QParam := ⟨0, 0, 0⟩

/-- The parameter words C0 to C3 of a flow (R347). -/
structure FlowP where
  c0 : W32
  c1 : W32
  c2 : W32
  c3 : W32
  deriving DecidableEq, Repr

def FlowP.zero : FlowP := ⟨0, 0, 0, 0⟩

/-- The state words C4 to C7 of a flow, its collar tokens, and when it opened (R347, R354, R355). -/
structure FlowS where
  c4 : W32
  c5 : W32
  c6 : W32
  c7 : W32
  tokens : Nat
  /-- The tick of its die at which the flow opened last, counted from reset (R354). -/
  opened : Nat
  deriving DecidableEq, Repr

def FlowS.zero : FlowS := ⟨0, 0, 0, 0, 0, 0⟩

/-- A leaf (R76 to R79, R446). -/
structure Leaf where
  /-- Created. -/
  v : Bool
  eng : Nat
  entry : Nat
  /-- Word addresses of the recto and verso in the package memory of the die. -/
  recto : Nat
  verso : Nat
  len : Nat
  /-- true: the verso is the read side. -/
  side : Bool
  /-- Its owner reached FEND in this frame (R77, R81). -/
  turn : Bool
  deriving DecidableEq, Repr

def Leaf.zero : Leaf := ⟨false, 0, 0, 0, 0, 0, false, false⟩

end Sys2Proof.Machine
end

