-- ==== Sys2Proof/Syntax.lean ====
section
/-! DEFINITION. The commands: one constructor per row of spec/opcode_table.json, with the row's operands. Rows of the
register map carry the port or engine that writes and the value written; engine operations carry where they issue (`At`) and
the fields of their syllable format (R167, R219) that are not fixed at zero. -/

namespace Sys2Proof

open Sys2Proof.Machine

/-- The commands. -/
inductive Instr where
  -- Registers and the package spine
  /-- REGISTER_WRITE (R9): A BAR0 or register-space write to a register without its own row sets its fields according to their types. -/
  | registerWrite (src : Src) (space : HostSpace) (addr : BitVec 24) (val : W32) (be : BitVec 8)
  /-- UNPOPULATED_WINDOW_ACCESS (R15): An access to an unpopulated die window, or to the HPT or PNL block of another die, reads 0, ignores writes and is counted. -/
  | unpopulatedWindowAccess (src : Src) (space : HostSpace) (addr : BitVec 24) (write : Bool) (val : W32) (be : BitVec 8)
  /-- SPINE_MESSAGE_RECEIVE (R37): A die receives a spine message, checks its CRC and delivers or forwards it in sequence order. -/
  | spineMessageReceive (die : DieNo) (dir : Dir) (good : Bool)
  /-- SPINE_RESTORE (R41): A write of SPN_CTL.RESTORE starts retraining of every DOWN direction of the die. -/
  | spineRestore (src : Src) (die : DieNo) (val : W32)
  /-- SPINE_TRAINING_END (R41): Retraining ends, and the direction becomes OK or returns to DOWN. -/
  | spineTrainingEnd (die : DieNo) (dir : Dir) (ok : Bool)
  -- Ticks and folios
  /-- HEEL_SEND (R64): The tick master sends the heel in both spine directions 256 cycles before each tick. -/
  | heelSend (die : DieNo)
  /-- HEEL_RECEIVE (R64): A die takes the first good heel copy and schedules its tick from the hop count. -/
  | heelReceive (die : DieNo) (dir : Dir) (good : Bool)
  /-- TICK (R58): The tick fires and the commit phase runs its ordered steps: FN, swap, leaf turn, queue commit, tally and updates. -/
  | tick (die : DieNo) (inp : TickIn)
  /-- FLYWHEEL_TICK (R65): A die with no heel 32 cycles before its expected tick fires the tick from its own count. -/
  | flywheelTick (die : DieNo) (inp : TickIn)
  /-- DISCIPLINE_SOURCE_LOST (R63): The discipline source is declared lost and the DCO enters holdover. -/
  | disciplineSourceLost
  /-- DISCIPLINE_SOURCE_RETURN (R63): The discipline source returns, and the part leaves holdover and relocks by steering. -/
  | disciplineSourceReturn
  /-- FN_LOAD (R54): A write of TCK_CTL.FNLD in EARLY loads FN from TCK_FNSET at the next tick. -/
  | fnLoad (src : Src) (die : DieNo) (val : W32)
  /-- TOD_LOAD (R96): A write of TCK_CTL.TODLD loads the time and date from the SET registers at the next tick. -/
  | todLoad (src : Src) (die : DieNo) (val : W32)
  /-- COUNTER_CLEAR (R165): A CNTCLR write clears the counters of its block at cycle 0 of the next tick. -/
  | counterClear (src : Src) (die : DieNo) (blk : CntBlock) (val : W32)
  /-- CONSTANT_REGION_LOAD (R75): The quire fetch unit loads a changed constant region at the start of the work phase. -/
  | constantRegionLoad (die : DieNo) (e : EngNo) (j : Fin 8)
  /-- FOLIO_START (R70): The sequencer starts the next folio list entry and sets the run's initial state. -/
  | folioStart (die : DieNo) (e : EngNo)
  /-- FOLIO_REPLAY (R84): An aborted folio restarts at its entry 24 cycles after the abort or after the refetch. -/
  | folioReplay (die : DieNo) (e : EngNo)
  /-- IDLE_FOLIO_START (R72): The idle folio starts in supervisor mode after the list. -/
  | idleFolioStart (die : DieNo) (e : EngNo)
  /-- BUDGET_EXCEEDED (R73): A folio run exceeds BUDGET × 64 cycles and ENG_FEV.BUDGET is set while the run continues. -/
  | budgetExceeded (die : DieNo) (e : EngNo)
  /-- GUARD_START (R60): The guard begins, and the part stops folios, closes port blocks and makes the swap decision. -/
  | guardStart (die : DieNo)
  /-- FEND_COMMIT (R160): FEND commits the folio's tentative work once every earlier result and posted operation has landed. -/
  | fendCommit (die : DieNo) (e : EngNo)
  /-- INTERRUPT_ENTRY (R145): A sampled interrupt request enters the handler at IVEC + 16 × line. -/
  | interruptEntry (die : DieNo) (e : EngNo) (spent : Nat)
  /-- FAR_LOAD_RETURN (R188): The result of LDF, LDF.D, TWK or a shared-bit atomic returns and the stall ends; `none` when an aperture read failed (R459). -/
  | farLoadReturn (die : DieNo) (e : EngNo) (data : Option W36) (cycles : Nat)
  /-- TRANSFER_COMPLETE (R183): Every transfer of a tag completes and its done bit is set. -/
  | transferComplete (die : DieNo) (e : EngNo) (tag : Fin 8)
  /-- FAR_STORE_LAND (R310): A far store buffer entry lands at its PA and its entry is freed. -/
  | farStoreLand (die : DieNo) (e : EngNo) (n : Fin 8)
  /-- PMW_LAND (R161): A PMW write lands in program memory six advancing cycles after issue. -/
  | pmwLand (die : DieNo) (e : EngNo)
  -- Recovery
  /-- TAKEOVER (R385): At the second tick after suspicion, the spare takes the suspect's lists and leaves. -/
  | takeover (die : DieNo) (n : Fin 16)
  /-- DIE_RELEASE (R388): A write of DIE_RELEASE.GO clears an engine's suspicion at the next tick. -/
  | dieRelease (src : Src) (die : DieNo) (val : W32)
  /-- DIE_STOP (R389): A PLL unlock, a supply or thermal trip, or a double array failure stops a die, which sends FAULT. -/
  | dieStop (die : DieNo) (cause : StopCause)
  /-- DIE_LOSS_DECLARATION (R390): Surviving dies declare a die lost after missing presence messages or after its FAULT message. -/
  | dieLossDeclaration (lost : DieNo)
  /-- SCRUB_READ (R393): The scrubber reads its share of memory through the maintenance path. -/
  | scrubRead (die : DieNo) (test : Bool) (target : ScrubTarget)
  /-- FUSE_PROGRAMMING_END (R280): REPAIR fuse programming ends with PROGDONE or PROGFAIL. -/
  | fuseProgrammingEnd (die : DieNo) (ok : Bool)
  /-- ENGINE_POWER_OFF (R250): A write of ENG_CTL.EN := 0 powers the engine off at the next tick unless refused. -/
  | enginePowerOff (src : Src) (die : DieNo) (e : EngNo) (val : W32)
  /-- ENGINE_WAKE (R249): A write of ENG_CTL.EN := 1 starts clearing the engine's memories at the next tick. -/
  | engineWake (src : Src) (die : DieNo) (e : EngNo) (val : W32)
  /-- ENGINE_CLEAR_END (R249): The engine's clearing ends and ENG_STAT.PWR becomes 1. -/
  | engineClearEnd (die : DieNo) (e : EngNo)
  -- Memories
  /-- OWNER_HANDOVER (R259): A write to SHM_OWN starts a bank ownership handover. -/
  | ownerHandover (src : Src) (die : DieNo) (bank : Fin 64) (val : W32)
  /-- HANDOVER_DRAIN_END (R259): The old owner's requests drain, and PEND returns to 0. -/
  | handoverDrainEnd (die : DieNo) (bank : Fin 64)
  /-- HANDOVER_TIMEOUT (R260): At 512 cycles, undrained transfers are abandoned and the handover completes. -/
  | handoverTimeout (die : DieNo) (bank : Fin 64)
  /-- BANK_POWER_REQUEST (R262): A write of SHM_PWR.PREQ requests ON, RETAIN or OFF for a bank. -/
  | bankPowerRequest (src : Src) (die : DieNo) (bank : Fin 64) (val : W32)
  /-- BANK_WAKE_END (R264): A bank waking from RETAIN or OFF becomes ON. -/
  | bankWakeEnd (die : DieNo) (bank : Fin 64)
  /-- TWIN_ENABLE (R265): A write to SHM_TWIN enables a bank for twinning and forms a pair when both sides agree. -/
  | twinEnable (src : Src) (die : DieNo) (bank : Fin 64) (val : W32)
  /-- TWIN_COPY_END (R266): The copy of the home bank into the twin ends and SYNC becomes 1. -/
  | twinCopyEnd (die : DieNo) (bank : Fin 64)
  /-- TWIN_READ_RETURN (R268): The twin read for a word in error returns, repairing the word or setting TWINBAD. -/
  | twinReadReturn (die : DieNo) (bank : Fin 64) (word : BitVec 20)
  -- Kennel
  /-- CROSS_DIE_SEND (R336): A TRANSIT block is sent on the spine once a credit toward its destination is held. -/
  | crossDieSend (die : DieNo) (dst : DieNo)
  /-- BLOCK_PLACEMENT (R337): The destination writes received block content into a LOANED block and acknowledges it. -/
  | blockPlacement (die : DieNo)
  /-- PLACEMENT_ACK_RECEIVE (R337): A placement acknowledgement frees the source's TRANSIT block. -/
  | placementAckReceive (die : DieNo)
  /-- CREDIT_MESSAGE_RECEIVE (R330): A credit message raises KEN_CRED toward the granting die. -/
  | creditMessageReceive (die : DieNo)
  /-- AUDIT_START (R360): A write of KEN_AUD.START starts a kennel audit at the next tick. -/
  | auditStart (src : Src) (die : DieNo) (val : W32)
  /-- AUDIT_END (R361): After 64 frames the audit settles leaks and duplicates and rebuilds the counters. -/
  | auditEnd (die : DieNo)
  /-- AUDIT_COPY (R361): A duplicate holder's copy is made once a fresh block is FREE. -/
  | auditCopy (die : DieNo)
  -- Swap
  /-- SHADOW_COPY (R405): A write of PKG_SWAPCTL.COPY copies every active banked item into its shadow copy. -/
  | shadowCopy (src : Src) (val : W32)
  /-- SHADOW_COPY_END (R405): The active-to-shadow copy ends on every die and COPYRUN returns to 0. -/
  | shadowCopyEnd
  /-- SWAP_CRC (R409): Each die finishes the CRC-32C over its shadow set into DIE_SWAPCRC. -/
  | swapCrc (die : DieNo)
  /-- SWAP_VOTE (R411): In frame T − 1 each die sends READY or NOTREADY 512 cycles before its guard. -/
  | swapVote (die : DieNo)
  /-- SWAP_DECISION_RECEIVE (R412): A die receives the decision message, holds it and forwards it once. -/
  | swapDecisionReceive (die : DieNo)
  /-- HANDOVER_EARLY_EXCHANGE (R418): At T + DELAY + XF − 1 the Early Service engines' items exchange. -/
  | handoverEarlyExchange
  /-- HANDOVER_END (R418): At T + DELAY + XF HANDOVER returns to 0 and PKG_STATE becomes FULL. -/
  | handoverEnd
  -- Host ports
  /-- HOST_PORT_RESET (R427): PERSTk_N, or the link leaving L0 for Detect, resets one host port. -/
  | hostPortReset (port : PortNo) (linkDown : Bool)
  /-- RING_ENABLE (R431): A write of HPT_RCFG.EN := 1 enables a ring with zeroed indices, or is refused. -/
  | ringEnable (src : Src) (port : PortNo) (ring : Fin 64) (val : W32)
  /-- RING_DISABLE (R432): A write of EN := 0 disables the ring at the next tick. -/
  | ringDisable (src : Src) (port : PortNo) (ring : Fin 64) (val : W32)
  /-- DOORBELL_READ_COMPLETE (R434): The doorbell read completes and slots with a new GEN update the indices. -/
  | doorbellReadComplete (port : PortNo) (ok : Bool) (heart : W32) (slots : List DbSlot)
  /-- DOORBELL_READ_TIMEOUT (R436): A doorbell read not completed by the guard fails. -/
  | doorbellReadTimeout (port : PortNo)
  /-- SLOW_PATH_TRANSMIT (R484): A slow-path transmit entry is sent in a gap and its completion is written. -/
  | slowPathTransmit (port : PortNo) (ring : Fin 64) (pkt : SlowPkt)
  /-- AUTH_CLAIM (R461): A write of PKG_AUTH.CLAIM makes the writing port the pending claimant. -/
  | authClaim (src : Src) (val : W32)
  /-- AUTH_RELEASE (R461): A write of PKG_AUTH.RELEASE releases authority or withdraws a claim. -/
  | authRelease (src : Src) (val : W32)
  /-- LEASE_LAPSE (R462): The holder's lease lapses after LEASE frames without a HEART change. -/
  | leaseLapse
  -- Host commands
  /-- CFG_WRITE (R446): Command that reads a list of register pairs and writes them in order. -/
  | cfgWrite (desc : Desc) (readBad : Bool) (pairs : List (W32 × W32))
  /-- CODE_LOAD (R446): Command that writes bundles into an engine's shadow program half and optionally its recovery image. -/
  | codeLoad (desc : Desc) (readBad : Bool) (eng : BitVec 8) (first : BitVec 16) (count : BitVec 16) (image : List (BitVec 144))
  /-- LEAF_INIT (R79): Command that creates, initialises or deletes a leaf. -/
  | leafInit (desc : Desc) (readBad : Bool) (leaf : BitVec 16) (eng : BitVec 8) (entry : BitVec 8) (recto : W32) (verso : W32) (len : W32) (image : Option (List W18))
  /-- FLOW_OPEN (R350): Command that assigns the lowest free FID and opens a flow. -/
  | flowOpen (desc : Desc) (words : FlowP) (qp : QParam)
  /-- FLOW_CLOSE (R353): Command that closes a flow and frees its blocks. -/
  | flowClose (desc : Desc) (fid : BitVec 16)
  /-- FLOW_MOD_CONTEXT (R352): FLOW_MOD with WHAT 00h changes a flow's context words. -/
  | flowModContext (desc : Desc) (fid : BitVec 16) (words : FlowP)
  /-- FLOW_MOD_QUEUE (R352): FLOW_MOD with WHAT 01h changes one queue's parameters. -/
  | flowModQueue (desc : Desc) (fid : BitVec 16) (words : FlowP) (qidx : BitVec 8) (qp : QParam)
  /-- SWAP_ARM (R407): Command that arms a configuration swap at frame T and locks the shadow set. -/
  | swapArm (desc : Desc) (t : BitVec 48) (crcs : List W32)
  /-- SWAP_CANCEL (R410): Command that disarms an armed swap if processed by frame T − 2. -/
  | swapCancel (desc : Desc)
  /-- QUERY_REGISTERS (R447): QUERY kind 0000h reads a run of registers into the result buffer. -/
  | queryRegisters (desc : Desc) (addr : W32) (count : BitVec 16)
  /-- QUERY_FLOW (R447): QUERY kind 0001h returns a flow context image. -/
  | queryFlow (desc : Desc) (fid : BitVec 16)
  /-- QUERY_QUEUE (R447): QUERY kind 0002h returns a queue view. -/
  | queryQueue (desc : Desc) (queue : W32)
  /-- QUERY_TALLY (R447): QUERY kind 0003h returns the tally, KEN_BLOCKS and KEN_STAT. -/
  | queryTally (desc : Desc)
  /-- REPAIR (R280): Command that programs a soft repair into a field fuse record. -/
  | repair (desc : Desc) (entry : BitVec 8)
  /-- SCRUB_FULL (R445): SCRUB kind 00h requests a full scrub pass of a die. -/
  | scrubFull (desc : Desc)
  /-- SCRUB_RANGE (R445): SCRUB kind 01h scrubs a range of words. -/
  | scrubRange (desc : Desc) (pa : BitVec 48) (words : W32)
  /-- TEST_START (R546): Command that enters TEST at the next tick and runs the selected parts. -/
  | testStart (desc : Desc) (mask : W32) (dur : W32)
  /-- KEY_LOAD (R584): Command that unwraps a key into a key slot, taking effect at the next tick. -/
  | keyLoad (desc : Desc) (readBad : Bool) (slot : BitVec 8) (type : BitVec 8) (len : BitVec 16) (blob : List Byte)
  /-- KEY_ERASE (R583): KEY_LOAD with key type 00h erases a key slot. -/
  | keyErase (desc : Desc) (slot : BitVec 8)
  /-- AUDIT (R360): Command that starts a kennel audit and completes when it ends. -/
  | audit (desc : Desc)
  -- Link, Finolrus and TDM ports
  /-- LINK_ENABLE (R467): A write of LNK_CTL.EN := 1 starts a link lane. -/
  | linkEnable (src : Src) (die : DieNo) (k : PortNo) (val : W32)
  /-- LINK_DISABLE (R467): A write of LNK_CTL.EN := 0 stops the lane at the next tick. -/
  | linkDisable (src : Src) (die : DieNo) (k : PortNo) (val : W32)
  /-- LINK_UP (R467): A lane gains block lock without fault and UP becomes 1. -/
  | linkUp (die : DieNo) (k : PortNo)
  /-- LINK_DOWN (R467): A lane loses lock or faults and UP becomes 0. -/
  | linkDown (die : DieNo) (k : PortNo) (remote : Bool)
  /-- ETH_FRAME_RECEIVE (R474): An ETH port receives a frame, checks its FCS and MACsec, and classifies it. -/
  | ethFrameReceive (die : DieNo) (k : PortNo) (frame : EthFrame)
  /-- PTP_DELAY_REQ_SEND (R479): The servo sends Delay_Req every 2^DRINT s. -/
  | ptpDelayReqSend (die : DieNo) (k : PortNo) (time : Int)
  /-- PTP_PDELAY_REQ_SEND (R479): With 802.1AS the servo sends Pdelay_Req every second. -/
  | ptpPdelayReqSend (die : DieNo) (k : PortNo) (time : Int)
  /-- PTP_LOSS (R479): No valid Sync arrives for LOSS ms, and the servo reports loss. -/
  | ptpLoss (die : DieNo) (k : PortNo)
  /-- PTP_GRANDMASTER_SET (R480): A write of LNK_PTPGM names the master at the next tick and restarts steering. -/
  | ptpGrandmasterSet (src : Src) (die : DieNo) (k : PortNo) (g0 : W32) (g1 : W32) (g2 : W32)
  /-- STREAM_PACKET_SEND (R477): An ETH port sends one RTP packet per packet time from its transmit flows. -/
  | streamPacketSend (die : DieNo) (k : PortNo) (n : Fin 1024) (early late : Bool)
  /-- FIN_RING_ENABLE (R485): A write of FIN_CTL.EN starts the Finolrus ring if both ports qualify. -/
  | finRingEnable (src : Src) (die : DieNo) (val : W32)
  /-- FIN_TRAIN_START (R486): TXOFS cycles after each tick the part starts one train of S slots on each port. -/
  | finTrainStart (die : DieNo) (dirB : Bool) (delay : Option (BitVec 16))
  /-- FIN_SLOT_RECEIVE (R491): The part keeps the first good copy of a slot and checks it. -/
  | finSlotReceive (die : DieNo) (slot : FinSlot) (good old : Bool)
  /-- DEG_UPDATE (R498): At each FN multiple of 1,000, DEG is set from the CRC growth. -/
  | degUpdate (die : DieNo)
  /-- FIN_ADMIT (R503): A write of FIN_ADMIT.GO makes a quarantined node ABSENT at the next tick. -/
  | finAdmit (src : Src) (die : DieNo) (val : W32)
  /-- TDM_ENABLE (R511): A write of TDM_CTL.EN starts or stops a TDM port. -/
  | tdmEnable (src : Src) (die : DieNo) (k : Fin 4) (val : W32)
  /-- TDM_INPUT_SLOT (R470): A TDM input slot received in an FS period enters at the next index. -/
  | tdmInputSlot (die : DieNo) (k : Fin 4) (slot : Fin 16) (pos : Fin 192) (slip : Slip) (word : W32)
  /-- TDM_OUTPUT_SLOT (R472): A TDM output slot sends its flow channel's sample. -/
  | tdmOutputSlot (die : DieNo) (k : Fin 4) (slot : Fin 16) (pos : Fin 192) (slip : Slip)
  /-- TDM_FS_LOSS (R506): No FS edge for two sample periods sets LOSS and clears LOCK. -/
  | tdmFsLoss (die : DieNo) (k : Fin 4)
  -- TMU
  /-- TMU_START (R516): A write of TMU_CTL.START loads COUNT and runs the channel. -/
  | tmuStart (src : Src) (die : DieNo) (c : Fin 16) (val : W32)
  /-- TMU_STOP (R517): A write of TMU_CTL.STOP clears RUN. -/
  | tmuStop (src : Src) (die : DieNo) (c : Fin 16) (val : W32)
  /-- TMU_WIDE_COMMIT (R522): A write of a HI register commits both halves of PER, CMP or LD. -/
  | tmuWideCommit (src : Src) (die : DieNo) (c : Fin 16) (which : Fin 3) (val : W32)
  /-- TMU_COUNT_CLOCK (R519): A prescaled count clock moves COUNT according to the mode. -/
  | tmuCountClock (die : DieNo) (c : Fin 16) (src : TmuSrc) (level : Bool)
  /-- TMU_CAPTURE (R525): A tick or pin edge captures COUNT into CAP. -/
  | tmuCapture (die : DieNo) (c : Fin 16) (pin : Fin 4) (rising : Bool)
  -- Test and boot
  /-- TEST_END (R546): At tick n + 1 + D, TEST returns to FULL and the completion is written. -/
  | testEnd
  /-- SELFTEST_SLOT_END (R550): After 64 frames the engine's self-test verdict is reported. -/
  | selftestSlotEnd (die : DieNo) (e : EngNo)
  /-- RESET_ASSERT (R557): RESET_N asserted puts the part in OFF. -/
  | resetAssert
  /-- RESET_RELEASE (R559): On RESET_N release each die locks its PLL, applies repairs and clears every memory. -/
  | resetRelease
  /-- BOOT_SELFTEST_END (R560): The boot-ROM self-tests end and choose the boot die or RECOVERY. -/
  | bootSelftestEnd (ok0 : Bool) (ok1 : Bool)
  /-- ENDPAPER_HEADER_READ (R564): The endpaper header is read and its key and signature are checked. -/
  | endpaperHeaderRead (bytes : Option (List Byte))
  /-- ENDPAPER_PAYLOAD_READ_END (R564): The payload read ends and its hash and sections are checked. -/
  | endpaperPayloadReadEnd (payload : Option (List Byte))
  /-- RECOVERY_LOAD (R568): A write of PKG_RECOVLEN.GO reads and applies a host image in RECOVERY. -/
  | recoveryLoad (src : Src) (val : W32) (image : Option (List Byte))
  -- Panel
  /-- PANEL_NOP (R575): Panel command NOP. -/
  | panelNop (k : PortNo) (frame : List (BitVec 24))
  /-- PANEL_READ (R575): Panel command READ returns mailbox words. -/
  | panelRead (k : PortNo) (frame : List (BitVec 24)) (clash : List Nat)
  /-- PANEL_WRITE (R575): Panel command WRITE stores words below 0800h. -/
  | panelWrite (k : PortNo) (frame : List (BitVec 24)) (clash : List Nat)
  /-- PANEL_TRIGGER (R578): Panel command TRIGGER accepts trigger words and forwards them to the other die. -/
  | panelTrigger (k : PortNo) (frame : List (BitVec 24)) (late : Bool)
  /-- PANEL_KICK (R579): Panel command KICK restarts the watchdog. -/
  | panelKick (k : PortNo) (frame : List (BitVec 24))
  /-- PANEL_ACK (R581): Panel command ACK releases PNLk_IRQ_N. -/
  | panelAck (k : PortNo) (frame : List (BitVec 24))
  /-- PANEL_WATCHDOG_EXPIRE (R579): No KICK for WDT frames sets WDEXP. -/
  | panelWatchdogExpire (k : PortNo)
  /-- TRIGGER_START (R577): Trigger ACT START plays a message once in a zone. -/
  | triggerStart (die : DieNo) (k : PortNo) (word : W36)
  /-- TRIGGER_LOOP (R577): Trigger ACT LOOP repeats a message in a zone. -/
  | triggerLoop (die : DieNo) (k : PortNo) (word : W36)
  /-- TRIGGER_STOP (R577): Trigger ACT STOP removes a zone from a message player. -/
  | triggerStop (die : DieNo) (k : PortNo) (word : W36)
  /-- TRIGGER_LIVE_ON (R577): Trigger ACT LIVE ON adds a live input in a zone. -/
  | triggerLiveOn (die : DieNo) (k : PortNo) (word : W36)
  /-- TRIGGER_LIVE_OFF (R577): Trigger ACT LIVE OFF removes a live input from a zone. -/
  | triggerLiveOff (die : DieNo) (k : PortNo) (word : W36)
  /-- TRIGGER_STOP_ALL (R577): Trigger ACT STOP ALL ends every player and triggered live input. -/
  | triggerStopAll (die : DieNo) (k : PortNo) (word : W36)
  -- Power and test port
  /-- SVN_UPDATE (R586): A write of PKG_SVNUP.GO in FULL programs PKG_SVNMIN in fuses. -/
  | svnUpdate (src : Src) (val : W32)
  /-- SVN_PROGRAM_END (R611): SVN fuse programming ends and GO returns to 0. -/
  | svnProgramEnd (ok0 : Bool) (ok1 : Bool)
  /-- RAIL_TRIP (R599): A rail beyond its trip limit for 2 µs stops the die, or all dies into OFF. -/
  | railTrip (die : DieNo) (rail : Rail)
  /-- RAIL_WARNING (R600): A rail leaves its operating range within trip limits and RAILWARN is raised. -/
  | railWarning (die : DieNo) (rail : Rail)
  /-- BYPASS (R610): JTAG instruction BYPASS. -/
  | bypass
  /-- IDCODE (R610): JTAG instruction IDCODE reads the package identification. -/
  | idcode
  /-- SAMPLE_PRELOAD (R610): JTAG instruction SAMPLE/PRELOAD. -/
  | samplePreload
  /-- EXTEST (R610): JTAG instruction EXTEST drives pins only while RESET_N is low. -/
  | extest
  /-- CLAMP (R610): JTAG instruction CLAMP, effective only while RESET_N is low. -/
  | clamp
  /-- HIGHZ (R610): JTAG instruction HIGHZ, effective only while RESET_N is low. -/
  | highz
  -- Engine: local memory and addresses
  /-- NOP (R102): No operation. -/
  | nop (at_ : At)
  /-- LD (R180): Direct local load of a word. -/
  | ld (at_ : At) (d : BitVec 4) (imm : BitVec 8)
  /-- LD_D (R180): Direct local load of a pair. -/
  | ldD (at_ : At) (d : BitVec 4) (imm : BitVec 8)
  /-- ST (R180): Direct local store of a word. -/
  | st (at_ : At) (d : BitVec 4) (imm : BitVec 8)
  /-- ST_D (R180): Direct local store of a pair. -/
  | stD (at_ : At) (d : BitVec 4) (imm : BitVec 8)
  /-- LDP (R177): Post-modify local load with address update. -/
  | ldp (at_ : At) (d : BitVec 4) (n : BitVec 3) (mode : BitVec 3) (w : BitVec 2)
  /-- STP (R177): Post-modify local store with address update. -/
  | stp (at_ : At) (d : BitVec 4) (n : BitVec 3) (mode : BitVec 3) (w : BitVec 2)
  /-- LDX_L (R180): Indexed local load into D0–D7. -/
  | ldxL (at_ : At) (d : BitVec 3) (n : BitVec 3) (imm : BitVec 6)
  /-- LDX_H (R180): Indexed local load into D8–D15. -/
  | ldxH (at_ : At) (d : BitVec 3) (n : BitVec 3) (imm : BitVec 6)
  /-- STX_L (R180): Indexed local store from D0–D7. -/
  | stxL (at_ : At) (d : BitVec 3) (n : BitVec 3) (imm : BitVec 6)
  /-- STX_H (R180): Indexed local store from D8–D15. -/
  | stxH (at_ : At) (d : BitVec 3) (n : BitVec 3) (imm : BitVec 6)
  /-- LDAM (R180): Load of an address or modifier register from local memory. -/
  | ldam (at_ : At) (d : BitVec 4) (n : BitVec 3) (mode : BitVec 3) (w : BitVec 2)
  /-- STAM (R180): Store of an address or modifier register to local memory. -/
  | stam (at_ : At) (d : BitVec 4) (n : BitVec 3) (mode : BitVec 3) (w : BitVec 2)
  /-- MVIA (R180): Move immediate to an address register. -/
  | mvia (at_ : At) (n : BitVec 3) (imm : BitVec 9)
  /-- ADDIA (R180): Add immediate to an address register. -/
  | addia (at_ : At) (n : BitVec 3) (imm : BitVec 9)
  /-- MOVA (R180): Move a D register to an address register. -/
  | mova (at_ : At) (n : BitVec 3) (d : BitVec 4)
  /-- MOVM (R180): Move a D register to a modifier register. -/
  | movm (at_ : At) (n : BitVec 3) (d : BitVec 4)
  /-- SETBS (R180): Set the circular base register. -/
  | setbs (at_ : At) (n : BitVec 3) (d : BitVec 4)
  /-- SETLN (R180): Set the circular length register. -/
  | setln (at_ : At) (n : BitVec 3) (d : BitVec 4)
  -- Engine: far transfers
  /-- FETCH (R182): Starts a transfer of words from package memory into local memory. -/
  | fetch (at_ : At) (v : BitVec 3) (n : BitVec 3) (dl : BitVec 3) (tag : BitVec 3)
  /-- STOW (R182): Starts a transfer of words from local memory into package memory. -/
  | stow (at_ : At) (v : BitVec 3) (n : BitVec 3) (dl : BitVec 3) (tag : BitVec 3)
  /-- FETCH_LF (R182): Starts a fetch from the read side of a leaf. -/
  | fetchLf (at_ : At) (v : BitVec 3) (n : BitVec 3) (dl : BitVec 3) (tag : BitVec 3)
  /-- STOW_LF (R182): Starts a stow into the write side of a leaf. -/
  | stowLf (at_ : At) (v : BitVec 3) (n : BitVec 3) (dl : BitVec 3) (tag : BitVec 3)
  /-- FETCH_B (R182): Starts a fetch of a kennel block into local memory. -/
  | fetchB (at_ : At) (d : BitVec 4) (n : BitVec 3) (tag : BitVec 3)
  /-- STOW_B (R182): Starts a stow of local words into a kennel block. -/
  | stowB (at_ : At) (d : BitVec 4) (n : BitVec 3) (tag : BitVec 3)
  /-- LDF (R182): Far load of a word with a serialising stall. -/
  | ldf (at_ : At) (d : BitVec 4) (v : BitVec 3)
  /-- LDF_D (R182): Far load of a double, including registers. -/
  | ldfD (at_ : At) (d : BitVec 4) (v : BitVec 3)
  /-- STF (R310): Far store of a word posted to the store buffer. -/
  | stf (at_ : At) (d : BitVec 4) (v : BitVec 3)
  /-- STF_D (R310): Far store of a double posted to the store buffer. -/
  | stfD (at_ : At) (d : BitVec 4) (v : BitVec 3)
  -- Engine: multiply
  /-- MPY (R192): Multiply into an accumulator. -/
  | mpy (at_ : At) (acd : BitVec 3) (a : BitVec 4) (b : BitVec 4)
  /-- MAC (R192): Multiply-accumulate. -/
  | mac (at_ : At) (acd : BitVec 3) (a : BitVec 4) (b : BitVec 4)
  /-- MSU (R192): Multiply-subtract. -/
  | msu (at_ : At) (acd : BitVec 3) (a : BitVec 4) (b : BitVec 4)
  /-- MPYF (R192): Fractional multiply. -/
  | mpyf (at_ : At) (acd : BitVec 3) (a : BitVec 4) (b : BitVec 4)
  /-- MACF (R192): Fractional multiply-accumulate. -/
  | macf (at_ : At) (acd : BitVec 3) (a : BitVec 4) (b : BitVec 4)
  /-- MSUF (R192): Fractional multiply-subtract. -/
  | msuf (at_ : At) (acd : BitVec 3) (a : BitVec 4) (b : BitVec 4)
  /-- MACSU (R192): Unsigned-by-signed multiply-accumulate. -/
  | macsu (at_ : At) (acd : BitVec 3) (a : BitVec 4) (b : BitVec 4)
  /-- MACUU (R192): Unsigned multiply-accumulate. -/
  | macuu (at_ : At) (acd : BitVec 3) (a : BitVec 4) (b : BitVec 4)
  /-- MPY_Q (R192): Quad multiply. -/
  | mpyQ (at_ : At) (g : BitVec 1) (a : BitVec 4) (q : BitVec 2)
  /-- MAC_Q (R192): Quad multiply-accumulate. -/
  | macQ (at_ : At) (g : BitVec 1) (a : BitVec 4) (q : BitVec 2)
  /-- MSU_Q (R192): Quad multiply-subtract. -/
  | msuQ (at_ : At) (g : BitVec 1) (a : BitVec 4) (q : BitVec 2)
  /-- MPYF_Q (R192): Quad fractional multiply. -/
  | mpyfQ (at_ : At) (g : BitVec 1) (a : BitVec 4) (q : BitVec 2)
  /-- MACF_Q (R192): Quad fractional multiply-accumulate. -/
  | macfQ (at_ : At) (g : BitVec 1) (a : BitVec 4) (q : BitVec 2)
  /-- MSUF_Q (R192): Quad fractional multiply-subtract. -/
  | msufQ (at_ : At) (g : BitVec 1) (a : BitVec 4) (q : BitVec 2)
  /-- CLRA (R192): Clear an accumulator. -/
  | clra (at_ : At) (acd : BitVec 3)
  /-- ADDAC (R192): Add accumulators. -/
  | addac (at_ : At) (acd : BitVec 3) (acs : BitVec 3)
  /-- SUBAC (R192): Subtract accumulators. -/
  | subac (at_ : At) (acd : BitVec 3) (acs : BitVec 3)
  /-- SHAC (R192): Shift an accumulator. -/
  | shac (at_ : At) (acd : BitVec 3) (acs : BitVec 3) (imm : BitVec 6)
  /-- NEGAC (R192): Negate an accumulator. -/
  | negac (at_ : At) (acd : BitVec 3) (acs : BitVec 3)
  /-- ABSAC (R192): Take the absolute value of an accumulator. -/
  | absac (at_ : At) (acd : BitVec 3) (acs : BitVec 3)
  /-- SATAC (R192): Saturate an accumulator to 36 bits. -/
  | satac (at_ : At) (acd : BitVec 3) (acs : BitVec 3)
  /-- RNDAC (R192): Round an accumulator. -/
  | rndac (at_ : At) (acd : BitVec 3) (acs : BitVec 3)
  /-- MVDA (R192): Move a DD pair to an accumulator. -/
  | mvda (at_ : At) (acd : BitVec 3) (d : BitVec 4)
  /-- MVDAH (R192): Move a D register to an accumulator's high part. -/
  | mvdah (at_ : At) (acd : BitVec 3) (d : BitVec 4)
  -- Engine: ALU
  /-- ADD (R193): Add. -/
  | add (at_ : At) (d : BitVec 4) (a : BitVec 4) (b : BitVec 4)
  /-- ADDC (R193): Add with carry. -/
  | addc (at_ : At) (d : BitVec 4) (a : BitVec 4) (b : BitVec 4)
  /-- SUB (R193): Subtract. -/
  | sub (at_ : At) (d : BitVec 4) (a : BitVec 4) (b : BitVec 4)
  /-- SUBB (R193): Subtract with borrow. -/
  | subb (at_ : At) (d : BitVec 4) (a : BitVec 4) (b : BitVec 4)
  /-- ADDS (R193): Saturating add. -/
  | adds (at_ : At) (d : BitVec 4) (a : BitVec 4) (b : BitVec 4)
  /-- SUBS (R193): Saturating subtract. -/
  | subs (at_ : At) (d : BitVec 4) (a : BitVec 4) (b : BitVec 4)
  /-- ADDI (R193): Add immediate. -/
  | addi (at_ : At) (d : BitVec 4) (imm : BitVec 8)
  /-- MOVI (R193): Move immediate. -/
  | movi (at_ : At) (d : BitVec 4) (imm : BitVec 8)
  /-- CMP (R193): Compare registers. -/
  | cmp (at_ : At) (a : BitVec 4) (b : BitVec 4)
  /-- CMPI (R193): Compare with immediate. -/
  | cmpi (at_ : At) (d : BitVec 4) (imm : BitVec 8)
  /-- AND (R193): Bitwise AND. -/
  | and (at_ : At) (d : BitVec 4) (a : BitVec 4) (b : BitVec 4)
  /-- OR (R193): Bitwise OR. -/
  | or (at_ : At) (d : BitVec 4) (a : BitVec 4) (b : BitVec 4)
  /-- XOR (R193): Bitwise XOR. -/
  | xor (at_ : At) (d : BitVec 4) (a : BitVec 4) (b : BitVec 4)
  /-- ANDN (R193): AND with the complement of the second operand. -/
  | andn (at_ : At) (d : BitVec 4) (a : BitVec 4) (b : BitVec 4)
  /-- UN_MOV (R194): UN sub 0000b: move a register. -/
  | unMov (at_ : At) (d : BitVec 4) (a : BitVec 4)
  /-- UN_NOT (R194): UN sub 0001b: bitwise NOT. -/
  | unNot (at_ : At) (d : BitVec 4) (a : BitVec 4)
  /-- UN_NEG (R194): UN sub 0010b: negate. -/
  | unNeg (at_ : At) (d : BitVec 4) (a : BitVec 4)
  /-- UN_ABS (R194): UN sub 0011b: absolute value. -/
  | unAbs (at_ : At) (d : BitVec 4) (a : BitVec 4)
  /-- UN_NEGS (R194): UN sub 0100b: saturating negate. -/
  | unNegs (at_ : At) (d : BitVec 4) (a : BitVec 4)
  /-- UN_ABSS (R194): UN sub 0101b: saturating absolute value. -/
  | unAbss (at_ : At) (d : BitVec 4) (a : BitVec 4)
  /-- UN_CLS (R194): UN sub 0110b: count leading sign bits. -/
  | unCls (at_ : At) (d : BitVec 4) (a : BitVec 4)
  /-- ASR (R193): Arithmetic shift right. -/
  | asr (at_ : At) (d : BitVec 4) (a : BitVec 4) (b : BitVec 4)
  /-- LSR (R193): Logical shift right. -/
  | lsr (at_ : At) (d : BitVec 4) (a : BitVec 4) (b : BitVec 4)
  /-- SHL (R193): Shift left. -/
  | shl (at_ : At) (d : BitVec 4) (a : BitVec 4) (b : BitVec 4)
  /-- ROL (R193): Rotate left. -/
  | rol (at_ : At) (d : BitVec 4) (a : BitVec 4) (b : BitVec 4)
  /-- SHI (R193): Shift by immediate of the selected kind. -/
  | shi (at_ : At) (d : BitVec 4) (kind : BitVec 2) (amt : BitVec 5)
  /-- ADD_D (R193): Add doubles. -/
  | addD (at_ : At) (v : BitVec 3) (w : BitVec 3) (u : BitVec 3)
  /-- SUB_D (R193): Subtract doubles. -/
  | subD (at_ : At) (v : BitVec 3) (w : BitVec 3) (u : BitVec 3)
  /-- MIN (R193): Signed minimum. -/
  | min (at_ : At) (d : BitVec 4) (a : BitVec 4) (b : BitVec 4)
  /-- MAX (R193): Signed maximum. -/
  | max (at_ : At) (d : BitVec 4) (a : BitVec 4) (b : BitVec 4)
  /-- MINI (R195): Running minimum with its index. -/
  | mini (at_ : At) (v : BitVec 3) (a : BitVec 4) (b : BitVec 4)
  /-- MAXI (R195): Running maximum with its index. -/
  | maxi (at_ : At) (v : BitVec 3) (a : BitVec 4) (b : BitVec 4)
  /-- BEXP (R196): Fold a block exponent into BXS. -/
  | bexp (at_ : At) (a : BitVec 4)
  /-- NORM (R193): Normalise by BXS. -/
  | norm (at_ : At) (d : BitVec 4) (a : BitVec 4)
  /-- BXR (R196): Reset BXS to 17. -/
  | bxr (at_ : At)
  /-- MVAD (R193): Move a part of an accumulator to a D register. -/
  | mvad (at_ : At) (d : BitVec 4) (acs : BitVec 3) (part : BitVec 2)
  -- Engine: decimal, bits, divide, strings
  /-- DADD (R197): BCD add. -/
  | dadd (at_ : At) (d : BitVec 4) (a : BitVec 4) (b : BitVec 4)
  /-- DADDC (R197): BCD add with decimal carry. -/
  | daddc (at_ : At) (d : BitVec 4) (a : BitVec 4) (b : BitVec 4)
  /-- DSUB (R197): BCD subtract. -/
  | dsub (at_ : At) (d : BitVec 4) (a : BitVec 4) (b : BitVec 4)
  /-- DSUBB (R197): BCD subtract with borrow. -/
  | dsubb (at_ : At) (d : BitVec 4) (a : BitVec 4) (b : BitVec 4)
  /-- DAJ (R197): Binary to BCD conversion. -/
  | daj (at_ : At) (d : BitVec 4) (a : BitVec 4)
  /-- BSET (R193): Set a local bit. -/
  | bset (at_ : At) (imm : BitVec 12)
  /-- BCLR (R193): Clear a local bit. -/
  | bclr (at_ : At) (imm : BitVec 12)
  /-- BINV (R193): Invert a local bit. -/
  | binv (at_ : At) (imm : BitVec 12)
  /-- BTST (R193): Test a local bit. -/
  | btst (at_ : At) (imm : BitVec 12)
  /-- BLD (R193): Load a local bit into a register. -/
  | bld (at_ : At) (d : BitVec 4) (a : BitVec 4)
  /-- BST (R193): Store a register bit into a local bit. -/
  | bst (at_ : At) (a : BitVec 4) (b : BitVec 4)
  /-- DIV (R198): Signed divide with an 18-cycle stall. -/
  | div (at_ : At) (d : BitVec 4) (a : BitVec 4) (b : BitVec 4)
  /-- DIVF (R198): Fractional divide. -/
  | divf (at_ : At) (d : BitVec 4) (a : BitVec 4) (b : BitVec 4)
  /-- SMOV (R199): String move, reissued per word. -/
  | smov (at_ : At) (d : BitVec 4) (dir : BitVec 1)
  /-- SFIL (R199): String fill. -/
  | sfil (at_ : At) (d : BitVec 4) (dir : BitVec 1)
  /-- SCMP (R199): String compare. -/
  | scmp (at_ : At) (d : BitVec 4) (dir : BitVec 1)
  -- Engine: control
  /-- BR (R203): Direct branch. -/
  | br (at_ : At) (imm : BitVec 12)
  /-- CALL (R203): Direct call. -/
  | call (at_ : At) (imm : BitVec 12)
  /-- BRCC (R203): Conditional branch. -/
  | brcc (at_ : At) (cond : BitVec 4) (disp : BitVec 8)
  /-- BRI (R121): Predicted indirect branch. -/
  | bri (at_ : At) (d : BitVec 4)
  /-- CALLI (R203): Predicted indirect call. -/
  | calli (at_ : At) (d : BitVec 4)
  /-- RET (R203): Return predicted from the return stack. -/
  | ret (at_ : At)
  /-- RETI (R147): Return from an interrupt or trap. -/
  | reti (at_ : At)
  /-- BRBS (R203): Branch if a local bit is set. -/
  | brbs (at_ : At) (d : BitVec 4) (imm : BitVec 8)
  /-- BRBC (R203): Branch if a local bit is clear. -/
  | brbc (at_ : At) (d : BitVec 4) (imm : BitVec 8)
  /-- LOOP (R127): Push a loop entry with a register count. -/
  | loop (at_ : At) (d : BitVec 4) (imm : BitVec 8)
  /-- LOOPI (R127): Push a loop entry with an immediate count. -/
  | loopi (at_ : At) (cnt : BitVec 6) (len : BitVec 6)
  /-- RPT (R133): Repeat the next bundle an immediate number of times. -/
  | rpt (at_ : At) (cnt : BitVec 7)
  /-- RPTR (R133): Repeat the next bundle RC times. -/
  | rptr (at_ : At)
  -- Engine: queues, shared bits, system
  /-- ENQ (R204): Tentative enqueue of a block. -/
  | enq (at_ : At) (d : BitVec 4) (v : BitVec 3)
  /-- DEQ (R204): Dequeue the oldest committed block not HELD. -/
  | deq (at_ : At) (d : BitVec 4) (v : BitVec 3)
  /-- ALLOC (R204): Allocate a free kennel block. -/
  | alloc (at_ : At) (d : BitVec 4)
  /-- REL (R204): Release a block at FEND. -/
  | rel (at_ : At) (d : BitVec 4)
  /-- SBSET (R208): Set a shared bit. -/
  | sbset (at_ : At) (d : BitVec 4)
  /-- SBCLR (R208): Clear a shared bit. -/
  | sbclr (at_ : At) (d : BitVec 4)
  /-- SBTAS (R208): Test and set a shared bit. -/
  | sbtas (at_ : At) (d : BitVec 4)
  /-- SBTST (R208): Test a shared bit. -/
  | sbtst (at_ : At) (d : BitVec 4)
  /-- MVS (R209): Move a system register to a D register. -/
  | mvs (at_ : At) (d : BitVec 4) (sys : BitVec 5)
  /-- MTS (R209): Move a D register to a system register. -/
  | mts (at_ : At) (d : BitVec 4) (sys : BitVec 5)
  /-- TLBW (R210): Write a named L2 TLB entry. -/
  | tlbw (at_ : At) (d : BitVec 4)
  /-- TLBWR (R291): Write an L2 entry chosen among unpinned entries. -/
  | tlbwr (at_ : At) (d : BitVec 4)
  /-- TLBR (R210): Read an L2 TLB entry image. -/
  | tlbr (at_ : At) (d : BitVec 4)
  /-- TLBP (R210): Probe for the entry that translates a VA. -/
  | tlbp (at_ : At) (d : BitVec 4) (v : BitVec 3)
  /-- TLBSYNC (R210): Discard first-level copies and order far accesses. -/
  | tlbsync (at_ : At)
  /-- TLBIA (R305): Invalidate all L2 entries. -/
  | tlbia (at_ : At)
  /-- TLBIV (R305): Invalidate entries matching a VA. -/
  | tlbiv (at_ : At) (v : BitVec 3)
  /-- TLBIT (R305): Invalidate non-global entries of an ASID. -/
  | tlbit (at_ : At) (d : BitVec 4)
  /-- TWK (R299): One directory-level table walk. -/
  | twk (at_ : At) (v : BitVec 3)
  /-- WCINV (R302): Empty the walk cache. -/
  | wcinv (at_ : At)
  /-- PMW (R211): Write a program-memory bundle. -/
  | pmw (at_ : At) (n : BitVec 3) (d : BitVec 4)
  /-- IFENCE (R163): Discard fetched bundles and refetch after pending PMWs. -/
  | ifence (at_ : At)
  /-- FEND (R71): End the folio and request its commit. -/
  | fend (at_ : At)
  /-- SYSC (R212): System call trap. -/
  | sysc (at_ : At) (imm : BitVec 12)
  /-- BKPT (R212): Breakpoint trap. -/
  | bkpt (at_ : At) (imm : BitVec 12)
  -- Engine: vector
  /-- VSETL (R216): Set the vector length from a register. -/
  | vsetl (at_ : At) (d : BitVec 4) (a : BitVec 4)
  /-- VSETLI (R216): Set the vector length from an immediate. -/
  | vsetli (at_ : At) (d : BitVec 4) (imm : BitVec 8)
  /-- VLD (R228): Unit-stride vector load. -/
  | vld (at_ : At) (vd : BitVec 4) (n : BitVec 3) (mode : BitVec 3)
  /-- VST (R228): Unit-stride vector store. -/
  | vst (at_ : At) (vd : BitVec 4) (n : BitVec 3) (mode : BitVec 3)
  /-- VLDS (R228): Strided vector load. -/
  | vlds (at_ : At) (vd : BitVec 4) (n : BitVec 3) (m : BitVec 3) (u : BitVec 2)
  /-- VSTS (R228): Strided vector store. -/
  | vsts (at_ : At) (vd : BitVec 4) (n : BitVec 3) (m : BitVec 3) (u : BitVec 2)
  /-- VLD2 (R228): Two-field interleaved vector load. -/
  | vld2 (at_ : At) (vd : BitVec 4) (n : BitVec 3) (mode : BitVec 3)
  /-- VLD3 (R228): Three-field interleaved vector load. -/
  | vld3 (at_ : At) (vd : BitVec 4) (n : BitVec 3) (mode : BitVec 3)
  /-- VLD4 (R228): Four-field interleaved vector load. -/
  | vld4 (at_ : At) (vd : BitVec 4) (n : BitVec 3) (mode : BitVec 3)
  /-- VST2 (R228): Two-field interleaved vector store. -/
  | vst2 (at_ : At) (vd : BitVec 4) (n : BitVec 3) (mode : BitVec 3)
  /-- VST3 (R228): Three-field interleaved vector store. -/
  | vst3 (at_ : At) (vd : BitVec 4) (n : BitVec 3) (mode : BitVec 3)
  /-- VST4 (R228): Four-field interleaved vector store. -/
  | vst4 (at_ : At) (vd : BitVec 4) (n : BitVec 3) (mode : BitVec 3)
  /-- VGTH (R228): Local vector gather. -/
  | vgth (at_ : At) (vd : BitVec 4) (n : BitVec 3) (vb : BitVec 4)
  /-- VSCT (R228): Local vector scatter. -/
  | vsct (at_ : At) (vd : BitVec 4) (n : BitVec 3) (vb : BitVec 4)
  /-- VGTH_F (R231): Far vector gather with fault-first. -/
  | vgthF (at_ : At) (vd : BitVec 4) (v : BitVec 3) (vb : BitVec 3) (tag : BitVec 2)
  /-- VSCT_F (R235): Far vector scatter with fault-first. -/
  | vsctF (at_ : At) (vd : BitVec 4) (v : BitVec 3) (vb : BitVec 3) (tag : BitVec 2)
  /-- VPF (R236): Ask the quire fetch unit to read ahead. -/
  | vpf (at_ : At) (v : BitVec 3) (dl : BitVec 3)
  /-- VADD (R226): Vector add. -/
  | vadd (at_ : At) (vd : BitVec 4) (va : BitVec 4) (vb : BitVec 4)
  /-- VSUB (R226): Vector subtract. -/
  | vsub (at_ : At) (vd : BitVec 4) (va : BitVec 4) (vb : BitVec 4)
  /-- VADDS (R226): Saturating vector add. -/
  | vadds (at_ : At) (vd : BitVec 4) (va : BitVec 4) (vb : BitVec 4)
  /-- VSUBS (R226): Saturating vector subtract. -/
  | vsubs (at_ : At) (vd : BitVec 4) (va : BitVec 4) (vb : BitVec 4)
  /-- VAND (R226): Vector AND. -/
  | vand (at_ : At) (vd : BitVec 4) (va : BitVec 4) (vb : BitVec 4)
  /-- VOR (R226): Vector OR. -/
  | vor (at_ : At) (vd : BitVec 4) (va : BitVec 4) (vb : BitVec 4)
  /-- VXOR (R226): Vector XOR. -/
  | vxor (at_ : At) (vd : BitVec 4) (va : BitVec 4) (vb : BitVec 4)
  /-- VMIN (R226): Vector minimum. -/
  | vmin (at_ : At) (vd : BitVec 4) (va : BitVec 4) (vb : BitVec 4)
  /-- VMAX (R226): Vector maximum. -/
  | vmax (at_ : At) (vd : BitVec 4) (va : BitVec 4) (vb : BitVec 4)
  /-- VUN (R226): Vector unary operation selected by sub. -/
  | vun (at_ : At) (vd : BitVec 4) (va : BitVec 4) (sub : BitVec 4)
  /-- VSHI (R226): Vector shift by immediate. -/
  | vshi (at_ : At) (vd : BitVec 4) (kind : BitVec 2) (amt : BitVec 5)
  /-- VSHV (R226): Vector shift by per-lane amount. -/
  | vshv (at_ : At) (vd : BitVec 4) (va : BitVec 4) (vb : BitVec 4)
  /-- VBCST (R226): Broadcast a D register to lanes. -/
  | vbcst (at_ : At) (vd : BitVec 4) (a : BitVec 4)
  /-- VEXT (R226): Extract a lane. -/
  | vext (at_ : At) (d : BitVec 4) (va : BitVec 4) (b : BitVec 4)
  /-- VINS (R226): Insert into a lane. -/
  | vins (at_ : At) (vd : BitVec 4) (a : BitVec 4) (b : BitVec 4)
  /-- VSLD (R226): Slide lanes down with insertion. -/
  | vsld (at_ : At) (vd : BitVec 4) (va : BitVec 4) (b : BitVec 4)
  /-- VMAXI (R226): Per-lane running maximum with index. -/
  | vmaxi (at_ : At) (vd : BitVec 4) (va : BitVec 4) (b : BitVec 4)
  /-- VMINI (R226): Per-lane running minimum with index. -/
  | vmini (at_ : At) (vd : BitVec 4) (va : BitVec 4) (b : BitVec 4)
  /-- VRMAXI (R226): Reduce to the largest lane and its index. -/
  | vrmaxi (at_ : At) (d : BitVec 4) (va : BitVec 4)
  /-- VRMINI (R226): Reduce to the smallest lane and its index. -/
  | vrmini (at_ : At) (d : BitVec 4) (va : BitVec 4)
  /-- VBEXP (R227): Fold lane exponents into BXS. -/
  | vbexp (at_ : At) (va : BitVec 4)
  /-- VNORM (R226): Normalise lanes by BXS. -/
  | vnorm (at_ : At) (vd : BitVec 4) (va : BitVec 4)
  /-- VMPY (R226): Vector multiply into VA. -/
  | vmpy (at_ : At) (vad : BitVec 2) (va : BitVec 4) (vb : BitVec 4)
  /-- VMAC (R226): Vector multiply-accumulate. -/
  | vmac (at_ : At) (vad : BitVec 2) (va : BitVec 4) (vb : BitVec 4)
  /-- VMSU (R226): Vector multiply-subtract. -/
  | vmsu (at_ : At) (vad : BitVec 2) (va : BitVec 4) (vb : BitVec 4)
  /-- VMPYF (R226): Vector fractional multiply. -/
  | vmpyf (at_ : At) (vad : BitVec 2) (va : BitVec 4) (vb : BitVec 4)
  /-- VMACF (R226): Vector fractional multiply-accumulate. -/
  | vmacf (at_ : At) (vad : BitVec 2) (va : BitVec 4) (vb : BitVec 4)
  /-- VMSUF (R226): Vector fractional multiply-subtract. -/
  | vmsuf (at_ : At) (vad : BitVec 2) (va : BitVec 4) (vb : BitVec 4)
  /-- VMPYFS (R226): Vector fractional multiply by a scalar. -/
  | vmpyfs (at_ : At) (vad : BitVec 2) (va : BitVec 4) (b : BitVec 4)
  /-- VMACFS (R226): Vector fractional multiply-accumulate by a scalar. -/
  | vmacfs (at_ : At) (vad : BitVec 2) (va : BitVec 4) (b : BitVec 4)
  /-- VMSUFS (R226): Vector fractional multiply-subtract by a scalar. -/
  | vmsufs (at_ : At) (vad : BitVec 2) (va : BitVec 4) (b : BitVec 4)
  /-- VCLRA (R226): Clear a VA register. -/
  | vclra (at_ : At) (vad : BitVec 2)
  /-- VADDA (R226): Add VA registers. -/
  | vadda (at_ : At) (vad : BitVec 2) (vas : BitVec 2)
  /-- VSHA (R226): Shift VA lanes. -/
  | vsha (at_ : At) (vad : BitVec 2) (vas : BitVec 2) (imm : BitVec 6)
  /-- VRADD (R226): Reduce VA lanes into lane 0. -/
  | vradd (at_ : At) (vad : BitVec 2) (vas : BitVec 2)
  /-- VMVA (R226): Move a part of VA lanes to a V register. -/
  | vmva (at_ : At) (vd : BitVec 4) (vas : BitVec 2) (part : BitVec 2)
  /-- VMVDA (R226): Move V lanes into the VA high parts. -/
  | vmvda (at_ : At) (vad : BitVec 2) (va : BitVec 4)
  -- Later rows
  /-- RESERVED_OPCODE (R213): An issued bundle holding a reserved opcode, reserved form or reserved bundle form traps with cause RESOP and hands its syllables to the handler in D8 to D15. -/
  | reservedOpcode (at_ : At) (syls : List W18)
  /-- HOST_LINK_UP (R423): A host port's PCIe link trains to L0 after PERSTk_N or RESET_N release, and HPT_STAT shows LINKUP, speed and width. -/
  | hostLinkUp (port : PortNo) (speed : BitVec 3) (width : BitVec 3)
  /-- PLAYBACK_READ_COMPLETE (R455): The DMA read of a playback frame group completes and its blocks land in LOANED blocks, are converted and charged to the collar. -/
  | playbackReadComplete (port : PortNo) (ring : Fin 64) (group : List (List W32))
  /-- RAIL_RETURN (R600): A rail that had left its operating range returns into it and its DIE_MON.RAILOK bit becomes 1 again. -/
  | railReturn (die : DieNo) (rail : Rail)
  /-- TAP_RESET (R610): TRST_N low, or TMS high for five TCK cycles, resets the test access port and selects IDCODE. -/
  | tapReset
  /-- TICK_IN_EDGE (R62): A rising edge of TICK_IN arrives as the phase reference, and the part steps the tick phase at once in BOOT or records a phase error to steer away. -/
  | tickInEdge (phase : Int)
  deriving DecidableEq, Repr

end Sys2Proof
end

