-- ==== Sys2Proof/Decode.lean ====
section
/-! DEFINITION. The decoder over the rows of the command table that give bits. No row gives any. -/

namespace Sys2Proof

/-- The command that a word spells by the table's bits: no row of the table gives bits, so no word spells one. -/
def decodeTableWord (_nbits _w : Nat) : Option Instr := none

end Sys2Proof
end

