-- ==== Sys2Proof/Config.lean ====
section
/-! DEFINITION. What the manual leaves open: the free values, as constants with no body, and the standard
algorithms that the manual names and other documents define (log entries 1 and 5). -/

namespace Sys2Proof

/-- The free value number `n` (R8: some value of the stated width; nothing constrains it). A step that needs
one applies it to the counter `State.fresh` and advances the counter. Log entry 1. -/
opaque Config.freeValue : Nat → BitVec 64

/-- SHA-256 (R564), an algorithm given outside the manual. Log entry 5. -/
opaque Config.sha256 : List Byte → BitVec 256

/-- ECDSA P-256 verification: public key, signature, digest (R564 check 3). Log entry 5. -/
opaque Config.ecdsaVerify : List Byte → List Byte → BitVec 256 → Bool

/-- AES key unwrap of RFC 3394 under the part's fuse key-encryption key; `none` when the integrity check
fails (R583, R584). Log entry 5. -/
opaque Config.keyUnwrap : List Byte → Option (List Byte)

/-- HMAC-SHA-256 of a message under a key (R496). Log entry 5. -/
opaque Config.hmacSha256 : List Byte → List Byte → BitVec 256

/-- The fresh 32-byte random nonce number `n` of a CHALLENGE (R496). Log entry 5. -/
opaque Config.nonce : Nat → BitVec 256

/-- Whether the product of a sample and a cross-point gain of Early Service that is no integer is rounded up (R572), which the spec does not state.
Log entry 156. -/
opaque Config.earlyUp : BitVec 8 → Int → Bool

/-- The rate conversion of Early Service (R569), whose filters the spec does not give: sample `j` of a frame at 24 kHz from the samples of the input, `ratio` of
them to one, up to the end of the frame; and at the media rate from those of the output. Log entry 156. -/
opaque Config.decimate : (ratio : Nat) → List Int → (j : Nat) → BitVec 18

opaque Config.interpolate : (ratio : Nat) → List (BitVec 18) → (j : Nat) → BitVec 18

/-- A frame under MACsec (R481, R482; IEEE 802.1AE, GCM-AES-256 and GCM-AES-XPN-256), an algorithm given outside the manual: from XPN, the AN, the SCI,
the PN, the key, the salt and the frame without FCS, the protected frame without FCS. Log entry 5. -/
opaque Config.macsec : Bool → Nat → BitVec 64 → Nat → List Byte → List Byte → List Byte → List Byte

/-- A PTP message as an Ethernet frame without FCS (R479; IEEE 1588-2019, IEEE 802.1AS): from PROF, the message type and the fields domain, source
identity, sequence number, time and requesting identity. Log entry 5. -/
opaque Config.ptpFrame : Nat → Nat → List Int → List Byte

/-- The clockIdentity and portNumber that PTP port n of the part names as its own (R479), which the manual does not give. Log entry 5. -/
opaque Config.portIdentity : Nat → BitVec 80

/-- The place in the queue and flow memory, as array and row, that holds the head and tail of a queue of a die (R339): the layout is not given.
Log entry 181. -/
opaque Config.queueHead : Nat → Nat × Nat

/-- The places that hold the links of a queue of a die (R339). Log entry 181. -/
opaque Config.queueLinks : Nat → List (Nat × Nat)

/-- All places in the queue and flow memory that an access to a queue reads (R339). -/
def Config.queueRows (q : Nat) : List (Nat × Nat) := Config.queueHead q :: Config.queueLinks q

end Sys2Proof
end

