-- ==== Sys2Proof/Machine/Arith.lean ====
section
/-! DEFINITION. The functions of R175, the products of R192, the shifts of R193, BCD of R197, and the check bits of R251
and R254. -/

namespace Sys2Proof.Machine

/-- zext into an integer: the word as an unsigned value. -/
def uns {w : Nat} (x : BitVec w) : Int := (x.toNat : Int)

/-- wrap18 (R175). -/
def wrap18 (x : Int) : W18 := BitVec.ofInt 18 x
/-- wrap36 (R175). -/
def wrap36 (x : Int) : W36 := BitVec.ofInt 36 x
/-- wrap54 (R175). -/
def wrap54 (x : Int) : W54 := BitVec.ofInt 54 x

/-- `x` clamped to lo … hi. -/
def clamp (lo hi x : Int) : Int := if x < lo then lo else if hi < x then hi else x

/-- sat18 (R175). -/
def sat18 (x : Int) : Int := clamp (-131072) 131071 x
/-- sat36 (R175). -/
def sat36 (x : Int) : Int := clamp (-34359738368) 34359738367 x

/-- Whether an accumulator result is outside −2^53 … 2^53 − 1, and so is wrapped and sets SV (R192). -/
def over54 (x : Int) : Bool := decide (x < -9007199254740992) || decide (9007199254740991 < x)

/-- Count of equal bits below the sign, from bit `i` downward (R175). -/
def clsFrom (x : W18) (sign : Bool) : Nat → Nat
  | 0 => 0
  | i + 1 => if x.getLsbD i = sign then clsFrom x sign i + 1 else 0

/-- cls (R175): 17 for 0 and for all ones. -/
def cls (x : W18) : Nat := clsFrom x (x.getLsbD 17) 17

/-- fmul (R192): the doubled product, 2^35 − 1 for the one product that does not fit. -/
def fmul (a b : W18) : Int :=
  if a = 0x20000#18 ∧ b = 0x20000#18 then 34359738367 else a.toInt * b.toInt * 2

/-- Whether fmul sets SAT (R192). -/
def fmulSat (a b : W18) : Bool := decide (a = 0x20000#18 ∧ b = 0x20000#18)

/-- Division truncated toward zero (R198). -/
def quot (a b : Int) : Int := a.tdiv b

/-- ⌊x / 2^k⌋. -/
def ashr (x : Int) (k : Nat) : Int := x.fdiv (2 ^ k : Nat)

/-- rev16 (R175): the low 16 bits in reverse order. -/
def rev16 (x : BitVec 16) : BitVec 16 := x.reverse

/-- The shifts of SHI (R193): 0 ASR, 1 LSR, 2 SHL, 3 ROL, by 0 to 31. -/
def shift18 (kind : Nat) (x : W18) (n : Nat) : W18 :=
  match kind with
  | 0 => x.sshiftRight n
  | 1 => x >>> n
  | 2 => x <<< n
  | _ => x.rotateLeft (n % 18)

/-- The carry of a shift (R193): the last bit shifted out, 0 for an amount of 0. A rotation by 18 places, which leaves the word as it is, shifts out
its bit 0 last (DESIGN CHOICE, log entry 172). -/
def shiftC (kind : Nat) (x : W18) (n : Nat) : Bool :=
  if n = 0 then false
  else match kind with
    | 0 => if n ≤ 18 then x.getLsbD (n - 1) else x.getLsbD 17
    | 1 => x.getLsbD (n - 1)
    | 2 => if n ≤ 18 then x.getLsbD (18 - n) else false
    | _ => (x.rotateLeft (n % 18)).getLsbD 0

/-- Whether SHL sets V (R193): the result differs from Da × 2^amount. -/
def shlV (x : W18) (n : Nat) : Bool := decide ((x <<< n).toInt ≠ x.toInt * (2 ^ n : Nat))

/-- BCD digit `i` of a word. -/
def digit (x : W18) (i : Nat) : Nat := (x.toNat >>> (4 * i)) % 16

/-- Whether a word is a legal decimal operand (R197). -/
def isBcd (x : W18) : Bool :=
  decide (x.toNat < 0x10000) && decide (digit x 0 ≤ 9) && decide (digit x 1 ≤ 9) && decide (digit x 2 ≤ 9) && decide (digit x 3 ≤ 9)

/-- bcd (R175). -/
def bcd (x : W18) : Nat := digit x 0 + 10 * digit x 1 + 100 * digit x 2 + 1000 * digit x 3

/-- tobcd (R175). -/
def toBcd (s : Nat) : W18 :=
  BitVec.ofNat 18 (s % 10 + 16 * (s / 10 % 10) + 256 * (s / 100 % 10) + 4096 * (s / 1000 % 10))

/-- The exclusive or of bits j, j + step, j + 2 × step … of `x`, `n` of them. -/
def parityOf {w : Nat} (x : BitVec w) (j step : Nat) : Nat → Bool
  | 0 => false
  | n + 1 => xor (x.getLsbD (j + step * n)) (parityOf x j step n)

/-- The three signature bits of a word (R254, R366): bit i in check i mod 3. -/
def sig3 {w : Nat} (x : BitVec w) (n : Nat) : BitVec 3 :=
  BitVec.ofNat 3 ((if parityOf x 0 3 n then 1 else 0) + (if parityOf x 1 3 n then 2 else 0) + (if parityOf x 2 3 n then 4 else 0))

/-- A word with its signature bits (R254). -/
def enc18 (x : W18) : Stored := sig3 x 6 ++ x

/-- The data bits of a stored word. -/
def data18 (x : Stored) : W18 := x.setWidth 18

/-- Whether a stored word passes its check (R367). -/
def ok18 (x : Stored) : Bool := decide (enc18 (data18 x) = x)

/-- The signature checks that a stored word fails. -/
def fails18 (x : Stored) : List Nat :=
  (List.range 3).filter (fun j => (enc18 (data18 x)).getLsbD (18 + j) != x.getLsbD (18 + j))

/-- A word with all three of its signature bits inverted (R279, R619). -/
def bad18 (x : W18) : Stored := (~~~ sig3 x 6) ++ x

/-- The eight check bits of a bundle (R251): bit i in check i mod 8. -/
def chk8 (x : BitVec 144) : BitVec 8 :=
  (List.range 8).foldl (fun a j => if parityOf x j 8 18 then a ||| BitVec.twoPow 8 j else a) 0

/-- A bundle with its check bits (R251). -/
def encBundle (x : BitVec 144) : BitVec 152 := chk8 x ++ x

/-- The 144 bits of a stored bundle. -/
def dataBundle (x : BitVec 152) : BitVec 144 := x.setWidth 144

/-- Whether a stored bundle passes its check. -/
def okBundle (x : BitVec 152) : Bool := decide (encBundle (dataBundle x) = x)

/-- The checks that a stored bundle fails. -/
def failsBundle (x : BitVec 152) : List Nat :=
  (List.range 8).filter (fun j => (encBundle (dataBundle x)).getLsbD (144 + j) != x.getLsbD (144 + j))

/-- Syllable Sn of a bundle (R100). -/
def syllable (x : BitVec 144) (n : Nat) : W18 := (x >>> (18 * n)).setWidth 18

/-- A bundle of eight syllables, S0 first (R100). -/
def mkBundle (l : List W18) : BitVec 144 :=
  BitVec.ofNat 144 (l.foldr (fun x a => x.toNat + 262144 * a) 0)

/-- A group of 16 shared bits with its signature bits (R274): bit i in check i mod 3. -/
def enc16 (x : BitVec 16) : BitVec 19 := sig3 (x.setWidth 18) 6 ++ x

/-- Whether one copy of a shared-bit group passes its check. -/
def ok16 (x : BitVec 19) : Bool := decide (enc16 (x.setWidth 16) = x)

end Sys2Proof.Machine
end

