-- ==== Sys2Proof/Machine/PortState.lean ====
section
/-! DEFINITION. The state of host ports, link, Finolrus and TDM ports, timers, panels, test runs, boot and test access port
outside the register map (R413 to R611). -/

namespace Sys2Proof.Machine

/-- An event as it arose (R450): code, die, class, frame and payload. -/
structure Event where
  code : Nat
  die : Nat
  cls : Nat
  fn : Nat
  ps : List Nat
  deriving DecidableEq, Repr

/-! ### Host ports (R423 to R463) -/

/-- One ring of a host port beside HPT_RCFG and HPT_RSTAT (R429 to R451). -/
structure Ring where
  /-- The last GEN accepted (R431, R434). -/
  gen : W32 := 0
  /-- The PHASE that the part writes on this pass (R443). -/
  phase : Bool := true
  /-- Entries of a completion ring that commands taken have reserved (R440). -/
  reserved : Nat := 0
  /-- Events lost since the last EVLOST (R451). -/
  lost : Nat := 0
  /-- DEV at the previous status page (R438). -/
  lastDev : Nat := 0
  /-- The underrun has been reported (R456). -/
  under : Bool := false
  /-- A write of EN := 0 waits for the tick (R432). -/
  closing : Bool := false
  /-- The next entry of a slow-path transmit ring waits to be sent in a train (R484). -/
  sending : Bool := false
  deriving DecidableEq, Repr

/-- A command that a port has taken (R440): its port, ring, entry and completion ring; `quiet` once the port was reset (R427). -/
structure Taken where
  port : Nat
  ring : Nat
  idx : Nat
  cq : Nat
  quiet : Bool
  deriving DecidableEq, Repr

/-- A frame group being read from a playback ring (R455): its flow and number of entries. -/
structure Group where
  ring : Nat
  flow : Nat
  n : Nat
  deriving DecidableEq, Repr

/-- An MSI-X table entry (R424). -/
structure MsixEnt where
  addr : BitVec 64
  data : W32
  masked : Bool
  deriving DecidableEq, Repr

/-- What the rules use of a port's PCIe configuration space (R423, R427, R438, R459), in the codes of PCI Express 4.0 and with its reset values (PRESUMED,
log entry 189): Max Payload Size and Max Read Request Size are 128 × 2^code bytes. -/
structure PciCfg where
  maxPayload : Nat := 0
  maxReadRequest : Nat := 2
  timeout : Nat := 0
  ecrcGen : Bool := false
  ecrcCheck : Bool := false
  msixEnable : Bool := false
  msixMask : Bool := false
  deriving DecidableEq, Repr

/-- What a host port writes or requests (R434 to R458, R484). -/
inductive Sent where
  /-- A completion entry (R443): ring, entry, TAG, STATUS, FLAGS, command ring, RESULT, FN. -/
  | completion (ring idx : Nat) (tag : W32) (status flags cmdRing result fn : Nat)
  /-- An event entry (R450). -/
  | event (ring idx : Nat) (phase : Bool) (ev : Event)
  /-- A record stream entry of 128 containers (R457). -/
  | record (ring idx : Nat) (containers : List W32)
  /-- A filled slow-path receive entry, with its receive timestamp where it is valid (R458, R483). -/
  | slowRx (ring idx len port : Nat) (phase trunc : Bool) (ts : Option (BitVec 80))
  /-- The write-back of a slow-path transmit entry (R484). -/
  | slowTx (ring idx : Nat) (phase : Bool) (ts : Option (BitVec 80))
  /-- A result buffer (R447). -/
  | result (addr : BitVec 64) (words : List W32)
  /-- The status page (R437): its host address, FN, STATE, AUTH, SGEN, and DEV and HOST of each ring. -/
  | status (addr : BitVec 64) (fn state auth : Nat) (sgen : W32) (rings : List (Nat × Nat))
  /-- An MSI-X message (R438): its vector, address and data. -/
  | msix (vec : Nat) (addr : BitVec 64) (data : W32)
  /-- The DMA read of the doorbell page at its host address (R433, R434). -/
  | doorbellRead (addr : BitVec 64)
  /-- The answer to a host's read (R425): the address read, and the bytes requested. -/
  | readReply (space : HostSpace) (addr : Nat) (bytes : List Byte)
  /-- A write through an aperture window (R33, R459): host address and container (R7). -/
  | aperture (addr : Nat) (data : W32)
  /-- The read of a recovery image: host address and bytes (R568). -/
  | recoveryRead (addr : BitVec 64) (len : Nat)
  /-- A read of containers through an aperture window (R309, R459): host address and number. -/
  | apertureRead (addr n : Nat)
  deriving DecidableEq, Repr

/-- A host port. -/
structure Port where
  rings : Store Ring := []
  /-- Held in reset (R427). -/
  inReset : Bool := false
  sgen : W32 := 0
  heart : W32 := 0
  /-- Ticks since HEART last changed, and whether the lease has lapsed (R462). -/
  heartAge : Nat := 0
  lapsed : Bool := false
  /-- A doorbell read is in progress (R434). Rings enabled that do not yet take part, and those of them that the read in progress leaves out (R431). -/
  reading : Bool := false
  newRings : List Nat := []
  lateRings : List Nat := []
  /-- The frame's playback groups have been taken (R455). -/
  streamsDone : Bool := false
  /-- Commands taken in this frame (R440), and those not yet processed. -/
  cmdTaken : Nat := 0
  taken : List Taken := []
  groups : List Group := []
  /-- Events not yet written (R451). -/
  evq : List Event := []
  cfg : PciCfg := {}
  msix : Store MsixEnt := []
  pba : Store Bool := []
  /-- What the port has written, oldest first. -/
  sent : List Sent := []
  deriving DecidableEq, Repr

/-- A command whose completion waits for a later event (R441). -/
inductive WaitKind where
  /-- The writes of a CFG_WRITE with `n` pairs: the sequence number up to which messages of the port's die must have reached each die (R37, R445). -/
  | writes (p : Nat) (marks : List (Nat × Nat)) (n : Nat)
  | leaf (d : Nat) | flow (d result : Nat) | swap | repair (d : Nat) | scrub (d errs : Nat) | test | key (d : Nat) | audit (d : Nat)
  deriving DecidableEq, Repr

structure Wait where
  tk : Taken
  tag : W32
  irq : Bool
  kind : WaitKind
  deriving DecidableEq, Repr

/-! ### Swaps (R405 to R418) -/

/-- The armed swap: T, rollback, and the expected check value of each die (R407). -/
structure Arm where
  t : Nat
  rb : Bool
  crcs : List W32
  deriving DecidableEq, Repr

/-- The handover of Early Service (R418 to R420): its tick T, and the dies whose Early engines have exchanged. -/
structure Early where
  t : Nat
  /-- MSC at tick T. -/
  msc : Nat
  exchanged : List Nat
  deriving DecidableEq, Repr

/-! ### Link and TDM ports (R466 to R484, R504 to R507) -/

/-- A stream packet sent (R477): the entry that leads its stream, and the fields of its headers in order. -/
structure RtpOut where
  entry : Nat
  dstMac : BitVec 48
  srcMac : BitVec 48
  /-- PCP and VID of the 802.1Q tag. -/
  tag : Option (Nat × Nat)
  dscp : Nat
  ttl : Nat
  df : Bool
  srcIp : W32
  dstIp : W32
  srcPort : Nat
  dstPort : Nat
  udpSum : Nat
  version : Nat
  marker : Bool
  pt : Nat
  seq : Nat
  ts : W32
  ssrc : W32
  /-- The IPv4 identification, which no rule gives. -/
  ident : BitVec 16
  payload : List Byte
  deriving DecidableEq, Repr

/-- A PTP message that the servo sends (R479): its domain, its sender and sequence number, the time that it carries, and for a response the port whose
request it answers. -/
structure PtpOut where
  kind : PtpKind
  domain : Nat
  source : BitVec 80
  seqId : Nat
  time : Int
  reqSource : BitVec 80
  deriving DecidableEq, Repr

/-- What a link port sends beside Finolrus trains: a stream packet (R477), a slow-path frame (R484), a PTP message of the servo (R479). -/
inductive LinkMsg where
  | rtp (p : RtpOut)
  | slow (bytes : List Byte)
  | ptp (m : PtpOut)
  deriving DecidableEq, Repr

/-- The MACsec protection of a sent frame (R481, R482): the SCI, the AN and the PN of its SecTAG. -/
structure SecOut where
  sci : BitVec 64
  an : Nat
  pn : Nat
  deriving DecidableEq, Repr

/-- A frame that a link port has sent, with its bytes on the wire, the FCS last (R474). -/
structure LinkOut where
  msg : LinkMsg
  sec : Option SecOut
  wire : List Byte
  deriving DecidableEq, Repr

/-- The MACsec transmit SA in force (R481, R482): AN, key slot, salt slot. -/
structure TxSa where
  an : Nat
  key : Nat
  salt : Nat
  deriving DecidableEq, Repr

/-- One link port. -/
structure Link where
  /-- Block lock without fault: UP becomes 1 at the next tick (R467). -/
  gained : Bool := false
  stopping : Bool := false
  /-- The master in force (R480): clockIdentity and portNumber. -/
  gm : BitVec 80 := 0
  gmDue : Bool := false
  sa : TxSa := ⟨0, 0, 0⟩
  /-- The next transmit PN, and the lowest acceptable receive PN by 2 × channel + SA (R482). -/
  txPn : Nat := 1
  rxPn : Store Nat := []
  /-- The first index of the next packet of each transmit stream, at 65,536 × address + UDP port (R477). -/
  next : Store Nat := []
  /-- ST 2022-7: (entry, sequence, timestamp, sample index) of packets used (R476). -/
  used : List (Nat × BitVec 16 × W32 × Int) := []
  /-- PTP: the last Sync waiting for its Follow_Up, and the times of the path measurement (R479). -/
  sync : Option (BitVec 16 × Int) := none
  reqTime : Option Int := none
  /-- The sequence number of the last request (R479). -/
  reqSeq : Nat := 0
  delay : Int := 0
  /-- Master to port time of the last Sync, and the receipt and reception times of a Pdelay exchange. -/
  ms : Int := 0
  pdT2 : Int := 0
  pdT4 : Int := 0
  lostMaster : Bool := false
  locked : Bool := false
  sent : List LinkOut := []
  deriving DecidableEq, Repr

/-- One TDM port (R504 to R507). -/
structure Tdm where
  /-- Ticks in a row with an FS edge at position 0, and whether this frame had one (R505). -/
  edges : Nat := 0
  seen : Bool := false
  /-- The FS period of this frame whose slip was counted last (R506). -/
  slipAt : Option Nat := none
  /-- Words driven on DOUT, oldest first, as (slot, word). -/
  sent : List (Nat × W32) := []
  deriving DecidableEq, Repr

/-! ### Finolrus (R485 to R503) -/

/-- The slow-path transmit entry that a host's service message came from (R484): host port, ring, and the transmit timestamp where it was requested. -/
structure SlowTx where
  port : Nat
  ring : Nat
  ts : Option (BitVec 80)
  deriving DecidableEq, Repr

/-- A message of MSVC (R489): the target node, the KIND and the data, and the entry of a host's message. The data of ACCEPT and the FN of CHALLENGE are
those of the cycle that sends it. -/
structure Msvc where
  node : Nat
  kind : Nat
  data : List Byte
  entry : Option SlowTx := none
  deriving DecidableEq, Repr

/-- A slot that the part sends in a train. -/
inductive FinTx where
  | cycle (fn : Nat) (rate fper s tgen : Nat) (table : List (Nat × Nat))
  | mctl (grants : List (Nat × Nat)) (states : List Nat)
  | msvc (m : Option Msvc)
  | carrier (slot node strm sent bseq : Nat) (words : List W18)
  deriving DecidableEq, Repr

/-- A train as it left in one direction: every slot as 308 bytes, header, body and CRC-32C (R488). -/
structure FinTrain where
  dirB : Bool
  slots : List (List Byte)
  deriving DecidableEq, Repr

/-- A Finolrus node as one part sees it beside FIN_NST and FIN_NCRED (R485 to R503). -/
structure FinNode where
  /-- GRANT: replenishments of the node's account (R494). -/
  grant : Nat := 0
  /-- The highest LEASH and SENT accepted, in earlier cycles and in this one (R492). -/
  leash : Option Nat := none
  leashNow : Option Nat := none
  sentHi : Nat := 0
  sentNow : Nat := 0
  /-- The same for the cycle before, whose slots may still return (R487). -/
  leashOld : Option Nat := none
  sentOld : Nat := 0
  /-- MSENT: the SENT of the part's last carrier to the node, and RET (R489, R495). -/
  msent : Nat := 0
  ret : Nat := 0
  /-- Events of this frame (R498): an accepted NCTL, a JOIN with its identity, a RESPONSE and whether it matches, a hostile sign, a
  wait for credit, a collar drop. -/
  nctl : Bool := false
  join : Option (List Byte) := none
  answer : Option Bool := none
  hostile : Nat := 0
  waited : Bool := false
  colDrop : Bool := false
  readmit : Bool := false
  /-- Hops of the NCTL copies that arrived in this cycle. -/
  hopA : Option Nat := none
  hopB : Option Nat := none
  /-- The challenge in progress (R496): identity, nonce, FN and key, and its age in frames. -/
  ident : List Byte := []
  nonce : BitVec 256 := 0
  chalFn : Nat := 0
  key : List Byte := []
  age : Nat := 0
  /-- Consecutive frames with, and without, a wait for credit. -/
  slowRun : Nat := 0
  okRun : Nat := 0
  /-- FIN_NCRC 1,000 frames ago (R498). -/
  crcBase : Nat := 0
  deriving DecidableEq, Repr

/-- The rings of one die. -/
structure FinRing where
  /-- The train of this frame, built at the first of its two starts (R486). -/
  train : Option (List FinTx) := none
  startedA : Bool := false
  startedB : Bool := false
  /-- Slot positions of this cycle for which a copy was kept, and those seen per direction (R491, R553). -/
  kept : List Nat := []
  keptOld : List Nat := []
  seenA : List Nat := []
  seenB : List Nat := []
  tgen : Nat := 0
  /-- DEG was updated for the coming tick (R498). -/
  degDone : Bool := false
  msvc : List Msvc := []
  /-- GRANT of each node as the cycle's MCTL carried it (R492 check 4). -/
  grants : Store Nat := []
  grantsOld : Store Nat := []
  sent : List FinTrain := []
  /-- Test counts of one-sided cycles by 2 × node + direction (R553). -/
  oneSided : Store Nat := []
  deriving DecidableEq, Repr

/-! ### TMU (R512 to R530) -/

structure Tmu where
  acc : Nat := 0
  per : Nat := 0
  cmp : Nat := 0
  ld : Nat := 0
  /-- The compare condition at its last evaluation (R524). -/
  held : Bool := false
  /-- The level of OUTMODE 01b (R528). -/
  tog : Bool := false
  deriving DecidableEq, Repr

/-! ### Panels and triggers (R573 to R582) -/

structure Panel where
  lastErr : Bool := false
  /-- Frames in a row without a KICK, and whether this one has had one (R579). -/
  sinceKick : Nat := 0
  kicked : Bool := false
  /-- Trigger words accepted in this frame (R578). -/
  frame : Nat := 0
  /-- BUSY_N is held low until CS_N rises (R578). -/
  full : Bool := false
  /-- BUSY_N was driven low in the last frame for a conflict (R273). -/
  busy : Bool := false
  /-- Mailbox words that the panel side wrote in the cycle in which the internal side reads them, until that read returns (R272). -/
  hot : List Nat := []
  /-- The transfers of MISO in the last frame (R574, R575). -/
  miso : List (BitVec 24) := []
  deriving DecidableEq, Repr

/-- An accepted trigger: its panel port, its word and FN[17:0] of its capture (R578). -/
structure Trig where
  port : Nat
  word : W18
  fn : W18
  deriving DecidableEq, Repr

/-- A message player of Early Service (R577): its zones and priorities, its position, and whether it loops. -/
structure Player where
  zones : List (Nat × Nat) := []
  pos : Nat := 0
  loop : Bool := false
  deriving DecidableEq, Repr

/-- One output of the matrix of Early Service (R572): the inputs it carries and those it carried before, the samples of the crossfade passed, of 240, and
the 24 kHz samples of the last frame. -/
structure MixOut where
  now : List Nat := []
  was : List Nat := []
  pos : Nat := 240
  sent : List W18 := []
  /-- The flow and the channel of the Output table, the 24 samples before those of the frame, and the frame at the media rate (R569, R571). -/
  flow : Nat := 0
  chan : Nat := 0
  past : List W18 := []
  media : List W18 := []
  deriving DecidableEq, Repr

/-! ### TEST (R546 to R554) -/

/-- The TEST run: mask, last frame, and what its parts found. -/
structure Test where
  mask : Nat
  endFn : Nat
  /-- It has begun at its tick. -/
  started : Bool
  abort : Bool
  /-- Parts completed and parts with a fault so far. -/
  done : Nat
  fault : Nat
  /-- Frames that have run. -/
  age : Nat
  /-- Dies whose first tick in TEST has passed (R554). -/
  begun : List Nat
  /-- A sweep record reported a status that is not OK (R548). -/
  sweepBad : Bool
  deriving DecidableEq, Repr

/-! ### Boot (R559 to R568) -/

/-- What the boot does next. -/
inductive BootStage where
  /-- The part is in OFF. -/
  | off
  /-- The boot-ROM self-tests run (R560). -/
  | selftest
  /-- The header, then the payload, of the flash tried for the n-th time (R564). -/
  | header (n : Nat)
  | payload (n : Nat)
  /-- The state entered at the next tick (R557). -/
  | enter (state : Nat)
  /-- Nothing is read. -/
  | idle
  deriving DecidableEq, Repr

structure Boot where
  stage : BootStage := .selftest
  die : Nat := 0
  /-- Both self-tests failed (R560). -/
  dead : Bool := false
  /-- The header of the image being read. -/
  header : List Byte := []
  deriving DecidableEq, Repr

/-! ### Test access port (R610) -/

inductive TapIr where
  | bypass | idcode | sample | extest | clamp | highz
  deriving DecidableEq, Repr

/-- Who drives the pins. -/
inductive PinCtl where
  | service | boundary | highz
  deriving DecidableEq, Repr

structure Tap where
  ir : TapIr := .idcode
  /-- The selected data register, least significant bit first. -/
  dr : List Bool := []
  pins : PinCtl := .service
  deriving DecidableEq, Repr

end Sys2Proof.Machine
end

