-- ==== Sys2Proof/Machine/DieState.lean ====
section
/-! DEFINITION. The state of one die outside the register map: tick and spine, presence and loss, swap votes, memories'
handovers, the audit, repair and scrubbing. -/

namespace Sys2Proof.Machine

/-- The phases of R57; the commit phase is the effect of the tick itself. -/
inductive Phase where
  | work | guard
  deriving DecidableEq, Repr

/-- The decision of R412: GO, or ABORT with what PKG_SWAP reports. -/
structure Decision where
  go : Bool
  notReady : BitVec 8
  noVote : BitVec 8
  /-- The OUTCOME code (R416, R422). -/
  outcome : Nat
  deriving DecidableEq, Repr

/-- A heel copy held for the next tick (R64). -/
structure Heel where
  fn : BitVec 48
  master : Nat
  decision : Option Decision
  deriving DecidableEq, Repr

/-- An access of a host port to a register of another die, and the answer of a read (R35, R45, R425). -/
inductive HostAcc where
  | write (addr : Nat) (v : W32)
  /-- A read with its byte enables. -/
  | read (addr : Nat) (be : BitVec 8)
  | reply (addr : Nat) (bytes : List Byte)
  deriving DecidableEq, Repr

/-- What a spine message carries. -/
inductive MsgBody where
  /-- Block content for a global queue, with its 128 words, the block it came from and the frame of its commit, counted in ticks since reset (R35, R83, R336). -/
  | block (q : Nat) (h : BitVec 16) (words : List W18) (fn : Nat)
  /-- A placement acknowledgement for the source's block (R337). -/
  | ack (h : BitVec 16)
  /-- A credit message (R330). -/
  | credit
  /-- The presence message of a die (R66). -/
  | presence
  /-- The FAULT message of a die (R389). -/
  | fault
  /-- A swap vote with its failed causes at their places in DIE_SWAP; READY without one (R411). -/
  | vote (causes : BitVec 11)
  /-- The decision message (R412). -/
  | decision (d : Decision) (dir : Dir)
  /-- Trigger words for the other panel die, and the number of the tick at which they are placed (R578). -/
  | trigger (due : Nat) (words : List Trig)
  /-- A spine test message (R552). -/
  | test
  /-- A register-space or far memory access of engine `e` of the source (R35), under the engine's token; `reply` where an answer returns. -/
  | access (e tok : Nat) (reply : Bool)
  /-- The answer to an access of engine `e` of the destination. -/
  | answer (e tok : Nat)
  /-- An access of a host port, or its answer (R35). -/
  | host (p : PortNo) (x : HostAcc)
  /-- The words that a home bank mirrors to the twin on another die, up to 16 (R35, R267). -/
  | mirror
  /-- A register that QUERY reads on another die, or its answer (R35, R447). -/
  | query
  /-- A number whose message was lost with a die that stopped. -/
  | void
  /-- A message to every other die, in one of its two directions, with its number for each of them (R66, R389, R411). -/
  | flood (dir : Dir) (seqs : List (Nat × Nat)) (b : MsgBody)
  deriving DecidableEq, Repr

/-- A message in flight: its source, destination and sequence number (R37). -/
structure Msg where
  src : Nat
  dst : Nat
  seq : Nat
  body : MsgBody
  deriving DecidableEq, Repr

/-- One outbound segment direction of a die (R36 to R41). -/
structure Segment where
  /-- Local messages that wait for the port, oldest first, then through messages and test messages (R38, R552). -/
  queue : List Msg := []
  through : List Msg := []
  tests : List Msg := []
  /-- The message being sent or resent, and whether it is through traffic (R38, R39). -/
  cur : Option (Msg × Bool) := none
  /-- Local traffic has the next turn while both wait (R38). -/
  turn : Bool := false
  /-- Heel copies on the heel lane (R38). -/
  heels : List (Heel × Nat) := []
  /-- Consecutive failed checks at the receiving end (R40). -/
  bad : Nat := 0
  /-- The training succeeded and the direction reads OK from the next tick (R41). -/
  trained : Bool := false
  /-- Spine cycles sent in this frame, resends and training messages among them (R44). -/
  load : Nat := 0
  deriving DecidableEq, Repr

/-- Where the audit finds a block (R360). -/
inductive Holder where
  | queue (g : Nat) | hold (e : Nat) | outbound | loan
  deriving DecidableEq, Repr

/-- The audit of R360. -/
structure Audit where
  running : Bool := false
  /-- Requested for the next tick. -/
  req : Bool := false
  frame : Nat := 0
  /-- The leaks and duplicates are settled (R361). -/
  settled : Bool := false
  /-- Duplicate holders still waiting for a copy (R361). -/
  copies : List (BitVec 16 × Holder) := []
  leaks : Nat := 0
  dups : Nat := 0
  deriving DecidableEq, Repr

/-- A detected error at a stored column, for R277: the array's KIND and UNIT, the row, the column and the frame. -/
structure ColErr where
  kind : Nat
  unit : Nat
  row : Nat
  col : Nat
  frame : Nat
  deriving DecidableEq, Repr

/-- A handover in progress (R259): the old owner. -/
structure Handover where
  old : Nat
  deriving DecidableEq, Repr

/-- A flow command waiting for the queue-commit step (R349). -/
inductive FlowCmd where
  | open_ (fid : Nat) (shadow : Bool) (p : FlowP) (q : QParam)
  | close (fid : Nat) (shadow : Bool)
  | context (fid : Nat) (shadow : Bool) (p : FlowP)
  | queue (q : Nat) (shadow : Bool) (p : QParam)
  deriving DecidableEq, Repr

/-- A leaf creation waiting for the tick (R79). -/
structure LeafCmd where
  leaf : Nat
  val : Leaf
  /-- The contents written to both sides. -/
  words : List W18
  deriving DecidableEq, Repr

/-- TALLY's audit: not asked for, under way, or ended without or with a leak or a duplicate (R554). -/
inductive TallyTest where
  | none | audit | passed | failed
  deriving DecidableEq, Repr

/-- TALLY's audit has ended. -/
def TallyTest.ended (x : TallyTest) : Bool := decide (x = .passed ∨ x = .failed)

structure Die where
  /-- The die has stopped (R389). -/
  stopped : Bool := false
  phase : Phase := .guard
  /-- The media-sample count (R469). -/
  msc : Nat := 0
  /-- Ticks since reset release (R54). -/
  ticks : Nat := 0
  /-- Quarter-milliseconds of the time of day beyond TCK_TOD (R95). -/
  sub : Nat := 0
  /-- Consecutive ticks fired from the own count (R66). -/
  ownTicks : Nat := 0
  heel : Option Heel := none
  /-- Dies heard in this frame (R66, R390). -/
  heard : List Nat := []
  /-- Consecutive commit phases without a presence message, per die (R390). -/
  missed : Store Nat := []
  /-- Dies whose FAULT message arrived in this frame, and those whose message arrived before the last tick (R390). -/
  faults : List Nat := []
  faultDue : List Nat := []
  /-- The votes held, with their failed causes (R411, R414). -/
  votes : List (Nat × BitVec 11) := []
  decision : Option Decision := none
  /-- The tick of the armed swap (R407). -/
  armT : Option Nat := none
  /-- DIE_SWAPCRC holds the value of the armed swap (R409). -/
  crcDone : Bool := false
  /-- Its vote for the armed swap was sent. -/
  voted : Bool := false
  up : Segment := {}
  dn : Segment := {}
  /-- Next sequence number to each die, and the next expected from each (R37). -/
  seqTx : Store Nat := []
  seqRx : Store Nat := []
  /-- Messages that arrived ahead of their turn. -/
  early : List Msg := []
  /-- Tie alternation per destination: true when the next goes DN (R36). -/
  tie : Store Bool := []
  /-- Delivered messages not yet acted on. -/
  inbox : List Msg := []
  /-- Accesses of host ports, and answers to them, that were delivered and act now (R37, R46). -/
  due : List (PortNo × HostAcc) := []
  /-- Accesses of engines of other dies, delivered and not yet performed, oldest first: the die, the engine and its token (R37). -/
  served : List (Nat × Nat × Nat) := []
  retraining : Bool := false
  tally : List Nat := [0, 0, 0, 0, 0, 0]
  /-- The account after which the next replenishment starts (R330). -/
  rot : Nat := 0
  audit : Audit := {}
  /-- Blocks in TRANSIT toward another die, in order, with the frame of their commit, counted in ticks since reset (R83, R336). -/
  outbound : List (BitVec 16 × Nat) := []
  handovers : Store (Option Handover) := []
  /-- Banks waking, true from OFF (R264). -/
  waking : Store (Option Bool) := []
  /-- Banks that were SOLO when their EN was cleared (R269). -/
  wasSolo : List Nat := []
  flowCmds : List FlowCmd := []
  leafCmds : List LeafCmd := []
  /-- FIDs assigned and not yet in effect (R350). -/
  assigned : List Nat := []
  /-- Ticks left for which a closed FID counts as in use (R350). -/
  cooling : Store Nat := []
  /-- Suspects waiting for a spare, and those whose SPARENONE event was raised (R383, R387). -/
  suspects : List Nat := []
  spareNone : List Nat := []
  /-- Ticks that have met each takeover record under way: 1 from its choice to the takeover (R385). -/
  takeAge : Store Nat := []
  colErrs : List ColErr := []
  /-- The soft entry being programmed with its record, and the entries to clear at the next tick (R280). -/
  progEntry : Option (Nat × W32) := none
  progDone : List (Nat × W32) := []
  /-- Rows of the queue and flow memory arrays that show an error, by array (R276, R339). -/
  qbad : List (Nat × Nat) := []
  /-- Places in error that the scrubber's pass has read, and the frames since the last pass ended (R393). -/
  scrubSeen : List ScrubTarget := []
  scrubAge : Nat := 0
  /-- Samples concealed and blocks substituted since the last tick (R452). -/
  concS : Nat := 0
  concB : Nat := 0
  thermArmed : Bool := true
  /-- The rails beyond a trip limit, and those that left their operating range and have not returned (R599, R600). -/
  trips : List Rail := []
  railsOut : List Rail := []
  /-- Key slots: bytes of the key (R583). -/
  keys : Store (List Byte) := []
  /-- Keys that take effect at the next tick (R584): slot, type, key. -/
  keyDue : List (Nat × Nat × List Byte) := []
  links : Store Link := []
  tdms : Store Tdm := []
  ring : FinRing := {}
  /-- Samples of blocks that ports are building (R471), by FID, at 64 × entering index + channel, as w of R320. -/
  ing : Store (Store (Option W32)) := []
  /-- Samples that ports have to send (R472), by FID, at 64 × leaving index + channel, as v × 2^32 of R321. -/
  out : Store (Store Int) := []
  tmus : Store Tmu := []
  panel : Panel := {}
  /-- Accepted triggers, each with the number of the tick, counted since reset, at which it is placed (R578). -/
  trigs : List (Nat × Trig) := []
  /-- The triggers accepted since EARLY began: the last 62, and whether older ones exist (R582). -/
  hist : List Trig := []
  histMore : Bool := false
  /-- The triggers of the block that the Early engines read in this frame, the players and the live inputs active (input, zone,
  priority) (R577). -/
  acts : List Trig := []
  players : Store Player := []
  live : List (Nat × Nat × Nat) := []
  /-- The outputs of the matrix of Early Service (R572). -/
  mix : Store MixOut := []
  /-- The samples of live inputs, as v × 2^32 of R321: those that the frame reads, and the last 96 before them (R569). -/
  inNow : Store (List Int) := []
  inPast : Store (List Int) := []
  /-- The engine in each quire's self-test slot and the frames it has run, and the engines tested (R550). -/
  selfSlot : Store (Option (Nat × Nat)) := []
  selfDone : List Nat := []
  /-- Test messages lost per direction (R552). -/
  lostUp : Nat := 0
  lostDn : Nat := 0
  /-- TALLY on this die (R554). -/
  tallyRun : TallyTest := .none
  /-- TEST's own scrub pass (R549): the places in error that it has read, the errors it has met, and whether it has ended. -/
  testSeen : List ScrubTarget := []
  testErrs : Nat := 0
  testPass : Bool := false
  deriving DecidableEq, Repr

end Sys2Proof.Machine
end

