-- ==== Sys2Proof/Machine/EngState.lean ====
section
/-! DEFINITION. The state of one Izgan engine (R103 to R165, R200, R240, R251, R289, R302, R310) and of the bundle that it
is assembling. Register files are sparse and indexed by physical register: a shadow copy has an index of its own (R103). -/

namespace Sys2Proof.Machine

/-- The causes of R155. -/
inductive Cause where
  | resop | priv | illbun | illseq | loopovf | rptcnt | constwr | fendsup | idleout | pmwact | qaddr
  | itlbmiss | dtlbmiss | xprot | dprot | daddr | walkdev | walkerr | vfault | owner | sysc | bkpt
  deriving DecidableEq, Repr

/-- The code of a cause (R155). -/
def Cause.code : Cause → Nat
  | .resop => 1 | .priv => 2 | .illbun => 3 | .illseq => 4 | .loopovf => 5 | .rptcnt => 6 | .constwr => 7
  | .fendsup => 8 | .idleout => 9 | .pmwact => 10 | .qaddr => 11 | .itlbmiss => 12 | .dtlbmiss => 13
  | .xprot => 14 | .dprot => 15 | .daddr => 16 | .walkdev => 17 | .walkerr => 18 | .vfault => 19
  | .owner => 20 | .sysc => 21 | .bkpt => 22

/-- A write to one engine register, named by physical index where the register has copies. -/
inductive Wr where
  | d (i : Nat) (v : W18)
  | ac (i : Nat) (v : W54)
  | a (i : Nat) (v : BitVec 16)
  | m (i : Nat) (v : BitVec 16)
  | bs (i : Nat) (v : BitVec 16)
  | ln (i : Nat) (v : BitVec 16)
  | v (i : Nat) (lanes : List (Nat × W18))
  | va (i : Nat) (lanes : List (Nat × W54))
  /-- The flags of `mask`, in the copy `sh`. -/
  | fl (sh : Bool) (mask val : BitVec 7)
  /-- A set of sticky flags, which wins over a write due for the same bundle (R176, R225). -/
  | flSet (sh : Bool) (bits : BitVec 7)
  /-- The bits of `mask` of ST. -/
  | st (mask val : W18)
  | rc (v : W18)
  | scnt (v : BitVec 16)
  | bxs (v : BitVec 5)
  | vl (v : BitVec 7)
  | vfi (v : BitVec 6)
  | dbk (v : BitVec 8)
  | asid (v : BitVec 8)
  | epc (v : BitVec 12)
  | epc2 (v : BitVec 14)
  | ecause (v : W18)
  | evah (v : W18)
  | eval (v : W18)
  | ivec (v : BitVec 12)
  | tvec (v : BitVec 12)
  | imask (v : BitVec 16)
  /-- Loop-stack entry `n` places below the innermost. -/
  | lc (n : Nat) (v : W36)
  /-- A local bit, written by software (R201). -/
  | bit (i : Nat) (v : Bool)
  /-- A local bit set by hardware, which wins over a software write of the same bundle (R201). -/
  | hw (i : Nat)
  deriving DecidableEq, Repr

/-- A result in flight: it lands when `left` more bundles have issued (R111). `chain` marks a result of a
chained operation (R113, R196, R224). -/
structure PendW where
  left : Nat
  wr : Wr
  chain : Bool
  deriving DecidableEq, Repr

/-- A loop-stack entry (R105, R127). -/
structure LoopEnt where
  count : BitVec 12
  stop : BitVec 12
  start : BitVec 12
  deriving DecidableEq, Repr

/-- An L2 TLB entry image in the fields of R292. -/
structure TlbEnt where
  vpn : BitVec 30
  ps : BitVec 6
  ppn : BitVec 30
  space : BitVec 2
  asid : BitVec 8
  g : Bool
  pin : Bool
  se : Bool
  u : Bool
  x : Bool
  w : Bool
  r : Bool
  v : Bool
  /-- Its parity is wrong (R366, R376). -/
  perr : Bool
  deriving DecidableEq, Repr

/-- The invalid entry of a woken engine (R284). -/
def TlbEnt.zero : TlbEnt :=
  ⟨0, 0, 0, 0, 0, false, false, false, false, false, false, false, false, false⟩

/-- A first-level copy with the L2 index it came from (R289). -/
structure TlbCopy where
  idx : Nat
  ent : TlbEnt
  deriving DecidableEq, Repr

/-- A far store buffer entry (R310): words at consecutive PAs. -/
structure SbEnt where
  pa : Nat
  words : List W18
  /-- It holds an error (R366, R368). -/
  bad : Bool
  /-- TLBSYNCs issued before it (R210). -/
  epoch : Nat
  /-- Its number among the engine's stores (R311), and its accesses that cross the spine (R35). -/
  seq : Nat
  toks : List Nat
  /-- The host address of its word in the aperture window in force at its issue (R33, R459); 0 elsewhere. -/
  host : Nat := 0
  deriving DecidableEq, Repr

/-- What a transfer moves (R182, R231). -/
inductive XferKind where
  | fetch | stow | fetchB (h : BitVec 16) | stowB (h : BitVec 16)
  /-- Gathered lanes of V register `vd`: (lane, PA). -/
  | gather (vd : Nat)
  /-- Scattered words. -/
  | scatter
  deriving DecidableEq, Repr

/-- A transfer in progress (R183): `items` are (PA, local address or lane). -/
structure Xfer where
  tag : Nat
  kind : XferKind
  pa : Nat
  loc : BitVec 16
  len : Nat
  /-- For a gather, (lane, PA); for a scatter, (PA, word). -/
  elems : List (Nat × Nat)
  epoch : Nat
  /-- Local words of its range that were stored to while it was in progress (R187). -/
  dirty : List Nat
  /-- Its accesses that cross the spine (R35). -/
  toks : List Nat
  /-- It has moved its words, and its done bit waits for the other transfers of its tag (R183, R187, R234). -/
  moved : Bool := false
  deriving DecidableEq, Repr

/-- The control transfers of R118. -/
inductive JKind where
  | br | call | ret
  /-- RETI with the EPC2 it read (R149). -/
  | reti (epc2 : BitVec 14)
  deriving DecidableEq, Repr

/-- A control transfer whose delay slots are issuing: `left` of them remain; `target` is absent where the
condition was false. -/
structure Branch where
  left : Nat
  target : Option (BitVec 12)
  kind : JKind
  deriving DecidableEq, Repr

/-- A far read in progress (R116, R188). -/
inductive FarKind where
  | word (d : Nat) | double (d : Nat) | walk (d8 d9 d10 d11 : Nat)
  /-- A shared-bit atomic of R208: bit address, the new value if it writes, and whether C receives the old. -/
  | sbit (i : Nat) (set : Option Bool) (flag : Bool)
  deriving DecidableEq, Repr

/-- A far read on its way. -/
structure FarWait where
  kind : FarKind
  pa : Nat
  /-- The copy in use when it issued. -/
  sh : Bool
  /-- A forwarded store's words (R311). -/
  fwd : Option (List W18)
  /-- It waits for the whole store buffer (R313). -/
  waits : Bool
  epoch : Nat
  /-- Stores issued before it, with which it is compared (R311), and its accesses that cross the spine (R35). -/
  upTo : Nat
  toks : List Nat
  /-- D registers that a higher slot of its bundle writes, whose write remains (R114). -/
  beaten : List Nat := []
  /-- The address of its bundle and the control transfer under way there, for the trap of a TWK (R154, R301). -/
  pc : BitVec 12 := 0
  br : Option Branch := none
  /-- The host address of its word in the aperture window in force at its issue (R33, R459); 0 elsewhere. -/
  host : Nat := 0
  deriving DecidableEq, Repr

/-- A PMW waiting to land (R161): the half, the bundle address and the bundle. -/
structure PmwEnt where
  half : Bool
  addr : BitVec 12
  /-- The first source word, a multiple of 8. -/
  src : Nat
  data : BitVec 144
  /-- Bundles issued since its own (R162). -/
  age : Nat := 0
  deriving DecidableEq, Repr

/-- Where a loaded word goes (R180, R228). -/
inductive LdDst where
  | d (i : Nat) | a (i : Nat) | m (i : Nat) | lane (reg lane : Nat)
  deriving DecidableEq, Repr

/-- A vector access, of beat 1 when it waits in `Eng.carry` to be served while the next bundle is in E1 (R229): its word, the value it
stores, or the lane it loads, and what the word held before it. -/
structure Beat where
  addr : Nat
  store : Option W18
  reg : Nat
  lane : Nat
  old : Stored
  deriving DecidableEq, Repr

/-- What a syllable does to more than its engine's registers and local memory, once its bundle passes every check (R154). -/
inductive Act where
  | jump (kind : JKind) (target : Option (BitVec 12))
  /-- A resolved indirect target to enter in the table and history (R121, R124). -/
  | indirect (target : BitVec 12)
  | pushRet (target : BitVec 12)
  | popRet (target : BitVec 12)
  | loop (count stop start : BitVec 12)
  /-- LOOP with count 0: END + 1 issues next (R128). -/
  | skip (next : BitVec 12)
  | rpt (n : Nat)
  /-- The string bundle reissues (R138). -/
  | again
  | strVal (v : Option W18)
  | far (w : FarWait)
  | store (e : SbEnt)
  | xfer (x : Xfer)
  | enq (h : W18) (q : Nat)
  | deq (d : Nat) (q : Nat) (sh : Bool)
  | alloc (d : Nat) (sh : Bool)
  | rel (h : W18)
  | tlbw (i : Nat) (e : TlbEnt) (bad : Bool)
  | bitSet (i : Nat)
  | dropIdx (f : List Nat)
  | tlbsync
  | wcinv
  /-- The other copy of IVEC, TVEC or IMASK is rewritten from the good one (R375). -/
  | healVec (k : Nat)
  | itlbRefill (c : TlbCopy) | dtlbRefill (c : TlbCopy)
  | l2Bad (l : List Nat)
  | pmw (e : PmwEnt)
  | ifence
  | fend
  | stall (cycles : Nat)
  /-- V beats beyond the second (R229). -/
  | beats (n : Nat)
  deriving DecidableEq, Repr

/-- One effect of a syllable, computed from the state before the bundle. -/
inductive Fx where
  /-- A register result of latency `lat` (R111). -/
  | wr (lat : Nat) (w : Wr)
  /-- A result of a chained operation. -/
  | chain (lat : Nat) (w : Wr)
  /-- Local loads through port `port` (0 PMW, 1 L0, 2 L1, 3 V: R241). -/
  | ld (port lat : Nat) (items : List (Nat × LdDst))
  /-- Local stores through port `port`. -/
  | st (port : Nat) (items : List (Nat × W18))
  /-- Local reads whose value an act already took (PMW sources, string reads). -/
  | rd (port : Nat) (addrs : List Nat)
  | bxr
  /-- A fold into BXS of latency `lat` (R196, R227). -/
  | fold (lat n : Nat)
  | act (a : Act)
  deriving DecidableEq, Repr

/-- A trap that a syllable raises (R154, R155): the address it reports, and whether a double access. -/
structure TrapReq where
  cause : Cause
  slot : Nat
  /-- EVAH:EVAL, where the cause reports one. -/
  ev : Option W36
  /-- Only EVAL is written, with EVAH cleared (R184, R212), when false the whole pair is written. -/
  dbl : Bool
  /-- Under VFAULT: the new VFI (R232). -/
  vfi : Option (BitVec 6)
  /-- What stays done: the elements started before a VFAULT (R232), refills, and entries found in error (R290, R376). -/
  acts : List Act
  deriving DecidableEq, Repr

/-- What the legality rules ask about a syllable (R117, R119, R130, R135, R139). -/
inductive SylKind where
  | nop | plain | ctl | loop | rpt | fend | div | str | far | pmw
  deriving DecidableEq, Repr

/-- One issued syllable waiting for its bundle to close. -/
structure Syl where
  slot : Nat
  kind : SylKind
  fx : List Fx
  traps : List TrapReq
  err : Option CheckErr
  deriving DecidableEq, Repr

/-- What the sequencer is running (R68, R80). -/
inductive Run where
  | none
  | folio (entry : Nat) (replay : Bool)
  | idle
  deriving DecidableEq, Repr

/-- The tentative work of a run (R80, R207). -/
structure Work where
  /-- Blocks dequeued and now HELD, with their queues, oldest first. -/
  held : List (BitVec 16 × Nat)
  /-- Blocks allocated. -/
  alloc : List (BitVec 16)
  /-- Blocks enqueued, with their global queues, in issue order. -/
  enq : List (BitVec 16 × Nat)
  rel : List (BitVec 16)
  deriving DecidableEq, Repr

/-- One engine. -/
structure Eng where
  d : Store W18 := []
  ac : Store W54 := []
  a : Store (BitVec 16) := []
  m : Store (BitVec 16) := []
  bs : Store (BitVec 16) := []
  ln : Store (BitVec 16) := []
  /-- V registers: lane i of Vn at 16 × n + i (R215). -/
  v : Store W18 := []
  va : Store W54 := []
  fl : BitVec 7 := 0
  flS : BitVec 7 := 0
  st : W18 := 0
  rc : W18 := 0
  scnt : BitVec 16 := 0
  bxs : BitVec 5 := 0
  vl : BitVec 7 := 0
  vfi : BitVec 6 := 0
  dbk : BitVec 8 := 0
  asid : BitVec 8 := 0
  epc : BitVec 12 := 0
  epc2 : BitVec 14 := 0
  ecause : W18 := 0
  evah : W18 := 0
  eval : W18 := 0
  ivec : BitVec 12 := 0
  tvec : BitVec 12 := 0
  imask : BitVec 16 := 0
  /-- The loop stack, innermost first (R127). -/
  loops : List LoopEnt := []
  pc : BitVec 12 := 0
  /-- Local bits other than 40, 44 (R200). -/
  bits : Store Bool := []
  pw : List PendW := []
  /-- The pending-write file (R148). -/
  pwf : List PendW := []
  bundle : List Syl := []
  /-- A DIV bundle inside its 18-cycle stall, to be completed by the next issue or abandoned (R141, R142). -/
  div : Option (List Syl) := none
  br : Option Branch := none
  /-- A loop to pop when the target issues (R131), for the interrupted code and for a handler. -/
  popU : Bool := false
  popS : Bool := false
  rpt : Option Nat := none
  strV : Option W18 := none
  /-- Far reads for which the engine stalls, oldest first (R116). -/
  far : List FarWait := []
  /-- Far reads that an entry interrupted: their results enter the pending-write file (R150). -/
  farOld : List FarWait := []
  /-- IFENCE waits for the PMWs before it (R163). -/
  fence : Bool := false
  itab : Store (Option (BitVec 12)) := []
  /-- Places of the table whose parity is wrong (R366, R375). -/
  itabBad : List Nat := []
  /-- T1 to T4 (R121). -/
  hist : List (BitVec 12) := [0, 0, 0, 0]
  /-- The return stack, newest first, each with whether its parity is wrong (R122, R366, R375). -/
  rstack : List (BitVec 12 × Bool) := []
  lmem : Store Stored := []
  /-- Bundle i of PHh at 4096 × h + i (R251). -/
  pmem : Store (BitVec 152) := []
  /-- The active half: false PH0. -/
  half : Bool := false
  pmws : List PmwEnt := []
  /-- Bundles that landed PMWs replaced: the place, the old bundle, and how many more bundles still read it (R162). -/
  pmOld : List (Nat × BitVec 152 × Nat) := []
  /-- Vector accesses of beat 1 that meet the next bundle (R229, R230). -/
  carry : List Beat := []
  /-- A bubble follows the delay slots in progress (R123). -/
  gap : Bool := false
  /-- Tags of transfers of length 0 whose done bit is set after the next bundle (R183, R201). -/
  zdone : List Nat := []
  /-- Chained registers written since the last entry to a handler: AC i at i, BXS at 100, lane l of VAi at 200 + 16 × i + l (R113). -/
  hand : List Nat := []
  l2 : Store TlbEnt := []
  itlb : List (Option TlbCopy) := []
  dtlb : List (Option TlbCopy) := []
  /-- Entry address, double and whether the parity is wrong, oldest fill first (R302, R366, R375). -/
  walk : List (Nat × W36 × Bool) := []
  /-- Of IVEC, TVEC and IMASK (0 to 2), those of which one copy is in error (R366, R375). -/
  vecBad : List Nat := []
  sbuf : List SbEnt := []
  /-- Far stores issued so far. -/
  sbN : Nat := 0
  /-- The next token of an access that crosses the spine, and the tokens still out (R35). -/
  tokN : Nat := 0
  toks : List Nat := []
  xfers : List Xfer := []
  run : Run := .none
  epoch : Nat := 0
  /-- FEND was executed and waits (R160). -/
  fend : Bool := false
  work : Work := ⟨[], [], [], []⟩
  /-- The next list entry to start in this frame, and whether the list and idle folio are over. -/
  next : Nat := 0
  listDone : Bool := false
  /-- Frames of the detected errors counted toward suspicion (R382). -/
  errFrames : List Nat := []
  /-- Shared words in error met in this frame, with their FLIST entry (R377). -/
  badWords : List (Nat × Nat) := []
  /-- Constant regions waiting to load (R75, R279, R373). -/
  consts : List Nat := []
  /-- The active map entries of the regions, CMA and CMB, as the engine's last tick met them (R75). -/
  cmap : Store (W32 × W32) := []
  /-- Regions left holding a word whose source is in error (R619). -/
  badRegs : List Nat := []
  /-- The source words in error that the loads of regions met, with the region (R619). -/
  badSrc : List (Nat × Nat) := []
  budgetHit : Bool := false
  /-- The entry to replay (R84). -/
  redo : Option Nat := none
  /-- The kind of the branch whose delay slots an entry interrupted (R131, R149). -/
  brSave : Option JKind := none
  /-- FEND was reached in this frame by these entries (R77). -/
  fended : List Nat := []
  /-- Wake or power-off under way (R249). -/
  waking : Bool := false
  /-- The lines sampled at the last issue, those of a repeat gathered since its RPT, and the lines that a request that arises now is sampled for in that
  cycle (R136, R144). -/
  smp : BitVec 16 := 0
  smpEn : BitVec 16 := 0
  /-- The consecutive cycles in which each bank has been full while a transfer is in progress (R244). -/
  fullRun : Store Nat := []
  deriving DecidableEq, Repr

end Sys2Proof.Machine
end

