-- ==== Sys2Proof/Machine/RegMap.lean ====
section
/-! DEFINITION. The register map (R615, R616 and the register tables of every chapter): the name, block, offset, array
dimensions, fields and reset value of every register. -/

namespace Sys2Proof.Machine

/-- The five field types of R9. -/
inductive FTy where
  | ro | rw | w1c | w1s | rws
  deriving DecidableEq, Repr

/-- Which encodings of a field the manual calls reserved (R14). -/
inductive Resv where
  | none
  | oneOf (l : List Nat)
  | below (n : Nat)
  | above (n : Nat)
  | outside (lo hi : Nat)
  | inside (lo hi : Nat)
  /-- BCD digits up to `max`. -/
  | notBcd (max : Nat)
  /-- TMU_CTL.SRC (R512, R515). -/
  | tmuSrc
  /-- TMU_CTL.MODE (R515). -/
  | tmuMode
  /-- TMU_CTL.CAPSRC (R515). -/
  | tmuCap
  deriving DecidableEq, Repr

/-- A field [hi:lo] of a register. -/
structure FieldDesc where
  hi : Nat
  lo : Nat
  ty : FTy
  resv : Resv
  deriving DecidableEq, Repr

/-- Where a register lies: in the package block, in every die window, or in the windows of FD0 and FD1 only. -/
inductive Blk where
  | pkg | die | fd01
  deriving DecidableEq, Repr

/-- The registers, under the manual's names. -/
inductive RegName where
  | PKG_STATE | PKG_BOOT | PKG_SVN | PKG_SVNMIN | PKG_RECOVLO | PKG_RECOVHI | PKG_RECOVLEN | PKG_SVNUP
  | PKG_SWAP | PKG_SWAPT_LO | PKG_SWAPT_HI | PKG_SWAPN | PKG_SWAPCTL | PKG_XF | PKG_AUTH | PKG_AUTHLEASE
  | PKG_ERR | PKG_ERRCNT | DIE_ID | DIE_EV | DIE_SUSP | DIE_LOST | DIE_ERRCNT | DIE_BADPA_LO | DIE_BADPA_HI
  | DIE_SCRUB | DIE_SCRUBPASS | DIE_TAKE | DIE_RELEASE | DIE_SWAP | DIE_SWAPCRC | DIE_SUPQ | DIE_TEMP | DIE_MON
  | DIE_PMSRC | DIE_STRES | ENG_CTL | ENG_STAT | ENG_TRAP | ENG_TCNT | ENG_WPF | ENG_PMBANK | ENG_MISP
  | ENG_STALL | ENG_LCF | ENG_FSTAT | ENG_FEV | ENG_FCNT | ENG_IDLE | ENG_FLA | ENG_FLB | ENG_CMA | ENG_CMB
  | SHM_STAT | SHM_VIOL | SHM_CTL | SHM_OWN | SHM_PWR | SHM_TWIN | SHM_CCNT | SHM_MBX | KEN_POOL | KEN_STAT
  | KEN_AUD | KEN_AUDRES | KEN_BLOCKS | KEN_TALLY | KEN_FREEMIN | KEN_CTL | KEN_DROP | KEN_BADOP | KEN_LATE
  | KEN_LOAN | KEN_LACT | KEN_CRED | QUE_SEL | QUE_EV | QUE_BPN | QUE_VIEW0 | QUE_VIEW1 | QUE_VIEW2 | QUE_VIEW3
  | FLW_STAT | FLW_EV | FLW_REFUSED | FLW_SEL | FLW_VIEW | TMU_CTL | TMU_PRE | TMU_PERLO | TMU_PERHI
  | TMU_CMPLO | TMU_CMPHI | TMU_LDLO | TMU_LDHI | TMU_CNTLO | TMU_CNTHI | TMU_CAPLO | TMU_CAPHI | TMU_STAT
  | TMU_IRQ | TMU_OSEL | LNK_CTL | LNK_STAT | LNK_EV | LNK_MACLO | LNK_MACHI | LNK_IP | LNK_PCFG | LNK_TSOFS
  | LNK_VLAN | LNK_SPR | LNK_PTPCFG | LNK_PTPGM0 | LNK_PTPGM1 | LNK_PTPGM2 | LNK_PTPOFS | LNK_PTPDLY | LNK_CNT
  | LNK_MSCTL | LNK_MSWIN | LNK_MSPN | LNK_MSRXLO | LNK_MSRXHI | LNK_MSRXCFG | LNK_SA | LNK_SB | LNK_SC
  | FIN_CTL | FIN_CFG | FIN_THR | FIN_STAT | FIN_BRK | FIN_RDLY | FIN_EV | FIN_ADMIT | FIN_IMP | FIN_CNT
  | FIN_NCFG | FIN_NSLOT | FIN_NST | FIN_NCRED | FIN_NCRC | FIN_NLATE | FIN_NTX | TDM_CTL | TDM_STAT | TDM_EV
  | TDM_SLIP | TDM_LATE | TDM_SMAP | SPN_STAT | SPN_CTL | SPN_RESEND_UP | SPN_RESEND_DN | SPN_LOAD_UP
  | SPN_LOAD_DN | REP_STAT | REP_EV | REP_CTL | REP_SOFT | REP_FIELD | HPT_CTL | HPT_STAT | HPT_ERR
  | HPT_DBBASE_LO | HPT_DBBASE_HI | HPT_WBBASE_LO | HPT_WBBASE_HI | HPT_EVLOST | HPT_DBFAIL | HPT_CMDCNT
  | HPT_APERR | HPT_RBLO | HPT_RBHI | HPT_RCFG | HPT_RSTAT | HPT_SMAP | HPT_AWLO | HPT_AWHI | HPT_AWCFG
  | PNL_CTL | PNL_STAT | PNL_EV | PNL_TQ | PNL_CNT | SEC_STAT | SEC_SLOT | TCK_CTL | TCK_FRAME | TCK_STAT
  | TCK_FN_LO | TCK_FN_HI | TCK_TOD | TCK_DATE | TCK_TODSET | TCK_DATESET | TCK_FNSET_LO | TCK_FNSET_HI
  | TCK_SKEW | TCK_PPM
  deriving DecidableEq, Repr

/-- One line of the register map: `off` is the offset in the block (or die window), `dims` the array dimensions as
(count, stride) pairs, the outermost first. -/
structure RegDesc where
  blk : Blk
  off : Nat
  dims : List (Nat × Nat)
  reset : W32
  fields : List FieldDesc
  deriving DecidableEq, Repr

/-- The register tables. In TCK_TODSET a BCD value outside the range of its field counts as a reserved encoding (R14, R617; DESIGN CHOICE, log entry
175). -/
def RegName.desc : RegName → RegDesc
  | .PKG_STATE => ⟨.pkg, 0x00000, [], 0x00000001#32,
      [⟨8, 8, .ro, .none⟩, ⟨2, 0, .ro, .none⟩]⟩
  | .PKG_BOOT => ⟨.pkg, 0x00004, [], 0x0000C000#32,
      [⟨31, 31, .ro, .none⟩, ⟨23, 20, .ro, .none⟩, ⟨19, 16, .ro, .none⟩, ⟨15, 14, .ro, .none⟩, ⟨13, 13, .ro, .none⟩]⟩
  | .PKG_SVN => ⟨.pkg, 0x00008, [], 0x00000000#32,
      [⟨31, 0, .ro, .none⟩]⟩
  | .PKG_SVNMIN => ⟨.pkg, 0x0000C, [], 0x00000000#32,
      [⟨31, 0, .ro, .none⟩]⟩
  | .PKG_RECOVLO => ⟨.pkg, 0x00010, [], 0x00000000#32,
      [⟨31, 0, .rw, .none⟩]⟩
  | .PKG_RECOVHI => ⟨.pkg, 0x00014, [], 0x00000000#32,
      [⟨31, 0, .rw, .none⟩]⟩
  | .PKG_RECOVLEN => ⟨.pkg, 0x00018, [], 0x00000000#32,
      [⟨31, 31, .w1s, .none⟩, ⟨24, 0, .rw, .none⟩]⟩
  | .PKG_SVNUP => ⟨.pkg, 0x00020, [], 0x00000000#32,
      [⟨0, 0, .w1s, .none⟩]⟩
  | .PKG_SWAP => ⟨.pkg, 0x00100, [], 0x00000000#32,
      [⟨31, 24, .ro, .none⟩, ⟨23, 16, .ro, .none⟩, ⟨5, 4, .ro, .none⟩, ⟨3, 3, .ro, .none⟩, ⟨2, 2, .ro, .none⟩, ⟨1, 1, .ro, .none⟩, ⟨0, 0, .ro, .none⟩]⟩
  | .PKG_SWAPT_LO => ⟨.pkg, 0x00104, [], 0x00000000#32,
      [⟨31, 0, .ro, .none⟩]⟩
  | .PKG_SWAPT_HI => ⟨.pkg, 0x00108, [], 0x00000000#32,
      [⟨15, 0, .ro, .none⟩]⟩
  | .PKG_SWAPN => ⟨.pkg, 0x0010C, [], 0x00000000#32,
      [⟨31, 16, .ro, .none⟩, ⟨15, 0, .ro, .none⟩]⟩
  | .PKG_SWAPCTL => ⟨.pkg, 0x00110, [], 0x00000000#32,
      [⟨0, 0, .w1s, .none⟩]⟩
  | .PKG_XF => ⟨.pkg, 0x00114, [], 0x00000208#32,
      [⟨15, 8, .rw, .oneOf [0]⟩, ⟨7, 0, .rw, .oneOf [0]⟩]⟩
  | .PKG_AUTH => ⟨.pkg, 0x00200, [], 0x00000000#32,
      [⟨9, 9, .w1s, .none⟩, ⟨8, 8, .w1s, .none⟩, ⟨5, 4, .ro, .none⟩, ⟨1, 0, .ro, .none⟩]⟩
  | .PKG_AUTHLEASE => ⟨.pkg, 0x00204, [], 0x000003E8#32,
      [⟨15, 0, .rw, .none⟩]⟩
  | .PKG_ERR => ⟨.pkg, 0x00210, [], 0x00000000#32,
      [⟨2, 2, .w1c, .none⟩, ⟨1, 1, .w1c, .none⟩, ⟨0, 0, .w1c, .none⟩]⟩
  | .PKG_ERRCNT => ⟨.pkg, 0x00220, [(3, 0x4)], 0x00000000#32,
      [⟨31, 0, .ro, .none⟩]⟩
  | .DIE_ID => ⟨.die, 0x00000, [], 0x00000000#32,
      [⟨15, 12, .ro, .none⟩, ⟨11, 8, .ro, .none⟩, ⟨2, 0, .ro, .none⟩]⟩
  | .DIE_EV => ⟨.die, 0x00004, [], 0x00000000#32,
      [⟨9, 9, .w1c, .none⟩, ⟨8, 8, .w1c, .none⟩, ⟨7, 7, .w1c, .none⟩, ⟨6, 6, .w1c, .none⟩, ⟨5, 5, .w1c, .none⟩, ⟨4, 4, .w1c, .none⟩, ⟨3, 3, .w1c, .none⟩, ⟨2, 2, .w1c, .none⟩, ⟨1, 1, .w1c, .none⟩]⟩
  | .DIE_SUSP => ⟨.die, 0x00008, [], 0x000303E8#32,
      [⟨19, 16, .rw, .below 2⟩, ⟨15, 0, .rw, .oneOf [0]⟩]⟩
  | .DIE_LOST => ⟨.die, 0x0000C, [], 0x00000000#32,
      [⟨7, 0, .ro, .none⟩]⟩
  | .DIE_ERRCNT => ⟨.die, 0x00010, [(8, 0x4)], 0x00000000#32,
      [⟨31, 0, .ro, .none⟩]⟩
  | .DIE_BADPA_LO => ⟨.die, 0x00030, [], 0x00000000#32,
      [⟨31, 0, .ro, .none⟩]⟩
  | .DIE_BADPA_HI => ⟨.die, 0x00034, [], 0x00000000#32,
      [⟨5, 0, .ro, .none⟩]⟩
  | .DIE_SCRUB => ⟨.die, 0x00038, [], 0x8000EA60#32,
      [⟨31, 31, .rw, .none⟩, ⟨15, 0, .rw, .below 16⟩]⟩
  | .DIE_SCRUBPASS => ⟨.die, 0x0003C, [], 0x00000000#32,
      [⟨31, 0, .ro, .none⟩]⟩
  | .DIE_TAKE => ⟨.die, 0x00040, [(16, 0x4)], 0x00000000#32,
      [⟨31, 31, .ro, .none⟩, ⟨30, 30, .ro, .none⟩, ⟨13, 8, .ro, .none⟩, ⟨5, 0, .ro, .none⟩]⟩
  | .DIE_RELEASE => ⟨.die, 0x00080, [], 0x00000000#32,
      [⟨31, 31, .w1s, .none⟩, ⟨5, 0, .rw, .none⟩]⟩
  | .DIE_SWAP => ⟨.die, 0x00090, [], 0x00000000#32,
      [⟨16, 16, .ro, .none⟩, ⟨10, 10, .ro, .none⟩, ⟨9, 9, .ro, .none⟩, ⟨8, 8, .w1c, .none⟩, ⟨7, 7, .ro, .none⟩, ⟨6, 6, .ro, .none⟩, ⟨5, 5, .ro, .none⟩, ⟨4, 4, .ro, .none⟩, ⟨3, 3, .ro, .none⟩, ⟨2, 2, .ro, .none⟩, ⟨1, 1, .ro, .none⟩, ⟨0, 0, .ro, .none⟩]⟩
  | .DIE_SWAPCRC => ⟨.die, 0x00094, [], 0x00000000#32,
      [⟨31, 0, .ro, .none⟩]⟩
  | .DIE_SUPQ => ⟨.die, 0x00098, [], 0x00000000#32,
      [⟨31, 31, .rws, .none⟩, ⟨30, 30, .rws, .none⟩, ⟨29, 17, .ro, .none⟩, ⟨16, 0, .rws, .none⟩]⟩
  | .DIE_TEMP => ⟨.die, 0x000A0, [], 0x00000000#32,
      [⟨11, 0, .ro, .none⟩]⟩
  | .DIE_MON => ⟨.die, 0x000A4, [], 0x64000000#32,
      [⟨31, 24, .rw, .outside 50 110⟩, ⟨9, 9, .w1c, .none⟩, ⟨8, 8, .w1c, .none⟩, ⟨5, 0, .ro, .none⟩]⟩
  | .DIE_PMSRC => ⟨.die, 0x00100, [(64, 0x4)], 0x00000000#32,
      [⟨31, 31, .rws, .none⟩, ⟨25, 0, .rws, .none⟩]⟩
  | .DIE_STRES => ⟨.die, 0x00200, [(64, 0x4)], 0x00000000#32,
      [⟨31, 31, .rw, .none⟩, ⟨30, 28, .rw, .outside 1 2⟩, ⟨17, 0, .rw, .none⟩]⟩
  | .ENG_CTL => ⟨.die, 0x10000, [(64, 0x100)], 0x00000001#32,
      [⟨8, 8, .w1s, .none⟩, ⟨1, 1, .rw, .none⟩, ⟨0, 0, .rw, .none⟩]⟩
  | .ENG_STAT => ⟨.die, 0x10004, [(64, 0x100)], 0x00000000#32,
      [⟨12, 12, .ro, .none⟩, ⟨11, 11, .ro, .none⟩, ⟨8, 0, .ro, .none⟩]⟩
  | .ENG_TRAP => ⟨.die, 0x10008, [(64, 0x100)], 0x00000000#32,
      [⟨31, 31, .w1c, .none⟩, ⟨30, 30, .w1c, .none⟩, ⟨21, 16, .ro, .none⟩, ⟨11, 0, .ro, .none⟩]⟩
  | .ENG_TCNT => ⟨.die, 0x1000C, [(64, 0x100)], 0x00000000#32,
      [⟨31, 16, .ro, .none⟩, ⟨15, 0, .ro, .none⟩]⟩
  | .ENG_WPF => ⟨.die, 0x10010, [(64, 0x100)], 0x00000000#32,
      [⟨31, 0, .ro, .none⟩]⟩
  | .ENG_PMBANK => ⟨.die, 0x10014, [(64, 0x100)], 0x00000000#32,
      [⟨31, 0, .ro, .none⟩]⟩
  | .ENG_MISP => ⟨.die, 0x10018, [(64, 0x100)], 0x00000000#32,
      [⟨31, 16, .ro, .none⟩, ⟨15, 0, .ro, .none⟩]⟩
  | .ENG_STALL => ⟨.die, 0x1001C, [(64, 0x100)], 0x00000000#32,
      [⟨31, 0, .ro, .none⟩]⟩
  | .ENG_LCF => ⟨.die, 0x10020, [(64, 0x100), (4, 0x4)], 0x00000000#32,
      [⟨31, 0, .ro, .none⟩]⟩
  | .ENG_FSTAT => ⟨.die, 0x10030, [(64, 0x100)], 0x00000000#32,
      [⟨11, 8, .ro, .none⟩, ⟨2, 0, .ro, .none⟩]⟩
  | .ENG_FEV => ⟨.die, 0x10034, [(64, 0x100)], 0x00000000#32,
      [⟨3, 3, .w1c, .none⟩, ⟨2, 2, .w1c, .none⟩, ⟨1, 1, .w1c, .none⟩, ⟨0, 0, .w1c, .none⟩]⟩
  | .ENG_FCNT => ⟨.die, 0x10038, [(64, 0x100)], 0x00000000#32,
      [⟨31, 16, .ro, .none⟩, ⟨15, 0, .ro, .none⟩]⟩
  | .ENG_IDLE => ⟨.die, 0x1003C, [(64, 0x100)], 0x00000000#32,
      [⟨27, 16, .rws, .none⟩, ⟨0, 0, .rws, .none⟩]⟩
  | .ENG_FLA => ⟨.die, 0x10040, [(64, 0x100), (16, 0x8)], 0x00000000#32,
      [⟨31, 31, .rws, .none⟩, ⟨27, 16, .rws, .none⟩, ⟨15, 0, .rws, .none⟩]⟩
  | .ENG_FLB => ⟨.die, 0x10044, [(64, 0x100), (16, 0x8)], 0x00000000#32,
      [⟨23, 16, .rws, .none⟩, ⟨7, 0, .rws, .none⟩]⟩
  | .ENG_CMA => ⟨.die, 0x100C0, [(64, 0x100), (8, 0x8)], 0x00000000#32,
      [⟨31, 16, .rws, .none⟩, ⟨15, 0, .rws, .none⟩]⟩
  | .ENG_CMB => ⟨.die, 0x100C4, [(64, 0x100), (8, 0x8)], 0x00000000#32,
      [⟨25, 0, .rws, .none⟩]⟩
  | .SHM_STAT => ⟨.die, 0x20000, [], 0x00000000#32,
      [⟨7, 7, .w1c, .none⟩, ⟨6, 6, .w1c, .none⟩, ⟨5, 5, .w1c, .none⟩, ⟨4, 4, .w1c, .none⟩, ⟨3, 3, .w1c, .none⟩, ⟨2, 2, .w1c, .none⟩, ⟨1, 1, .w1c, .none⟩]⟩
  | .SHM_VIOL => ⟨.die, 0x20004, [], 0x00000000#32,
      [⟨31, 16, .ro, .none⟩, ⟨15, 12, .ro, .none⟩, ⟨5, 0, .ro, .none⟩]⟩
  | .SHM_CTL => ⟨.die, 0x20008, [], 0x00000000#32,
      [⟨0, 0, .w1s, .none⟩]⟩
  | .SHM_OWN => ⟨.die, 0x20100, [(64, 0x4)], 0x0000000F#32,
      [⟨31, 31, .ro, .none⟩, ⟨3, 0, .rw, .oneOf [12, 13, 14]⟩]⟩
  | .SHM_PWR => ⟨.die, 0x20200, [(64, 0x4)], 0x00000000#32,
      [⟨5, 4, .ro, .none⟩, ⟨1, 0, .rw, .oneOf [3]⟩]⟩
  | .SHM_TWIN => ⟨.die, 0x20300, [(64, 0x4)], 0x00000000#32,
      [⟨31, 31, .rw, .none⟩, ⟨30, 30, .ro, .none⟩, ⟨29, 29, .ro, .none⟩, ⟨28, 28, .ro, .none⟩, ⟨27, 27, .ro, .none⟩, ⟨10, 8, .rw, .none⟩, ⟨5, 0, .rw, .none⟩]⟩
  | .SHM_CCNT => ⟨.die, 0x20400, [(13, 0x4)], 0x00000000#32,
      [⟨31, 0, .ro, .none⟩]⟩
  | .SHM_MBX => ⟨.die, 0x20500, [], 0x00000000#32,
      [⟨8, 8, .rw, .none⟩, ⟨1, 1, .w1c, .none⟩, ⟨0, 0, .w1c, .none⟩]⟩
  | .KEN_POOL => ⟨.die, 0x30000, [], 0x00000000#32,
      [⟨30, 28, .rws, .none⟩, ⟨27, 12, .rws, .none⟩, ⟨9, 4, .rws, .none⟩, ⟨3, 0, .rws, .above 8⟩]⟩
  | .KEN_STAT => ⟨.die, 0x30004, [], 0x00000000#32,
      [⟨7, 7, .w1c, .none⟩, ⟨6, 6, .w1c, .none⟩, ⟨5, 5, .ro, .none⟩, ⟨4, 4, .w1c, .none⟩, ⟨3, 3, .w1c, .none⟩, ⟨2, 2, .w1c, .none⟩, ⟨1, 1, .ro, .none⟩]⟩
  | .KEN_AUD => ⟨.die, 0x30008, [], 0x00000000#32,
      [⟨15, 8, .ro, .none⟩, ⟨0, 0, .w1s, .none⟩]⟩
  | .KEN_AUDRES => ⟨.die, 0x3000C, [], 0x00000000#32,
      [⟨31, 16, .ro, .none⟩, ⟨15, 0, .ro, .none⟩]⟩
  | .KEN_BLOCKS => ⟨.die, 0x30010, [], 0x00000000#32,
      [⟨15, 0, .ro, .none⟩]⟩
  | .KEN_TALLY => ⟨.die, 0x30020, [(6, 0x4)], 0x00000000#32,
      [⟨15, 0, .ro, .none⟩]⟩
  | .KEN_FREEMIN => ⟨.die, 0x30038, [], 0x0000FFFF#32,
      [⟨15, 0, .ro, .none⟩]⟩
  | .KEN_CTL => ⟨.die, 0x3003C, [], 0x00000000#32,
      [⟨0, 0, .w1s, .none⟩]⟩
  | .KEN_DROP => ⟨.die, 0x30040, [(8, 0x4)], 0x00000000#32,
      [⟨31, 0, .ro, .none⟩]⟩
  | .KEN_BADOP => ⟨.die, 0x30060, [], 0x00000000#32,
      [⟨31, 0, .ro, .none⟩]⟩
  | .KEN_LATE => ⟨.die, 0x30064, [], 0x00000000#32,
      [⟨31, 0, .ro, .none⟩]⟩
  | .KEN_LOAN => ⟨.die, 0x30100, [(80, 0x4)], 0x00000000#32,
      [⟨15, 0, .rws, .none⟩]⟩
  | .KEN_LACT => ⟨.die, 0x30300, [(80, 0x4)], 0x00000000#32,
      [⟨15, 0, .ro, .none⟩]⟩
  | .KEN_CRED => ⟨.die, 0x30500, [(8, 0x4)], 0x00000000#32,
      [⟨31, 31, .ro, .none⟩, ⟨15, 0, .ro, .none⟩]⟩
  | .QUE_SEL => ⟨.die, 0x31000, [], 0x00000000#32,
      [⟨16, 0, .rw, .none⟩]⟩
  | .QUE_EV => ⟨.die, 0x31004, [], 0x00000000#32,
      [⟨3, 3, .w1c, .none⟩, ⟨2, 2, .w1c, .none⟩, ⟨1, 1, .w1c, .none⟩, ⟨0, 0, .w1c, .none⟩]⟩
  | .QUE_BPN => ⟨.die, 0x31008, [], 0x00000000#32,
      [⟨16, 0, .ro, .none⟩]⟩
  | .QUE_VIEW0 => ⟨.die, 0x31010, [], 0x00000000#32,
      [⟨31, 31, .ro, .none⟩, ⟨30, 30, .ro, .none⟩, ⟨29, 28, .ro, .none⟩, ⟨12, 0, .ro, .none⟩]⟩
  | .QUE_VIEW1 => ⟨.die, 0x31014, [], 0x00000000#32,
      [⟨31, 16, .ro, .none⟩, ⟨15, 0, .ro, .none⟩]⟩
  | .QUE_VIEW2 => ⟨.die, 0x31018, [], 0x00000000#32,
      [⟨31, 16, .ro, .none⟩, ⟨15, 0, .ro, .none⟩]⟩
  | .QUE_VIEW3 => ⟨.die, 0x3101C, [], 0x00000000#32,
      [⟨15, 0, .ro, .none⟩]⟩
  | .FLW_STAT => ⟨.die, 0x32000, [], 0x00000000#32,
      [⟨12, 0, .ro, .none⟩]⟩
  | .FLW_EV => ⟨.die, 0x32004, [], 0x00000000#32,
      [⟨1, 1, .w1c, .none⟩, ⟨0, 0, .w1c, .none⟩]⟩
  | .FLW_REFUSED => ⟨.die, 0x32008, [], 0x00000000#32,
      [⟨31, 0, .ro, .none⟩]⟩
  | .FLW_SEL => ⟨.die, 0x3200C, [], 0x00000000#32,
      [⟨31, 31, .rw, .none⟩, ⟨12, 0, .rw, .above 5119⟩]⟩
  | .FLW_VIEW => ⟨.die, 0x32010, [(8, 0x4)], 0x00000000#32,
      [⟨31, 0, .ro, .none⟩]⟩
  | .TMU_CTL => ⟨.die, 0x40000, [(16, 0x40)], 0x00000000#32,
      [⟨31, 31, .w1s, .none⟩, ⟨30, 30, .w1s, .none⟩, ⟨29, 29, .rw, .none⟩, ⟨26, 24, .rw, .tmuSrc⟩, ⟨23, 22, .rw, .tmuMode⟩, ⟨21, 20, .rw, .none⟩, ⟨19, 18, .rw, .tmuCap⟩, ⟨17, 16, .rw, .none⟩, ⟨15, 14, .rw, .none⟩, ⟨13, 12, .rw, .none⟩, ⟨11, 11, .rw, .none⟩]⟩
  | .TMU_PRE => ⟨.die, 0x40004, [(16, 0x40)], 0x00010000#32,
      [⟨31, 0, .rw, .below 0x10000⟩]⟩
  | .TMU_PERLO => ⟨.die, 0x40008, [(16, 0x40)], 0x00000000#32,
      [⟨31, 0, .rw, .none⟩]⟩
  | .TMU_PERHI => ⟨.die, 0x4000C, [(16, 0x40)], 0x00000000#32,
      [⟨15, 0, .rw, .none⟩]⟩
  | .TMU_CMPLO => ⟨.die, 0x40010, [(16, 0x40)], 0x00000000#32,
      [⟨31, 0, .rw, .none⟩]⟩
  | .TMU_CMPHI => ⟨.die, 0x40014, [(16, 0x40)], 0x00000000#32,
      [⟨15, 0, .rw, .none⟩]⟩
  | .TMU_LDLO => ⟨.die, 0x40018, [(16, 0x40)], 0x00000000#32,
      [⟨31, 0, .rw, .none⟩]⟩
  | .TMU_LDHI => ⟨.die, 0x4001C, [(16, 0x40)], 0x00000000#32,
      [⟨15, 0, .rw, .none⟩]⟩
  | .TMU_CNTLO => ⟨.die, 0x40020, [(16, 0x40)], 0x00000000#32,
      [⟨31, 0, .ro, .none⟩]⟩
  | .TMU_CNTHI => ⟨.die, 0x40024, [(16, 0x40)], 0x00000000#32,
      [⟨15, 0, .ro, .none⟩]⟩
  | .TMU_CAPLO => ⟨.die, 0x40028, [(16, 0x40)], 0x00000000#32,
      [⟨31, 0, .ro, .none⟩]⟩
  | .TMU_CAPHI => ⟨.die, 0x4002C, [(16, 0x40)], 0x00000000#32,
      [⟨15, 0, .ro, .none⟩]⟩
  | .TMU_STAT => ⟨.die, 0x40030, [(16, 0x40)], 0x00000000#32,
      [⟨6, 6, .ro, .none⟩, ⟨5, 5, .ro, .none⟩, ⟨4, 4, .w1c, .none⟩, ⟨3, 3, .w1c, .none⟩, ⟨2, 2, .w1c, .none⟩, ⟨1, 1, .w1c, .none⟩, ⟨0, 0, .w1c, .none⟩]⟩
  | .TMU_IRQ => ⟨.die, 0x40034, [(16, 0x40)], 0x00000000#32,
      [⟨31, 31, .rw, .none⟩, ⟨20, 16, .rw, .none⟩, ⟨13, 8, .rw, .none⟩, ⟨3, 0, .rw, .none⟩]⟩
  | .TMU_OSEL => ⟨.die, 0x40400, [(4, 0x4)], 0x00000000#32,
      [⟨31, 31, .rw, .none⟩, ⟨3, 0, .rw, .none⟩]⟩
  | .LNK_CTL => ⟨.die, 0x50000, [(2, 0x100)], 0x00000000#32,
      [⟨31, 31, .rw, .none⟩, ⟨28, 28, .rw, .none⟩, ⟨27, 26, .rw, .above 1⟩]⟩
  | .LNK_STAT => ⟨.die, 0x50004, [(2, 0x100)], 0x00000000#32,
      [⟨3, 3, .ro, .none⟩, ⟨2, 2, .ro, .none⟩, ⟨1, 1, .ro, .none⟩, ⟨0, 0, .ro, .none⟩]⟩
  | .LNK_EV => ⟨.die, 0x50008, [(2, 0x100)], 0x00000000#32,
      [⟨6, 6, .w1c, .none⟩, ⟨5, 5, .w1c, .none⟩, ⟨4, 4, .w1c, .none⟩, ⟨3, 3, .w1c, .none⟩, ⟨2, 2, .w1c, .none⟩, ⟨1, 1, .w1c, .none⟩, ⟨0, 0, .w1c, .none⟩]⟩
  | .LNK_MACLO => ⟨.die, 0x5000C, [(2, 0x100)], 0x00000000#32,
      [⟨31, 0, .rw, .none⟩]⟩
  | .LNK_MACHI => ⟨.die, 0x50010, [(2, 0x100)], 0x00000000#32,
      [⟨15, 0, .rw, .none⟩]⟩
  | .LNK_IP => ⟨.die, 0x50014, [(2, 0x100)], 0x00000000#32,
      [⟨31, 0, .rw, .none⟩]⟩
  | .LNK_PCFG => ⟨.die, 0x50018, [(2, 0x100)], 0x8B000030#32,
      [⟨31, 26, .rws, .none⟩, ⟨25, 19, .rws, .none⟩, ⟨11, 0, .rws, .none⟩]⟩
  | .LNK_TSOFS => ⟨.die, 0x5001C, [(2, 0x100)], 0x00000000#32,
      [⟨31, 0, .rws, .none⟩]⟩
  | .LNK_VLAN => ⟨.die, 0x50020, [(2, 0x100), (8, 0x4)], 0x00000000#32,
      [⟨31, 31, .rws, .none⟩, ⟨15, 13, .rws, .none⟩, ⟨11, 0, .rws, .none⟩]⟩
  | .LNK_SPR => ⟨.die, 0x50040, [(2, 0x100)], 0x00000000#32,
      [⟨31, 31, .rw, .none⟩, ⟨8, 8, .rw, .none⟩, ⟨5, 0, .rw, .none⟩]⟩
  | .LNK_PTPCFG => ⟨.die, 0x50044, [(2, 0x100)], 0x000003E8#32,
      [⟨31, 31, .rw, .none⟩, ⟨30, 30, .rw, .none⟩, ⟨23, 16, .rw, .none⟩, ⟨15, 12, .rw, .none⟩, ⟨11, 0, .rw, .oneOf [0]⟩]⟩
  | .LNK_PTPGM0 => ⟨.die, 0x50048, [(2, 0x100)], 0x00000000#32,
      [⟨31, 0, .rw, .none⟩]⟩
  | .LNK_PTPGM1 => ⟨.die, 0x5004C, [(2, 0x100)], 0x00000000#32,
      [⟨31, 0, .rw, .none⟩]⟩
  | .LNK_PTPGM2 => ⟨.die, 0x50050, [(2, 0x100)], 0x00000000#32,
      [⟨15, 0, .rw, .none⟩]⟩
  | .LNK_PTPOFS => ⟨.die, 0x50054, [(2, 0x100)], 0x00000000#32,
      [⟨31, 0, .ro, .none⟩]⟩
  | .LNK_PTPDLY => ⟨.die, 0x50058, [(2, 0x100)], 0x00000000#32,
      [⟨31, 0, .ro, .none⟩]⟩
  | .LNK_CNT => ⟨.die, 0x50080, [(2, 0x100), (8, 0x4)], 0x00000000#32,
      [⟨31, 0, .ro, .none⟩]⟩
  | .LNK_MSCTL => ⟨.die, 0x50200, [(2, 0x100)], 0x00000000#32,
      [⟨31, 31, .rw, .none⟩, ⟨30, 30, .rw, .none⟩, ⟨12, 8, .rw, .none⟩, ⟨7, 6, .rw, .none⟩, ⟨4, 0, .rw, .none⟩]⟩
  | .LNK_MSWIN => ⟨.die, 0x50204, [(2, 0x100)], 0x00000000#32,
      [⟨31, 0, .rw, .none⟩]⟩
  | .LNK_MSPN => ⟨.die, 0x50208, [(2, 0x100)], 0x00000000#32,
      [⟨31, 0, .ro, .none⟩]⟩
  | .LNK_MSRXLO => ⟨.die, 0x50210, [(2, 0x100), (8, 0x10)], 0x00000000#32,
      [⟨31, 0, .rw, .none⟩]⟩
  | .LNK_MSRXHI => ⟨.die, 0x50214, [(2, 0x100), (8, 0x10)], 0x00000000#32,
      [⟨31, 0, .rw, .none⟩]⟩
  | .LNK_MSRXCFG => ⟨.die, 0x50218, [(2, 0x100), (8, 0x10)], 0x00000000#32,
      [⟨31, 31, .rw, .none⟩, ⟨30, 26, .rw, .none⟩, ⟨25, 24, .rw, .none⟩, ⟨20, 16, .rw, .none⟩, ⟨14, 10, .rw, .none⟩, ⟨9, 8, .rw, .none⟩, ⟨4, 0, .rw, .none⟩]⟩
  | .LNK_SA => ⟨.die, 0x52000, [(2, 0x3000), (1024, 0xC)], 0x00000000#32,
      [⟨31, 0, .rws, .none⟩]⟩
  | .LNK_SB => ⟨.die, 0x52004, [(2, 0x3000), (1024, 0xC)], 0x00000000#32,
      [⟨31, 16, .rws, .none⟩, ⟨15, 15, .rws, .none⟩, ⟨14, 14, .rws, .none⟩, ⟨13, 13, .rws, .none⟩, ⟨12, 0, .rws, .none⟩]⟩
  | .LNK_SC => ⟨.die, 0x52008, [(2, 0x3000), (1024, 0xC)], 0x00000000#32,
      [⟨31, 26, .rws, .none⟩, ⟨25, 24, .rws, .oneOf [3]⟩, ⟨23, 22, .rws, .above 1⟩, ⟨19, 17, .rws, .none⟩]⟩
  | .FIN_CTL => ⟨.die, 0x50400, [], 0x00000800#32,
      [⟨31, 31, .rw, .none⟩, ⟨15, 0, .rw, .below 0x600⟩]⟩
  | .FIN_CFG => ⟨.die, 0x50404, [], 0x00000000#32,
      [⟨15, 0, .rws, .inside 1 67⟩]⟩
  | .FIN_THR => ⟨.die, 0x50408, [], 0x34102010#32,
      [⟨31, 28, .rw, .oneOf [0]⟩, ⟨27, 24, .rw, .oneOf [0]⟩, ⟨23, 16, .rw, .oneOf [0]⟩, ⟨15, 12, .rw, .oneOf [0]⟩, ⟨7, 0, .rw, .oneOf [0]⟩]⟩
  | .FIN_STAT => ⟨.die, 0x5040C, [], 0x00000000#32,
      [⟨15, 8, .ro, .none⟩, ⟨3, 3, .ro, .none⟩, ⟨2, 2, .ro, .none⟩, ⟨1, 1, .ro, .none⟩, ⟨0, 0, .ro, .none⟩]⟩
  | .FIN_BRK => ⟨.die, 0x50410, [], 0x00000000#32,
      [⟨14, 8, .ro, .none⟩, ⟨6, 0, .ro, .none⟩]⟩
  | .FIN_RDLY => ⟨.die, 0x50414, [], 0x00000000#32,
      [⟨31, 16, .ro, .none⟩, ⟨15, 0, .ro, .none⟩]⟩
  | .FIN_EV => ⟨.die, 0x50418, [], 0x00000000#32,
      [⟨8, 8, .w1c, .none⟩, ⟨7, 7, .w1c, .none⟩, ⟨6, 6, .w1c, .none⟩, ⟨5, 5, .w1c, .none⟩, ⟨4, 4, .w1c, .none⟩, ⟨3, 3, .w1c, .none⟩, ⟨2, 2, .w1c, .none⟩, ⟨1, 1, .w1c, .none⟩, ⟨0, 0, .w1c, .none⟩]⟩
  | .FIN_ADMIT => ⟨.die, 0x5041C, [], 0x00000000#32,
      [⟨31, 31, .w1s, .none⟩, ⟨5, 0, .rw, .none⟩]⟩
  | .FIN_IMP => ⟨.die, 0x50420, [], 0x00000000#32,
      [⟨31, 31, .ro, .none⟩, ⟨29, 24, .ro, .none⟩, ⟨21, 16, .ro, .none⟩, ⟨15, 0, .ro, .none⟩]⟩
  | .FIN_CNT => ⟨.die, 0x50440, [(4, 0x4)], 0x00000000#32,
      [⟨31, 0, .ro, .none⟩]⟩
  | .FIN_NCFG => ⟨.die, 0x50800, [(64, 0x10)], 0x000009CE#32,
      [⟨31, 31, .rws, .none⟩, ⟨21, 21, .rws, .none⟩, ⟨20, 16, .rws, .none⟩, ⟨11, 6, .rws, .none⟩, ⟨5, 0, .rws, .none⟩]⟩
  | .FIN_NSLOT => ⟨.die, 0x50804, [(64, 0x10)], 0x00000000#32,
      [⟨31, 16, .rws, .none⟩, ⟨15, 0, .rws, .none⟩]⟩
  | .FIN_NST => ⟨.die, 0x50808, [(64, 0x10)], 0x007F7F00#32,
      [⟨31, 31, .ro, .none⟩, ⟨30, 28, .ro, .none⟩, ⟨27, 24, .ro, .none⟩, ⟨22, 16, .ro, .none⟩, ⟨14, 8, .ro, .none⟩, ⟨3, 0, .ro, .none⟩]⟩
  | .FIN_NCRED => ⟨.die, 0x5080C, [(64, 0x10)], 0x00000000#32,
      [⟨31, 16, .ro, .none⟩, ⟨7, 0, .ro, .none⟩]⟩
  | .FIN_NCRC => ⟨.die, 0x50C00, [(64, 0x8)], 0x00000000#32,
      [⟨31, 0, .ro, .none⟩]⟩
  | .FIN_NLATE => ⟨.die, 0x50C04, [(64, 0x8)], 0x00000000#32,
      [⟨31, 0, .ro, .none⟩]⟩
  | .FIN_NTX => ⟨.die, 0x51000, [(64, 0x20), (8, 0x4)], 0x00000000#32,
      [⟨31, 31, .rws, .none⟩, ⟨28, 16, .rws, .none⟩, ⟨15, 15, .rws, .none⟩, ⟨12, 0, .rws, .none⟩]⟩
  | .TDM_CTL => ⟨.die, 0x60000, [(4, 0x40)], 0x00020000#32,
      [⟨31, 31, .rw, .none⟩, ⟨30, 30, .rw, .none⟩, ⟨29, 29, .rw, .none⟩, ⟨28, 28, .rw, .none⟩, ⟨27, 27, .rw, .none⟩, ⟨26, 26, .rw, .none⟩, ⟨20, 16, .rw, .outside 2 16⟩]⟩
  | .TDM_STAT => ⟨.die, 0x60004, [(4, 0x40)], 0x00000000#32,
      [⟨1, 1, .ro, .none⟩, ⟨0, 0, .ro, .none⟩]⟩
  | .TDM_EV => ⟨.die, 0x60008, [(4, 0x40)], 0x00000000#32,
      [⟨2, 2, .w1c, .none⟩, ⟨1, 1, .w1c, .none⟩, ⟨0, 0, .w1c, .none⟩]⟩
  | .TDM_SLIP => ⟨.die, 0x6000C, [(4, 0x40)], 0x00000000#32,
      [⟨31, 0, .ro, .none⟩]⟩
  | .TDM_LATE => ⟨.die, 0x60010, [(4, 0x40)], 0x00000000#32,
      [⟨31, 0, .ro, .none⟩]⟩
  | .TDM_SMAP => ⟨.die, 0x60100, [(4, 0x40), (16, 0x4)], 0x00000000#32,
      [⟨31, 31, .rws, .none⟩, ⟨30, 30, .rws, .none⟩, ⟨29, 24, .rws, .none⟩, ⟨12, 0, .rws, .none⟩]⟩
  | .SPN_STAT => ⟨.die, 0x70000, [], 0x00000000#32,
      [⟨9, 9, .w1c, .none⟩, ⟨8, 8, .w1c, .none⟩, ⟨4, 4, .ro, .none⟩, ⟨3, 2, .ro, .none⟩, ⟨1, 0, .ro, .none⟩]⟩
  | .SPN_CTL => ⟨.die, 0x70004, [], 0x00000000#32,
      [⟨8, 8, .w1s, .none⟩, ⟨1, 0, .rw, .oneOf [3]⟩]⟩
  | .SPN_RESEND_UP => ⟨.die, 0x70010, [], 0x00000000#32,
      [⟨31, 0, .ro, .none⟩]⟩
  | .SPN_RESEND_DN => ⟨.die, 0x70014, [], 0x00000000#32,
      [⟨31, 0, .ro, .none⟩]⟩
  | .SPN_LOAD_UP => ⟨.die, 0x70018, [], 0x00000000#32,
      [⟨31, 0, .ro, .none⟩]⟩
  | .SPN_LOAD_DN => ⟨.die, 0x7001C, [], 0x00000000#32,
      [⟨31, 0, .ro, .none⟩]⟩
  | .REP_STAT => ⟨.die, 0x80000, [], 0x00100000#32,
      [⟨31, 31, .ro, .none⟩, ⟨20, 16, .ro, .none⟩, ⟨12, 8, .ro, .none⟩, ⟨7, 0, .ro, .none⟩]⟩
  | .REP_EV => ⟨.die, 0x80004, [], 0x00000000#32,
      [⟨3, 3, .w1c, .none⟩, ⟨2, 2, .w1c, .none⟩, ⟨1, 1, .w1c, .none⟩, ⟨0, 0, .w1c, .none⟩]⟩
  | .REP_CTL => ⟨.die, 0x80008, [], 0x03E80003#32,
      [⟨31, 16, .rw, .oneOf [0]⟩, ⟨3, 0, .rw, .below 2⟩]⟩
  | .REP_SOFT => ⟨.die, 0x80100, [(16, 0x4)], 0x00000000#32,
      [⟨31, 31, .ro, .none⟩, ⟨30, 28, .ro, .none⟩, ⟨27, 19, .ro, .none⟩, ⟨15, 8, .ro, .none⟩, ⟨1, 0, .ro, .none⟩]⟩
  | .REP_FIELD => ⟨.die, 0x80200, [(16, 0x4)], 0x00000000#32,
      [⟨31, 31, .ro, .none⟩, ⟨30, 28, .ro, .none⟩, ⟨27, 19, .ro, .none⟩, ⟨15, 8, .ro, .none⟩, ⟨1, 0, .ro, .none⟩]⟩
  | .HPT_CTL => ⟨.fd01, 0x90000, [], 0x00400100#32,
      [⟨23, 16, .rw, .oneOf [0]⟩, ⟨15, 8, .rw, .oneOf [0]⟩, ⟨1, 1, .rw, .none⟩, ⟨0, 0, .rw, .none⟩]⟩
  | .HPT_STAT => ⟨.fd01, 0x90004, [], 0x00000000#32,
      [⟨7, 7, .ro, .none⟩, ⟨6, 4, .ro, .none⟩, ⟨3, 1, .ro, .none⟩, ⟨0, 0, .ro, .none⟩]⟩
  | .HPT_ERR => ⟨.fd01, 0x90008, [], 0x00000000#32,
      [⟨5, 5, .w1c, .none⟩, ⟨4, 4, .w1c, .none⟩, ⟨3, 3, .w1c, .none⟩, ⟨2, 2, .w1c, .none⟩, ⟨1, 1, .w1c, .none⟩]⟩
  | .HPT_DBBASE_LO => ⟨.fd01, 0x90010, [], 0x00000000#32,
      [⟨31, 12, .rw, .none⟩]⟩
  | .HPT_DBBASE_HI => ⟨.fd01, 0x90014, [], 0x00000000#32,
      [⟨31, 0, .rw, .none⟩]⟩
  | .HPT_WBBASE_LO => ⟨.fd01, 0x90018, [], 0x00000000#32,
      [⟨31, 12, .rw, .none⟩]⟩
  | .HPT_WBBASE_HI => ⟨.fd01, 0x9001C, [], 0x00000000#32,
      [⟨31, 0, .rw, .none⟩]⟩
  | .HPT_EVLOST => ⟨.fd01, 0x90020, [], 0x00000000#32,
      [⟨31, 0, .ro, .none⟩]⟩
  | .HPT_DBFAIL => ⟨.fd01, 0x90024, [], 0x00000000#32,
      [⟨31, 0, .ro, .none⟩]⟩
  | .HPT_CMDCNT => ⟨.fd01, 0x90028, [], 0x00000000#32,
      [⟨31, 0, .ro, .none⟩]⟩
  | .HPT_APERR => ⟨.fd01, 0x9002C, [], 0x00000000#32,
      [⟨31, 0, .ro, .none⟩]⟩
  | .HPT_RBLO => ⟨.fd01, 0x90100, [(64, 0x10)], 0x00000000#32,
      [⟨31, 0, .rw, .none⟩]⟩
  | .HPT_RBHI => ⟨.fd01, 0x90104, [(64, 0x10)], 0x00000000#32,
      [⟨31, 0, .rw, .none⟩]⟩
  | .HPT_RCFG => ⟨.fd01, 0x90108, [(64, 0x10)], 0x00000000#32,
      [⟨31, 31, .rw, .none⟩, ⟨30, 28, .rw, .oneOf [7]⟩, ⟨27, 24, .rw, .below 4⟩, ⟨21, 16, .rw, .none⟩, ⟨12, 8, .rw, .none⟩, ⟨7, 0, .rw, .none⟩]⟩
  | .HPT_RSTAT => ⟨.fd01, 0x9010C, [(64, 0x10)], 0x00000000#32,
      [⟨31, 16, .ro, .none⟩, ⟨15, 0, .ro, .none⟩]⟩
  | .HPT_SMAP => ⟨.fd01, 0x90800, [(64, 0x4)], 0x00000000#32,
      [⟨31, 31, .rws, .none⟩, ⟨19, 0, .rws, .none⟩]⟩
  | .HPT_AWLO => ⟨.fd01, 0x91000, [(64, 0x10)], 0x00000000#32,
      [⟨31, 0, .rw, .none⟩]⟩
  | .HPT_AWHI => ⟨.fd01, 0x91004, [(64, 0x10)], 0x00000000#32,
      [⟨31, 0, .rw, .none⟩]⟩
  | .HPT_AWCFG => ⟨.fd01, 0x91008, [(64, 0x10)], 0x00000000#32,
      [⟨31, 31, .rw, .none⟩, ⟨30, 30, .rw, .none⟩, ⟨4, 0, .rw, .outside 10 29⟩]⟩
  | .PNL_CTL => ⟨.fd01, 0xA0000, [], 0x80000000#32,
      [⟨31, 31, .rw, .none⟩, ⟨15, 0, .rw, .none⟩]⟩
  | .PNL_STAT => ⟨.fd01, 0xA0004, [], 0x00000000#32,
      [⟨9, 9, .ro, .none⟩, ⟨8, 8, .ro, .none⟩, ⟨7, 0, .ro, .none⟩]⟩
  | .PNL_EV => ⟨.fd01, 0xA0008, [], 0x00000000#32,
      [⟨3, 3, .w1c, .none⟩, ⟨2, 2, .w1c, .none⟩, ⟨1, 1, .w1c, .none⟩, ⟨0, 0, .w1c, .none⟩]⟩
  | .PNL_TQ => ⟨.fd01, 0xA000C, [], 0x00000000#32,
      [⟨31, 31, .rws, .none⟩, ⟨16, 0, .rws, .none⟩]⟩
  | .PNL_CNT => ⟨.fd01, 0xA0010, [(4, 0x4)], 0x00000000#32,
      [⟨31, 0, .ro, .none⟩]⟩
  | .SEC_STAT => ⟨.die, 0xB0000, [], 0x00000000#32,
      [⟨11, 8, .ro, .none⟩, ⟨7, 4, .ro, .none⟩, ⟨0, 0, .ro, .none⟩]⟩
  | .SEC_SLOT => ⟨.die, 0xB0100, [(32, 0x4)], 0x00000000#32,
      [⟨31, 31, .ro, .none⟩, ⟨23, 16, .ro, .none⟩, ⟨15, 0, .ro, .none⟩]⟩
  | .TCK_CTL => ⟨.die, 0xC0000, [], 0x00000000#32,
      [⟨14, 12, .rw, .none⟩, ⟨11, 11, .rw, .none⟩, ⟨8, 8, .w1s, .none⟩, ⟨7, 7, .w1s, .none⟩, ⟨6, 6, .rw, .none⟩, ⟨5, 4, .rw, .oneOf [3]⟩, ⟨3, 2, .rw, .oneOf [3]⟩]⟩
  | .TCK_FRAME => ⟨.die, 0xC0004, [], 0x08000002#32,
      [⟨31, 16, .rws, .below 1024⟩, ⟨1, 0, .rws, .none⟩]⟩
  | .TCK_STAT => ⟨.die, 0xC0010, [], 0x00000000#32,
      [⟨11, 11, .w1c, .none⟩, ⟨10, 10, .w1c, .none⟩, ⟨9, 9, .w1c, .none⟩, ⟨8, 8, .w1c, .none⟩, ⟨6, 4, .ro, .none⟩, ⟨3, 3, .ro, .none⟩, ⟨2, 2, .ro, .none⟩, ⟨1, 0, .ro, .none⟩]⟩
  | .TCK_FN_LO => ⟨.die, 0xC0014, [], 0x00000000#32,
      [⟨31, 0, .ro, .none⟩]⟩
  | .TCK_FN_HI => ⟨.die, 0xC0018, [], 0x00000000#32,
      [⟨15, 0, .ro, .none⟩]⟩
  | .TCK_TOD => ⟨.die, 0xC001C, [], 0x00000000#32,
      [⟨31, 26, .ro, .none⟩, ⟨25, 19, .ro, .none⟩, ⟨18, 12, .ro, .none⟩, ⟨11, 0, .ro, .none⟩]⟩
  | .TCK_DATE => ⟨.die, 0xC0020, [], 0x2000C101#32,
      [⟨31, 16, .ro, .none⟩, ⟨15, 13, .ro, .none⟩, ⟨12, 8, .ro, .none⟩, ⟨5, 0, .ro, .none⟩]⟩
  | .TCK_TODSET => ⟨.die, 0xC0024, [], 0x00000000#32,
      [⟨31, 26, .rw, .notBcd 0x23⟩, ⟨25, 19, .rw, .notBcd 0x59⟩, ⟨18, 12, .rw, .notBcd 0x59⟩, ⟨11, 0, .rw, .notBcd 0x999⟩]⟩
  | .TCK_DATESET => ⟨.die, 0xC0028, [], 0x2000C101#32,
      [⟨31, 16, .rw, .none⟩, ⟨15, 13, .rw, .oneOf [0]⟩, ⟨12, 8, .rw, .none⟩, ⟨5, 0, .rw, .none⟩]⟩
  | .TCK_FNSET_LO => ⟨.die, 0xC002C, [], 0x00000000#32,
      [⟨31, 0, .rw, .none⟩]⟩
  | .TCK_FNSET_HI => ⟨.die, 0xC0030, [], 0x00000000#32,
      [⟨15, 0, .rw, .none⟩]⟩
  | .TCK_SKEW => ⟨.die, 0xC0034, [], 0x00000000#32,
      [⟨7, 0, .ro, .none⟩]⟩
  | .TCK_PPM => ⟨.die, 0xC0038, [], 0x00000000#32,
      [⟨15, 0, .ro, .none⟩]⟩

/-- The registers of the package block. -/
def blockRegs.pkg : List RegName :=
  [.PKG_STATE, .PKG_BOOT, .PKG_SVN, .PKG_SVNMIN, .PKG_RECOVLO, .PKG_RECOVHI, .PKG_RECOVLEN, .PKG_SVNUP,
   .PKG_SWAP, .PKG_SWAPT_LO, .PKG_SWAPT_HI, .PKG_SWAPN, .PKG_SWAPCTL, .PKG_XF, .PKG_AUTH, .PKG_AUTHLEASE,
   .PKG_ERR, .PKG_ERRCNT]

/-- The registers of the DIE block. -/
def blockRegs.die : List RegName :=
  [.DIE_ID, .DIE_EV, .DIE_SUSP, .DIE_LOST, .DIE_ERRCNT, .DIE_BADPA_LO, .DIE_BADPA_HI, .DIE_SCRUB,
   .DIE_SCRUBPASS, .DIE_TAKE, .DIE_RELEASE, .DIE_SWAP, .DIE_SWAPCRC, .DIE_SUPQ, .DIE_TEMP, .DIE_MON,
   .DIE_PMSRC, .DIE_STRES]

/-- The registers of the ENG block. -/
def blockRegs.eng : List RegName :=
  [.ENG_CTL, .ENG_STAT, .ENG_TRAP, .ENG_TCNT, .ENG_WPF, .ENG_PMBANK, .ENG_MISP, .ENG_STALL, .ENG_LCF,
   .ENG_FSTAT, .ENG_FEV, .ENG_FCNT, .ENG_IDLE, .ENG_FLA, .ENG_FLB, .ENG_CMA, .ENG_CMB]

/-- The registers of the SHM block. -/
def blockRegs.shm : List RegName :=
  [.SHM_STAT, .SHM_VIOL, .SHM_CTL, .SHM_OWN, .SHM_PWR, .SHM_TWIN, .SHM_CCNT, .SHM_MBX]

/-- The registers of the KEN block. -/
def blockRegs.ken : List RegName :=
  [.KEN_POOL, .KEN_STAT, .KEN_AUD, .KEN_AUDRES, .KEN_BLOCKS, .KEN_TALLY, .KEN_FREEMIN, .KEN_CTL, .KEN_DROP,
   .KEN_BADOP, .KEN_LATE, .KEN_LOAN, .KEN_LACT, .KEN_CRED, .QUE_SEL, .QUE_EV, .QUE_BPN, .QUE_VIEW0,
   .QUE_VIEW1, .QUE_VIEW2, .QUE_VIEW3, .FLW_STAT, .FLW_EV, .FLW_REFUSED, .FLW_SEL, .FLW_VIEW]

/-- The registers of the TMU block. -/
def blockRegs.tmu : List RegName :=
  [.TMU_CTL, .TMU_PRE, .TMU_PERLO, .TMU_PERHI, .TMU_CMPLO, .TMU_CMPHI, .TMU_LDLO, .TMU_LDHI, .TMU_CNTLO,
   .TMU_CNTHI, .TMU_CAPLO, .TMU_CAPHI, .TMU_STAT, .TMU_IRQ, .TMU_OSEL]

/-- The registers of the LNK block. -/
def blockRegs.lnk : List RegName :=
  [.LNK_CTL, .LNK_STAT, .LNK_EV, .LNK_MACLO, .LNK_MACHI, .LNK_IP, .LNK_PCFG, .LNK_TSOFS, .LNK_VLAN, .LNK_SPR,
   .LNK_PTPCFG, .LNK_PTPGM0, .LNK_PTPGM1, .LNK_PTPGM2, .LNK_PTPOFS, .LNK_PTPDLY, .LNK_CNT, .LNK_MSCTL,
   .LNK_MSWIN, .LNK_MSPN, .LNK_MSRXLO, .LNK_MSRXHI, .LNK_MSRXCFG, .LNK_SA, .LNK_SB, .LNK_SC, .FIN_CTL,
   .FIN_CFG, .FIN_THR, .FIN_STAT, .FIN_BRK, .FIN_RDLY, .FIN_EV, .FIN_ADMIT, .FIN_IMP, .FIN_CNT, .FIN_NCFG,
   .FIN_NSLOT, .FIN_NST, .FIN_NCRED, .FIN_NCRC, .FIN_NLATE, .FIN_NTX]

/-- The registers of the TDM block. -/
def blockRegs.tdm : List RegName :=
  [.TDM_CTL, .TDM_STAT, .TDM_EV, .TDM_SLIP, .TDM_LATE, .TDM_SMAP]

/-- The registers of the SPN block. -/
def blockRegs.spn : List RegName :=
  [.SPN_STAT, .SPN_CTL, .SPN_RESEND_UP, .SPN_RESEND_DN, .SPN_LOAD_UP, .SPN_LOAD_DN]

/-- The registers of the REP block. -/
def blockRegs.rep : List RegName :=
  [.REP_STAT, .REP_EV, .REP_CTL, .REP_SOFT, .REP_FIELD]

/-- The registers of the HPT block. -/
def blockRegs.hpt : List RegName :=
  [.HPT_CTL, .HPT_STAT, .HPT_ERR, .HPT_DBBASE_LO, .HPT_DBBASE_HI, .HPT_WBBASE_LO, .HPT_WBBASE_HI,
   .HPT_EVLOST, .HPT_DBFAIL, .HPT_CMDCNT, .HPT_APERR, .HPT_RBLO, .HPT_RBHI, .HPT_RCFG, .HPT_RSTAT, .HPT_SMAP,
   .HPT_AWLO, .HPT_AWHI, .HPT_AWCFG]

/-- The registers of the PNL block. -/
def blockRegs.pnl : List RegName :=
  [.PNL_CTL, .PNL_STAT, .PNL_EV, .PNL_TQ, .PNL_CNT]

/-- The registers of the SEC block. -/
def blockRegs.sec : List RegName :=
  [.SEC_STAT, .SEC_SLOT]

/-- The registers of the TCK block. -/
def blockRegs.tck : List RegName :=
  [.TCK_CTL, .TCK_FRAME, .TCK_STAT, .TCK_FN_LO, .TCK_FN_HI, .TCK_TOD, .TCK_DATE, .TCK_TODSET, .TCK_DATESET,
   .TCK_FNSET_LO, .TCK_FNSET_HI, .TCK_SKEW, .TCK_PPM]

/-- The registers of sub-block `i` (offset [19:16]) of a die window (R20). -/
def blockRegs (i : Nat) : List RegName :=
  match i with
  | 0 => blockRegs.die
  | 1 => blockRegs.eng
  | 2 => blockRegs.shm
  | 3 => blockRegs.ken
  | 4 => blockRegs.tmu
  | 5 => blockRegs.lnk
  | 6 => blockRegs.tdm
  | 7 => blockRegs.spn
  | 8 => blockRegs.rep
  | 9 => blockRegs.hpt
  | 10 => blockRegs.pnl
  | 11 => blockRegs.sec
  | 12 => blockRegs.tck
  | _ => []

/-- The offset of an array element. -/
def dimsOff : List (Nat × Nat) → List Nat → Nat
  | (_, st) :: ds, i :: is => st * i + dimsOff ds is
  | _, _ => 0

/-- The indices of the array element at offset `rel`, if one starts there. -/
def dimsIdx : List (Nat × Nat) → Nat → Option (List Nat)
  | [], rel => if rel = 0 then some [] else none
  | (n, st) :: ds, rel =>
    if rel / st < n then (dimsIdx ds (rel % st)).map (rel / st :: ·) else none

/-- The BAR0 byte address of a register of die `d` (any `d` for a package register). -/
def RegName.addr (r : RegName) (d : Nat) (idx : List Nat) : Nat :=
  let t := r.desc
  (match t.blk with | .pkg => 0 | _ => (d + 1) * 0x100000) + t.off + dimsOff t.dims idx

/-- A register found at an address: its name, die, indices, and whether the address is the active-value address. -/
structure Loc where
  reg : RegName
  die : Nat
  idx : List Nat
  isAct : Bool
  deriving DecidableEq, Repr

/-- Whether a register has RWS fields, and so an active-value address (R9). -/
def RegName.banked (r : RegName) : Bool := r.desc.fields.any (fun f => decide (f.ty = .rws))

/-- The element of one of `rs` at offset `off`. -/
def findReg (d off : Nat) (al : Bool) : List RegName → Option Loc
  | [] => none
  | r :: rs =>
    let t := r.desc
    let hit := if t.off ≤ off ∧ (al = false ∨ r.banked = true) ∧ (t.blk ≠ .fd01 ∨ d < 2)
      then dimsIdx t.dims (off - t.off) else none
    match hit with
    | some idx => some ⟨r, d, idx, al⟩
    | none => findReg d off al rs

/-- The register at a BAR0 byte address (R615, R616): `none` where the map names none. -/
def locate (addr : Nat) : Option Loc :=
  if addr < 0x100000 then findReg 0 addr false blockRegs.pkg
  else
    let d := addr / 0x100000 - 1
    let off := addr % 0x100000
    let rs := blockRegs (off / 0x10000)
    match findReg d off false rs with
    | some l => some l
    | none => if 0x8000 ≤ off % 0x10000 then findReg d (off - 0x8000) true rs else none

/-- What an unlisted register address reads as: the reset value of its table. -/
def regReset (addr : Nat) : W32 :=
  match locate addr with
  | some l => l.reg.desc.reset
  | none => 0#32

/-- A field by its manual name, as in `F.ENG_CTL.EN`. -/
structure Fld where
  reg : RegName
  hi : Nat
  lo : Nat
  deriving DecidableEq, Repr

abbrev F.PKG_STATE.EARLYOK : Fld := ⟨.PKG_STATE, 8, 8⟩
abbrev F.PKG_STATE.STATE : Fld := ⟨.PKG_STATE, 2, 0⟩
abbrev F.PKG_BOOT.VALID : Fld := ⟨.PKG_BOOT, 31, 31⟩
abbrev F.PKG_BOOT.REASON0 : Fld := ⟨.PKG_BOOT, 23, 20⟩
abbrev F.PKG_BOOT.REASON1 : Fld := ⟨.PKG_BOOT, 19, 16⟩
abbrev F.PKG_BOOT.SRC : Fld := ⟨.PKG_BOOT, 15, 14⟩
abbrev F.PKG_BOOT.DIE : Fld := ⟨.PKG_BOOT, 13, 13⟩
abbrev F.PKG_SVN.SVN : Fld := ⟨.PKG_SVN, 31, 0⟩
abbrev F.PKG_SVNMIN.SVN : Fld := ⟨.PKG_SVNMIN, 31, 0⟩
abbrev F.PKG_RECOVLO.ADDR : Fld := ⟨.PKG_RECOVLO, 31, 0⟩
abbrev F.PKG_RECOVHI.ADDR : Fld := ⟨.PKG_RECOVHI, 31, 0⟩
abbrev F.PKG_RECOVLEN.GO : Fld := ⟨.PKG_RECOVLEN, 31, 31⟩
abbrev F.PKG_RECOVLEN.LEN : Fld := ⟨.PKG_RECOVLEN, 24, 0⟩
abbrev F.PKG_SVNUP.GO : Fld := ⟨.PKG_SVNUP, 0, 0⟩
abbrev F.PKG_SWAP.NOTRDY : Fld := ⟨.PKG_SWAP, 31, 24⟩
abbrev F.PKG_SWAP.NOVOTE : Fld := ⟨.PKG_SWAP, 23, 16⟩
abbrev F.PKG_SWAP.OUTCOME : Fld := ⟨.PKG_SWAP, 5, 4⟩
abbrev F.PKG_SWAP.COPYRUN : Fld := ⟨.PKG_SWAP, 3, 3⟩
abbrev F.PKG_SWAP.HANDOVER : Fld := ⟨.PKG_SWAP, 2, 2⟩
abbrev F.PKG_SWAP.RB : Fld := ⟨.PKG_SWAP, 1, 1⟩
abbrev F.PKG_SWAP.ARMED : Fld := ⟨.PKG_SWAP, 0, 0⟩
abbrev F.PKG_SWAPT_LO.T_LO : Fld := ⟨.PKG_SWAPT_LO, 31, 0⟩
abbrev F.PKG_SWAPT_HI.T_HI : Fld := ⟨.PKG_SWAPT_HI, 15, 0⟩
abbrev F.PKG_SWAPN.GOS : Fld := ⟨.PKG_SWAPN, 31, 16⟩
abbrev F.PKG_SWAPN.ABORTS : Fld := ⟨.PKG_SWAPN, 15, 0⟩
abbrev F.PKG_SWAPCTL.COPY : Fld := ⟨.PKG_SWAPCTL, 0, 0⟩
abbrev F.PKG_XF.DELAY : Fld := ⟨.PKG_XF, 15, 8⟩
abbrev F.PKG_XF.FRAMES : Fld := ⟨.PKG_XF, 7, 0⟩
abbrev F.PKG_AUTH.RELEASE : Fld := ⟨.PKG_AUTH, 9, 9⟩
abbrev F.PKG_AUTH.CLAIM : Fld := ⟨.PKG_AUTH, 8, 8⟩
abbrev F.PKG_AUTH.PEND : Fld := ⟨.PKG_AUTH, 5, 4⟩
abbrev F.PKG_AUTH.OWNER : Fld := ⟨.PKG_AUTH, 1, 0⟩
abbrev F.PKG_AUTHLEASE.LEASE : Fld := ⟨.PKG_AUTHLEASE, 15, 0⟩
abbrev F.PKG_ERR.BADSIZE : Fld := ⟨.PKG_ERR, 2, 2⟩
abbrev F.PKG_ERR.NOAUTH : Fld := ⟨.PKG_ERR, 1, 1⟩
abbrev F.PKG_ERR.UNPOP : Fld := ⟨.PKG_ERR, 0, 0⟩
abbrev F.PKG_ERRCNT.COUNT : Fld := ⟨.PKG_ERRCNT, 31, 0⟩
abbrev F.DIE_ID.STEP : Fld := ⟨.DIE_ID, 15, 12⟩
abbrev F.DIE_ID.NDIE : Fld := ⟨.DIE_ID, 11, 8⟩
abbrev F.DIE_ID.DIE : Fld := ⟨.DIE_ID, 2, 0⟩
abbrev F.DIE_EV.ENBUSY : Fld := ⟨.DIE_EV, 9, 9⟩
abbrev F.DIE_EV.SUSPWR : Fld := ⟨.DIE_EV, 8, 8⟩
abbrev F.DIE_EV.LOST : Fld := ⟨.DIE_EV, 7, 7⟩
abbrev F.DIE_EV.SCRUBERR : Fld := ⟨.DIE_EV, 6, 6⟩
abbrev F.DIE_EV.PMBAD : Fld := ⟨.DIE_EV, 5, 5⟩
abbrev F.DIE_EV.PERSIST : Fld := ⟨.DIE_EV, 4, 4⟩
abbrev F.DIE_EV.SPARENONE : Fld := ⟨.DIE_EV, 3, 3⟩
abbrev F.DIE_EV.TAKEOVER : Fld := ⟨.DIE_EV, 2, 2⟩
abbrev F.DIE_EV.SUSPECT : Fld := ⟨.DIE_EV, 1, 1⟩
abbrev F.DIE_SUSP.THR : Fld := ⟨.DIE_SUSP, 19, 16⟩
abbrev F.DIE_SUSP.WIN : Fld := ⟨.DIE_SUSP, 15, 0⟩
abbrev F.DIE_LOST.MASK : Fld := ⟨.DIE_LOST, 7, 0⟩
abbrev F.DIE_ERRCNT.COUNT : Fld := ⟨.DIE_ERRCNT, 31, 0⟩
abbrev F.DIE_BADPA_LO.PA_LO : Fld := ⟨.DIE_BADPA_LO, 31, 0⟩
abbrev F.DIE_BADPA_HI.PA_HI : Fld := ⟨.DIE_BADPA_HI, 5, 0⟩
abbrev F.DIE_SCRUB.EN : Fld := ⟨.DIE_SCRUB, 31, 31⟩
abbrev F.DIE_SCRUB.PERIOD : Fld := ⟨.DIE_SCRUB, 15, 0⟩
abbrev F.DIE_SCRUBPASS.COUNT : Fld := ⟨.DIE_SCRUBPASS, 31, 0⟩
abbrev F.DIE_TAKE.V : Fld := ⟨.DIE_TAKE, 31, 31⟩
abbrev F.DIE_TAKE.DONE : Fld := ⟨.DIE_TAKE, 30, 30⟩
abbrev F.DIE_TAKE.SUSP : Fld := ⟨.DIE_TAKE, 13, 8⟩
abbrev F.DIE_TAKE.SPARE : Fld := ⟨.DIE_TAKE, 5, 0⟩
abbrev F.DIE_RELEASE.GO : Fld := ⟨.DIE_RELEASE, 31, 31⟩
abbrev F.DIE_RELEASE.ENG : Fld := ⟨.DIE_RELEASE, 5, 0⟩
abbrev F.DIE_SWAP.SHDIRTY : Fld := ⟨.DIE_SWAP, 16, 16⟩
abbrev F.DIE_SWAP.PWR : Fld := ⟨.DIE_SWAP, 10, 10⟩
abbrev F.DIE_SWAP.READY : Fld := ⟨.DIE_SWAP, 9, 9⟩
abbrev F.DIE_SWAP.LOCKWR : Fld := ⟨.DIE_SWAP, 8, 8⟩
abbrev F.DIE_SWAP.DIRTY : Fld := ⟨.DIE_SWAP, 7, 7⟩
abbrev F.DIE_SWAP.SUSP : Fld := ⟨.DIE_SWAP, 6, 6⟩
abbrev F.DIE_SWAP.LOAN : Fld := ⟨.DIE_SWAP, 5, 5⟩
abbrev F.DIE_SWAP.POOL : Fld := ⟨.DIE_SWAP, 4, 4⟩
abbrev F.DIE_SWAP.MAP : Fld := ⟨.DIE_SWAP, 3, 3⟩
abbrev F.DIE_SWAP.PMSRC : Fld := ⟨.DIE_SWAP, 2, 2⟩
abbrev F.DIE_SWAP.CODE : Fld := ⟨.DIE_SWAP, 1, 1⟩
abbrev F.DIE_SWAP.CRC : Fld := ⟨.DIE_SWAP, 0, 0⟩
abbrev F.DIE_SWAPCRC.CRC : Fld := ⟨.DIE_SWAPCRC, 31, 0⟩
abbrev F.DIE_SUPQ.V : Fld := ⟨.DIE_SUPQ, 31, 31⟩
abbrev F.DIE_SUPQ.MBX : Fld := ⟨.DIE_SUPQ, 30, 30⟩
abbrev F.DIE_SUPQ.BAD : Fld := ⟨.DIE_SUPQ, 29, 17⟩
abbrev F.DIE_SUPQ.Q : Fld := ⟨.DIE_SUPQ, 16, 0⟩
abbrev F.DIE_TEMP.TEMP : Fld := ⟨.DIE_TEMP, 11, 0⟩
abbrev F.DIE_MON.WARN : Fld := ⟨.DIE_MON, 31, 24⟩
abbrev F.DIE_MON.THWARN : Fld := ⟨.DIE_MON, 9, 9⟩
abbrev F.DIE_MON.RAILWARN : Fld := ⟨.DIE_MON, 8, 8⟩
abbrev F.DIE_MON.RAILOK : Fld := ⟨.DIE_MON, 5, 0⟩
abbrev F.DIE_PMSRC.V : Fld := ⟨.DIE_PMSRC, 31, 31⟩
abbrev F.DIE_PMSRC.SRC : Fld := ⟨.DIE_PMSRC, 25, 0⟩
abbrev F.DIE_STRES.V : Fld := ⟨.DIE_STRES, 31, 31⟩
abbrev F.DIE_STRES.VERDICT : Fld := ⟨.DIE_STRES, 30, 28⟩
abbrev F.DIE_STRES.DETAIL : Fld := ⟨.DIE_STRES, 17, 0⟩
abbrev F.ENG_CTL.CNTCLR : Fld := ⟨.ENG_CTL, 8, 8⟩
abbrev F.ENG_CTL.SPARE : Fld := ⟨.ENG_CTL, 1, 1⟩
abbrev F.ENG_CTL.EN : Fld := ⟨.ENG_CTL, 0, 0⟩
abbrev F.ENG_STAT.SUSPECT : Fld := ⟨.ENG_STAT, 12, 12⟩
abbrev F.ENG_STAT.PWR : Fld := ⟨.ENG_STAT, 11, 11⟩
abbrev F.ENG_STAT.ST : Fld := ⟨.ENG_STAT, 8, 0⟩
abbrev F.ENG_TRAP.DBL : Fld := ⟨.ENG_TRAP, 31, 31⟩
abbrev F.ENG_TRAP.TEV : Fld := ⟨.ENG_TRAP, 30, 30⟩
abbrev F.ENG_TRAP.CAUSE : Fld := ⟨.ENG_TRAP, 21, 16⟩
abbrev F.ENG_TRAP.EPC : Fld := ⟨.ENG_TRAP, 11, 0⟩
abbrev F.ENG_TCNT.TRAPS : Fld := ⟨.ENG_TCNT, 31, 16⟩
abbrev F.ENG_TCNT.DOUBLES : Fld := ⟨.ENG_TCNT, 15, 0⟩
abbrev F.ENG_WPF.COUNT : Fld := ⟨.ENG_WPF, 31, 0⟩
abbrev F.ENG_PMBANK.COUNT : Fld := ⟨.ENG_PMBANK, 31, 0⟩
abbrev F.ENG_MISP.IND : Fld := ⟨.ENG_MISP, 31, 16⟩
abbrev F.ENG_MISP.RET : Fld := ⟨.ENG_MISP, 15, 0⟩
abbrev F.ENG_STALL.CYCLES : Fld := ⟨.ENG_STALL, 31, 0⟩
abbrev F.ENG_LCF.COUNT : Fld := ⟨.ENG_LCF, 31, 0⟩
abbrev F.ENG_FSTAT.CUR : Fld := ⟨.ENG_FSTAT, 11, 8⟩
abbrev F.ENG_FSTAT.SEQ : Fld := ⟨.ENG_FSTAT, 2, 0⟩
abbrev F.ENG_FEV.CONST : Fld := ⟨.ENG_FEV, 3, 3⟩
abbrev F.ENG_FEV.BUDGET : Fld := ⟨.ENG_FEV, 2, 2⟩
abbrev F.ENG_FEV.REPLAY : Fld := ⟨.ENG_FEV, 1, 1⟩
abbrev F.ENG_FEV.OVR : Fld := ⟨.ENG_FEV, 0, 0⟩
abbrev F.ENG_FCNT.REPLAYS : Fld := ⟨.ENG_FCNT, 31, 16⟩
abbrev F.ENG_FCNT.OVERRUNS : Fld := ⟨.ENG_FCNT, 15, 0⟩
abbrev F.ENG_IDLE.PC : Fld := ⟨.ENG_IDLE, 27, 16⟩
abbrev F.ENG_IDLE.EN : Fld := ⟨.ENG_IDLE, 0, 0⟩
abbrev F.ENG_FLA.V : Fld := ⟨.ENG_FLA, 31, 31⟩
abbrev F.ENG_FLA.PC : Fld := ⟨.ENG_FLA, 27, 16⟩
abbrev F.ENG_FLA.BUDGET : Fld := ⟨.ENG_FLA, 15, 0⟩
abbrev F.ENG_FLB.ASID : Fld := ⟨.ENG_FLB, 23, 16⟩
abbrev F.ENG_FLB.CMAPSEL : Fld := ⟨.ENG_FLB, 7, 0⟩
abbrev F.ENG_CMA.LSTART : Fld := ⟨.ENG_CMA, 31, 16⟩
abbrev F.ENG_CMA.LLEN : Fld := ⟨.ENG_CMA, 15, 0⟩
abbrev F.ENG_CMB.SRC : Fld := ⟨.ENG_CMB, 25, 0⟩
abbrev F.SHM_STAT.TWINBAD : Fld := ⟨.SHM_STAT, 7, 7⟩
abbrev F.SHM_STAT.SOLOEV : Fld := ⟨.SHM_STAT, 6, 6⟩
abbrev F.SHM_STAT.CLREV : Fld := ⟨.SHM_STAT, 5, 5⟩
abbrev F.SHM_STAT.OWNEV : Fld := ⟨.SHM_STAT, 4, 4⟩
abbrev F.SHM_STAT.VIOL : Fld := ⟨.SHM_STAT, 3, 3⟩
abbrev F.SHM_STAT.OWNBUSY : Fld := ⟨.SHM_STAT, 2, 2⟩
abbrev F.SHM_STAT.PWRBUSY : Fld := ⟨.SHM_STAT, 1, 1⟩
abbrev F.SHM_VIOL.COUNT : Fld := ⟨.SHM_VIOL, 31, 16⟩
abbrev F.SHM_VIOL.MASTER : Fld := ⟨.SHM_VIOL, 15, 12⟩
abbrev F.SHM_VIOL.BANK : Fld := ⟨.SHM_VIOL, 5, 0⟩
abbrev F.SHM_CTL.CNTCLR : Fld := ⟨.SHM_CTL, 0, 0⟩
abbrev F.SHM_OWN.PEND : Fld := ⟨.SHM_OWN, 31, 31⟩
abbrev F.SHM_OWN.OWNER : Fld := ⟨.SHM_OWN, 3, 0⟩
abbrev F.SHM_PWR.PSTAT : Fld := ⟨.SHM_PWR, 5, 4⟩
abbrev F.SHM_PWR.PREQ : Fld := ⟨.SHM_PWR, 1, 0⟩
abbrev F.SHM_TWIN.EN : Fld := ⟨.SHM_TWIN, 31, 31⟩
abbrev F.SHM_TWIN.FORMED : Fld := ⟨.SHM_TWIN, 30, 30⟩
abbrev F.SHM_TWIN.SYNC : Fld := ⟨.SHM_TWIN, 29, 29⟩
abbrev F.SHM_TWIN.SOLO : Fld := ⟨.SHM_TWIN, 28, 28⟩
abbrev F.SHM_TWIN.HOME : Fld := ⟨.SHM_TWIN, 27, 27⟩
abbrev F.SHM_TWIN.DIE : Fld := ⟨.SHM_TWIN, 10, 8⟩
abbrev F.SHM_TWIN.BANK : Fld := ⟨.SHM_TWIN, 5, 0⟩
abbrev F.SHM_CCNT.COUNT : Fld := ⟨.SHM_CCNT, 31, 0⟩
abbrev F.SHM_MBX.PRI : Fld := ⟨.SHM_MBX, 8, 8⟩
abbrev F.SHM_MBX.PCOLL : Fld := ⟨.SHM_MBX, 1, 1⟩
abbrev F.SHM_MBX.ICOLL : Fld := ⟨.SHM_MBX, 0, 0⟩
abbrev F.KEN_POOL.RESVPRI : Fld := ⟨.KEN_POOL, 30, 28⟩
abbrev F.KEN_POOL.RESV : Fld := ⟨.KEN_POOL, 27, 12⟩
abbrev F.KEN_POOL.BASE : Fld := ⟨.KEN_POOL, 9, 4⟩
abbrev F.KEN_POOL.NBANK : Fld := ⟨.KEN_POOL, 3, 0⟩
abbrev F.KEN_STAT.CREDBAD : Fld := ⟨.KEN_STAT, 7, 7⟩
abbrev F.KEN_STAT.AUDDONE : Fld := ⟨.KEN_STAT, 6, 6⟩
abbrev F.KEN_STAT.AUDRUN : Fld := ⟨.KEN_STAT, 5, 5⟩
abbrev F.KEN_STAT.MISMATCH : Fld := ⟨.KEN_STAT, 4, 4⟩
abbrev F.KEN_STAT.EMPTY : Fld := ⟨.KEN_STAT, 3, 3⟩
abbrev F.KEN_STAT.LOW : Fld := ⟨.KEN_STAT, 2, 2⟩
abbrev F.KEN_STAT.DRAIN : Fld := ⟨.KEN_STAT, 1, 1⟩
abbrev F.KEN_AUD.FRAMES : Fld := ⟨.KEN_AUD, 15, 8⟩
abbrev F.KEN_AUD.START : Fld := ⟨.KEN_AUD, 0, 0⟩
abbrev F.KEN_AUDRES.LEAKS : Fld := ⟨.KEN_AUDRES, 31, 16⟩
abbrev F.KEN_AUDRES.DUPS : Fld := ⟨.KEN_AUDRES, 15, 0⟩
abbrev F.KEN_BLOCKS.BLOCKS : Fld := ⟨.KEN_BLOCKS, 15, 0⟩
abbrev F.KEN_TALLY.COUNT : Fld := ⟨.KEN_TALLY, 15, 0⟩
abbrev F.KEN_FREEMIN.MIN : Fld := ⟨.KEN_FREEMIN, 15, 0⟩
abbrev F.KEN_CTL.CNTCLR : Fld := ⟨.KEN_CTL, 0, 0⟩
abbrev F.KEN_DROP.COUNT : Fld := ⟨.KEN_DROP, 31, 0⟩
abbrev F.KEN_BADOP.COUNT : Fld := ⟨.KEN_BADOP, 31, 0⟩
abbrev F.KEN_LATE.COUNT : Fld := ⟨.KEN_LATE, 31, 0⟩
abbrev F.KEN_LOAN.TARGET : Fld := ⟨.KEN_LOAN, 15, 0⟩
abbrev F.KEN_LACT.LOANED : Fld := ⟨.KEN_LACT, 15, 0⟩
abbrev F.KEN_CRED.FROZEN : Fld := ⟨.KEN_CRED, 31, 31⟩
abbrev F.KEN_CRED.CREDIT : Fld := ⟨.KEN_CRED, 15, 0⟩
abbrev F.QUE_SEL.Q : Fld := ⟨.QUE_SEL, 16, 0⟩
abbrev F.QUE_EV.BPNOAGE : Fld := ⟨.QUE_EV, 3, 3⟩
abbrev F.QUE_EV.PORTDEQ : Fld := ⟨.QUE_EV, 2, 2⟩
abbrev F.QUE_EV.BPEV : Fld := ⟨.QUE_EV, 1, 1⟩
abbrev F.QUE_EV.DROPEV : Fld := ⟨.QUE_EV, 0, 0⟩
abbrev F.QUE_BPN.COUNT : Fld := ⟨.QUE_BPN, 16, 0⟩
abbrev F.QUE_VIEW0.OPEN : Fld := ⟨.QUE_VIEW0, 31, 31⟩
abbrev F.QUE_VIEW0.BP : Fld := ⟨.QUE_VIEW0, 30, 30⟩
abbrev F.QUE_VIEW0.POLICY : Fld := ⟨.QUE_VIEW0, 29, 28⟩
abbrev F.QUE_VIEW0.FID : Fld := ⟨.QUE_VIEW0, 12, 0⟩
abbrev F.QUE_VIEW1.DLIM : Fld := ⟨.QUE_VIEW1, 31, 16⟩
abbrev F.QUE_VIEW1.ALIM : Fld := ⟨.QUE_VIEW1, 15, 0⟩
abbrev F.QUE_VIEW2.PEND : Fld := ⟨.QUE_VIEW2, 31, 16⟩
abbrev F.QUE_VIEW2.DEPTH : Fld := ⟨.QUE_VIEW2, 15, 0⟩
abbrev F.QUE_VIEW3.OLDAGE : Fld := ⟨.QUE_VIEW3, 15, 0⟩
abbrev F.FLW_STAT.OPEN : Fld := ⟨.FLW_STAT, 12, 0⟩
abbrev F.FLW_EV.SEQEV : Fld := ⟨.FLW_EV, 1, 1⟩
abbrev F.FLW_EV.REFEV : Fld := ⟨.FLW_EV, 0, 0⟩
abbrev F.FLW_REFUSED.COUNT : Fld := ⟨.FLW_REFUSED, 31, 0⟩
abbrev F.FLW_SEL.SIDE : Fld := ⟨.FLW_SEL, 31, 31⟩
abbrev F.FLW_SEL.FID : Fld := ⟨.FLW_SEL, 12, 0⟩
abbrev F.FLW_VIEW.Ci : Fld := ⟨.FLW_VIEW, 31, 0⟩
abbrev F.TMU_CTL.START : Fld := ⟨.TMU_CTL, 31, 31⟩
abbrev F.TMU_CTL.STOP : Fld := ⟨.TMU_CTL, 30, 30⟩
abbrev F.TMU_CTL.ATTICK : Fld := ⟨.TMU_CTL, 29, 29⟩
abbrev F.TMU_CTL.SRC : Fld := ⟨.TMU_CTL, 26, 24⟩
abbrev F.TMU_CTL.MODE : Fld := ⟨.TMU_CTL, 23, 22⟩
abbrev F.TMU_CTL.OUTMODE : Fld := ⟨.TMU_CTL, 21, 20⟩
abbrev F.TMU_CTL.CAPSRC : Fld := ⟨.TMU_CTL, 19, 18⟩
abbrev F.TMU_CTL.CPIN : Fld := ⟨.TMU_CTL, 17, 16⟩
abbrev F.TMU_CTL.SPIN : Fld := ⟨.TMU_CTL, 15, 14⟩
abbrev F.TMU_CTL.GPIN : Fld := ⟨.TMU_CTL, 13, 12⟩
abbrev F.TMU_CTL.GLVL : Fld := ⟨.TMU_CTL, 11, 11⟩
abbrev F.TMU_PRE.DIV : Fld := ⟨.TMU_PRE, 31, 0⟩
abbrev F.TMU_PERLO.LO : Fld := ⟨.TMU_PERLO, 31, 0⟩
abbrev F.TMU_PERHI.HI : Fld := ⟨.TMU_PERHI, 15, 0⟩
abbrev F.TMU_CMPLO.LO : Fld := ⟨.TMU_CMPLO, 31, 0⟩
abbrev F.TMU_CMPHI.HI : Fld := ⟨.TMU_CMPHI, 15, 0⟩
abbrev F.TMU_LDLO.LO : Fld := ⟨.TMU_LDLO, 31, 0⟩
abbrev F.TMU_LDHI.HI : Fld := ⟨.TMU_LDHI, 15, 0⟩
abbrev F.TMU_CNTLO.LO : Fld := ⟨.TMU_CNTLO, 31, 0⟩
abbrev F.TMU_CNTHI.HI : Fld := ⟨.TMU_CNTHI, 15, 0⟩
abbrev F.TMU_CAPLO.LO : Fld := ⟨.TMU_CAPLO, 31, 0⟩
abbrev F.TMU_CAPHI.HI : Fld := ⟨.TMU_CAPHI, 15, 0⟩
abbrev F.TMU_STAT.RUN : Fld := ⟨.TMU_STAT, 6, 6⟩
abbrev F.TMU_STAT.DIR : Fld := ⟨.TMU_STAT, 5, 5⟩
abbrev F.TMU_STAT.OVF : Fld := ⟨.TMU_STAT, 4, 4⟩
abbrev F.TMU_STAT.CAPF : Fld := ⟨.TMU_STAT, 3, 3⟩
abbrev F.TMU_STAT.CMPF : Fld := ⟨.TMU_STAT, 2, 2⟩
abbrev F.TMU_STAT.ZF : Fld := ⟨.TMU_STAT, 1, 1⟩
abbrev F.TMU_STAT.PERF : Fld := ⟨.TMU_STAT, 0, 0⟩
abbrev F.TMU_IRQ.EN : Fld := ⟨.TMU_IRQ, 31, 31⟩
abbrev F.TMU_IRQ.MASK : Fld := ⟨.TMU_IRQ, 20, 16⟩
abbrev F.TMU_IRQ.ENG : Fld := ⟨.TMU_IRQ, 13, 8⟩
abbrev F.TMU_IRQ.LINE : Fld := ⟨.TMU_IRQ, 3, 0⟩
abbrev F.TMU_OSEL.EN : Fld := ⟨.TMU_OSEL, 31, 31⟩
abbrev F.TMU_OSEL.CH : Fld := ⟨.TMU_OSEL, 3, 0⟩
abbrev F.LNK_CTL.EN : Fld := ⟨.LNK_CTL, 31, 31⟩
abbrev F.LNK_CTL.RATE : Fld := ⟨.LNK_CTL, 28, 28⟩
abbrev F.LNK_CTL.MODE : Fld := ⟨.LNK_CTL, 27, 26⟩
abbrev F.LNK_STAT.MSEC : Fld := ⟨.LNK_STAT, 3, 3⟩
abbrev F.LNK_STAT.REMFLT : Fld := ⟨.LNK_STAT, 2, 2⟩
abbrev F.LNK_STAT.LOCFLT : Fld := ⟨.LNK_STAT, 1, 1⟩
abbrev F.LNK_STAT.UP : Fld := ⟨.LNK_STAT, 0, 0⟩
abbrev F.LNK_EV.PNWRAP : Fld := ⟨.LNK_EV, 6, 6⟩
abbrev F.LNK_EV.MAPBAD : Fld := ⟨.LNK_EV, 5, 5⟩
abbrev F.LNK_EV.PTPLOCK : Fld := ⟨.LNK_EV, 4, 4⟩
abbrev F.LNK_EV.PTPLOSS : Fld := ⟨.LNK_EV, 3, 3⟩
abbrev F.LNK_EV.LATE : Fld := ⟨.LNK_EV, 2, 2⟩
abbrev F.LNK_EV.DOWNEV : Fld := ⟨.LNK_EV, 1, 1⟩
abbrev F.LNK_EV.UPEV : Fld := ⟨.LNK_EV, 0, 0⟩
abbrev F.LNK_MACLO.MAC_LO : Fld := ⟨.LNK_MACLO, 31, 0⟩
abbrev F.LNK_MACHI.MAC_HI : Fld := ⟨.LNK_MACHI, 15, 0⟩
abbrev F.LNK_IP.ADDR : Fld := ⟨.LNK_IP, 31, 0⟩
abbrev F.LNK_PCFG.DSCP : Fld := ⟨.LNK_PCFG, 31, 26⟩
abbrev F.LNK_PCFG.PT : Fld := ⟨.LNK_PCFG, 25, 19⟩
abbrev F.LNK_PCFG.ROFS : Fld := ⟨.LNK_PCFG, 11, 0⟩
abbrev F.LNK_TSOFS.TSOFS : Fld := ⟨.LNK_TSOFS, 31, 0⟩
abbrev F.LNK_VLAN.TAG : Fld := ⟨.LNK_VLAN, 31, 31⟩
abbrev F.LNK_VLAN.PCP : Fld := ⟨.LNK_VLAN, 15, 13⟩
abbrev F.LNK_VLAN.VID : Fld := ⟨.LNK_VLAN, 11, 0⟩
abbrev F.LNK_SPR.EN : Fld := ⟨.LNK_SPR, 31, 31⟩
abbrev F.LNK_SPR.HP : Fld := ⟨.LNK_SPR, 8, 8⟩
abbrev F.LNK_SPR.RING : Fld := ⟨.LNK_SPR, 5, 0⟩
abbrev F.LNK_PTPCFG.EN : Fld := ⟨.LNK_PTPCFG, 31, 31⟩
abbrev F.LNK_PTPCFG.PROF : Fld := ⟨.LNK_PTPCFG, 30, 30⟩
abbrev F.LNK_PTPCFG.DOMAIN : Fld := ⟨.LNK_PTPCFG, 23, 16⟩
abbrev F.LNK_PTPCFG.DRINT : Fld := ⟨.LNK_PTPCFG, 15, 12⟩
abbrev F.LNK_PTPCFG.LOSS : Fld := ⟨.LNK_PTPCFG, 11, 0⟩
abbrev F.LNK_PTPGM0.ID : Fld := ⟨.LNK_PTPGM0, 31, 0⟩
abbrev F.LNK_PTPGM1.ID : Fld := ⟨.LNK_PTPGM1, 31, 0⟩
abbrev F.LNK_PTPGM2.PORTNUM : Fld := ⟨.LNK_PTPGM2, 15, 0⟩
abbrev F.LNK_PTPOFS.NS : Fld := ⟨.LNK_PTPOFS, 31, 0⟩
abbrev F.LNK_PTPDLY.NS : Fld := ⟨.LNK_PTPDLY, 31, 0⟩
abbrev F.LNK_CNT.COUNT : Fld := ⟨.LNK_CNT, 31, 0⟩
abbrev F.LNK_MSCTL.EN : Fld := ⟨.LNK_MSCTL, 31, 31⟩
abbrev F.LNK_MSCTL.XPN : Fld := ⟨.LNK_MSCTL, 30, 30⟩
abbrev F.LNK_MSCTL.TXSALT : Fld := ⟨.LNK_MSCTL, 12, 8⟩
abbrev F.LNK_MSCTL.TXAN : Fld := ⟨.LNK_MSCTL, 7, 6⟩
abbrev F.LNK_MSCTL.TXKEY : Fld := ⟨.LNK_MSCTL, 4, 0⟩
abbrev F.LNK_MSWIN.WIN : Fld := ⟨.LNK_MSWIN, 31, 0⟩
abbrev F.LNK_MSPN.PN : Fld := ⟨.LNK_MSPN, 31, 0⟩
abbrev F.LNK_MSRXLO.SCI_LO : Fld := ⟨.LNK_MSRXLO, 31, 0⟩
abbrev F.LNK_MSRXHI.SCI_HI : Fld := ⟨.LNK_MSRXHI, 31, 0⟩
abbrev F.LNK_MSRXCFG.V : Fld := ⟨.LNK_MSRXCFG, 31, 31⟩
abbrev F.LNK_MSRXCFG.XSLT1 : Fld := ⟨.LNK_MSRXCFG, 30, 26⟩
abbrev F.LNK_MSRXCFG.AN1 : Fld := ⟨.LNK_MSRXCFG, 25, 24⟩
abbrev F.LNK_MSRXCFG.KEY1 : Fld := ⟨.LNK_MSRXCFG, 20, 16⟩
abbrev F.LNK_MSRXCFG.XSLT0 : Fld := ⟨.LNK_MSRXCFG, 14, 10⟩
abbrev F.LNK_MSRXCFG.AN0 : Fld := ⟨.LNK_MSRXCFG, 9, 8⟩
abbrev F.LNK_MSRXCFG.KEY0 : Fld := ⟨.LNK_MSRXCFG, 4, 0⟩
abbrev F.LNK_SA.ADDR : Fld := ⟨.LNK_SA, 31, 0⟩
abbrev F.LNK_SB.UDP : Fld := ⟨.LNK_SB, 31, 16⟩
abbrev F.LNK_SB.V : Fld := ⟨.LNK_SB, 15, 15⟩
abbrev F.LNK_SB.DIR : Fld := ⟨.LNK_SB, 14, 14⟩
abbrev F.LNK_SB.P7 : Fld := ⟨.LNK_SB, 13, 13⟩
abbrev F.LNK_SB.FID : Fld := ⟨.LNK_SB, 12, 0⟩
abbrev F.LNK_SC.CH0 : Fld := ⟨.LNK_SC, 31, 26⟩
abbrev F.LNK_SC.PTIME : Fld := ⟨.LNK_SC, 25, 24⟩
abbrev F.LNK_SC.SFMT : Fld := ⟨.LNK_SC, 23, 22⟩
abbrev F.LNK_SC.VIDX : Fld := ⟨.LNK_SC, 19, 17⟩
abbrev F.FIN_CTL.EN : Fld := ⟨.FIN_CTL, 31, 31⟩
abbrev F.FIN_CTL.TXOFS : Fld := ⟨.FIN_CTL, 15, 0⟩
abbrev F.FIN_CFG.S : Fld := ⟨.FIN_CFG, 15, 0⟩
abbrev F.FIN_THR.LEASH : Fld := ⟨.FIN_THR, 31, 28⟩
abbrev F.FIN_THR.COL : Fld := ⟨.FIN_THR, 27, 24⟩
abbrev F.FIN_THR.AUTHTO : Fld := ⟨.FIN_THR, 23, 16⟩
abbrev F.FIN_THR.SLOW : Fld := ⟨.FIN_THR, 15, 12⟩
abbrev F.FIN_THR.DEGTHR : Fld := ⟨.FIN_THR, 7, 0⟩
abbrev F.FIN_STAT.NACT : Fld := ⟨.FIN_STAT, 15, 8⟩
abbrev F.FIN_STAT.RUN : Fld := ⟨.FIN_STAT, 3, 3⟩
abbrev F.FIN_STAT.BREAK : Fld := ⟨.FIN_STAT, 2, 2⟩
abbrev F.FIN_STAT.BRET : Fld := ⟨.FIN_STAT, 1, 1⟩
abbrev F.FIN_STAT.ARET : Fld := ⟨.FIN_STAT, 0, 0⟩
abbrev F.FIN_BRK.REACH0 : Fld := ⟨.FIN_BRK, 14, 8⟩
abbrev F.FIN_BRK.REACH1 : Fld := ⟨.FIN_BRK, 6, 0⟩
abbrev F.FIN_RDLY.RDA : Fld := ⟨.FIN_RDLY, 31, 16⟩
abbrev F.FIN_RDLY.RDB : Fld := ⟨.FIN_RDLY, 15, 0⟩
abbrev F.FIN_EV.KEYBAD : Fld := ⟨.FIN_EV, 8, 8⟩
abbrev F.FIN_EV.IMPERS : Fld := ⟨.FIN_EV, 7, 7⟩
abbrev F.FIN_EV.RDLONG : Fld := ⟨.FIN_EV, 6, 6⟩
abbrev F.FIN_EV.BREAKEV : Fld := ⟨.FIN_EV, 5, 5⟩
abbrev F.FIN_EV.QUAR : Fld := ⟨.FIN_EV, 4, 4⟩
abbrev F.FIN_EV.DEG : Fld := ⟨.FIN_EV, 3, 3⟩
abbrev F.FIN_EV.SLOWEV : Fld := ⟨.FIN_EV, 2, 2⟩
abbrev F.FIN_EV.ABSENTEV : Fld := ⟨.FIN_EV, 1, 1⟩
abbrev F.FIN_EV.JOINEV : Fld := ⟨.FIN_EV, 0, 0⟩
abbrev F.FIN_ADMIT.GO : Fld := ⟨.FIN_ADMIT, 31, 31⟩
abbrev F.FIN_ADMIT.NODE : Fld := ⟨.FIN_ADMIT, 5, 0⟩
abbrev F.FIN_IMP.DIR : Fld := ⟨.FIN_IMP, 31, 31⟩
abbrev F.FIN_IMP.NODE : Fld := ⟨.FIN_IMP, 29, 24⟩
abbrev F.FIN_IMP.HOP : Fld := ⟨.FIN_IMP, 21, 16⟩
abbrev F.FIN_IMP.SLOT : Fld := ⟨.FIN_IMP, 15, 0⟩
abbrev F.FIN_CNT.COUNT : Fld := ⟨.FIN_CNT, 31, 0⟩
abbrev F.FIN_NCFG.V : Fld := ⟨.FIN_NCFG, 31, 31⟩
abbrev F.FIN_NCFG.AUTH : Fld := ⟨.FIN_NCFG, 21, 21⟩
abbrev F.FIN_NCFG.KEY : Fld := ⟨.FIN_NCFG, 20, 16⟩
abbrev F.FIN_NCFG.EMIN : Fld := ⟨.FIN_NCFG, 11, 6⟩
abbrev F.FIN_NCFG.EMAX : Fld := ⟨.FIN_NCFG, 5, 0⟩
abbrev F.FIN_NSLOT.NSLOT : Fld := ⟨.FIN_NSLOT, 31, 16⟩
abbrev F.FIN_NSLOT.SBASE : Fld := ⟨.FIN_NSLOT, 15, 0⟩
abbrev F.FIN_NST.DEG : Fld := ⟨.FIN_NST, 31, 31⟩
abbrev F.FIN_NST.STATE : Fld := ⟨.FIN_NST, 30, 28⟩
abbrev F.FIN_NST.CAUSE : Fld := ⟨.FIN_NST, 27, 24⟩
abbrev F.FIN_NST.HOPA : Fld := ⟨.FIN_NST, 22, 16⟩
abbrev F.FIN_NST.HOPB : Fld := ⟨.FIN_NST, 14, 8⟩
abbrev F.FIN_NST.MISS : Fld := ⟨.FIN_NST, 3, 0⟩
abbrev F.FIN_NCRED.TXCRED : Fld := ⟨.FIN_NCRED, 31, 16⟩
abbrev F.FIN_NCRED.COLRUN : Fld := ⟨.FIN_NCRED, 7, 0⟩
abbrev F.FIN_NCRC.COUNT : Fld := ⟨.FIN_NCRC, 31, 0⟩
abbrev F.FIN_NLATE.COUNT : Fld := ⟨.FIN_NLATE, 31, 0⟩
abbrev F.FIN_NTX.V1 : Fld := ⟨.FIN_NTX, 31, 31⟩
abbrev F.FIN_NTX.FID1 : Fld := ⟨.FIN_NTX, 28, 16⟩
abbrev F.FIN_NTX.V0 : Fld := ⟨.FIN_NTX, 15, 15⟩
abbrev F.FIN_NTX.FID0 : Fld := ⟨.FIN_NTX, 12, 0⟩
abbrev F.TDM_CTL.EN : Fld := ⟨.TDM_CTL, 31, 31⟩
abbrev F.TDM_CTL.MASTER : Fld := ⟨.TDM_CTL, 30, 30⟩
abbrev F.TDM_CTL.MODE : Fld := ⟨.TDM_CTL, 29, 29⟩
abbrev F.TDM_CTL.DLY : Fld := ⟨.TDM_CTL, 28, 28⟩
abbrev F.TDM_CTL.FSPOL : Fld := ⟨.TDM_CTL, 27, 27⟩
abbrev F.TDM_CTL.BEDGE : Fld := ⟨.TDM_CTL, 26, 26⟩
abbrev F.TDM_CTL.SLOTS : Fld := ⟨.TDM_CTL, 20, 16⟩
abbrev F.TDM_STAT.LOCK : Fld := ⟨.TDM_STAT, 1, 1⟩
abbrev F.TDM_STAT.RUN : Fld := ⟨.TDM_STAT, 0, 0⟩
abbrev F.TDM_EV.MAPBAD : Fld := ⟨.TDM_EV, 2, 2⟩
abbrev F.TDM_EV.SLIP : Fld := ⟨.TDM_EV, 1, 1⟩
abbrev F.TDM_EV.LOSS : Fld := ⟨.TDM_EV, 0, 0⟩
abbrev F.TDM_SLIP.COUNT : Fld := ⟨.TDM_SLIP, 31, 0⟩
abbrev F.TDM_LATE.COUNT : Fld := ⟨.TDM_LATE, 31, 0⟩
abbrev F.TDM_SMAP.V : Fld := ⟨.TDM_SMAP, 31, 31⟩
abbrev F.TDM_SMAP.DIR : Fld := ⟨.TDM_SMAP, 30, 30⟩
abbrev F.TDM_SMAP.CH : Fld := ⟨.TDM_SMAP, 29, 24⟩
abbrev F.TDM_SMAP.FID : Fld := ⟨.TDM_SMAP, 12, 0⟩
abbrev F.SPN_STAT.DN_EV : Fld := ⟨.SPN_STAT, 9, 9⟩
abbrev F.SPN_STAT.UP_EV : Fld := ⟨.SPN_STAT, 8, 8⟩
abbrev F.SPN_STAT.LONE : Fld := ⟨.SPN_STAT, 4, 4⟩
abbrev F.SPN_STAT.UP_STATE : Fld := ⟨.SPN_STAT, 3, 2⟩
abbrev F.SPN_STAT.DN_STATE : Fld := ⟨.SPN_STAT, 1, 0⟩
abbrev F.SPN_CTL.RESTORE : Fld := ⟨.SPN_CTL, 8, 8⟩
abbrev F.SPN_CTL.TIE : Fld := ⟨.SPN_CTL, 1, 0⟩
abbrev F.SPN_RESEND_UP.COUNT : Fld := ⟨.SPN_RESEND_UP, 31, 0⟩
abbrev F.SPN_RESEND_DN.COUNT : Fld := ⟨.SPN_RESEND_DN, 31, 0⟩
abbrev F.SPN_LOAD_UP.CYCLES : Fld := ⟨.SPN_LOAD_UP, 31, 0⟩
abbrev F.SPN_LOAD_DN.CYCLES : Fld := ⟨.SPN_LOAD_DN, 31, 0⟩
abbrev F.REP_STAT.PROG : Fld := ⟨.REP_STAT, 31, 31⟩
abbrev F.REP_STAT.FREE : Fld := ⟨.REP_STAT, 20, 16⟩
abbrev F.REP_STAT.SOFTN : Fld := ⟨.REP_STAT, 12, 8⟩
abbrev F.REP_STAT.FACTN : Fld := ⟨.REP_STAT, 7, 0⟩
abbrev F.REP_EV.PROGFAIL : Fld := ⟨.REP_EV, 3, 3⟩
abbrev F.REP_EV.PROGDONE : Fld := ⟨.REP_EV, 2, 2⟩
abbrev F.REP_EV.FULL : Fld := ⟨.REP_EV, 1, 1⟩
abbrev F.REP_EV.SOFT : Fld := ⟨.REP_EV, 0, 0⟩
abbrev F.REP_CTL.CDWIN : Fld := ⟨.REP_CTL, 31, 16⟩
abbrev F.REP_CTL.CDTHR : Fld := ⟨.REP_CTL, 3, 0⟩
abbrev F.REP_SOFT.V : Fld := ⟨.REP_SOFT, 31, 31⟩
abbrev F.REP_SOFT.KIND : Fld := ⟨.REP_SOFT, 30, 28⟩
abbrev F.REP_SOFT.UNIT : Fld := ⟨.REP_SOFT, 27, 19⟩
abbrev F.REP_SOFT.COL : Fld := ⟨.REP_SOFT, 15, 8⟩
abbrev F.REP_SOFT.SPARE : Fld := ⟨.REP_SOFT, 1, 0⟩
abbrev F.REP_FIELD.V : Fld := ⟨.REP_FIELD, 31, 31⟩
abbrev F.REP_FIELD.KIND : Fld := ⟨.REP_FIELD, 30, 28⟩
abbrev F.REP_FIELD.UNIT : Fld := ⟨.REP_FIELD, 27, 19⟩
abbrev F.REP_FIELD.COL : Fld := ⟨.REP_FIELD, 15, 8⟩
abbrev F.REP_FIELD.SPARE : Fld := ⟨.REP_FIELD, 1, 0⟩
abbrev F.HPT_CTL.CMDMAX : Fld := ⟨.HPT_CTL, 23, 16⟩
abbrev F.HPT_CTL.DBN : Fld := ⟨.HPT_CTL, 15, 8⟩
abbrev F.HPT_CTL.WBEN : Fld := ⟨.HPT_CTL, 1, 1⟩
abbrev F.HPT_CTL.DBEN : Fld := ⟨.HPT_CTL, 0, 0⟩
abbrev F.HPT_STAT.AUTH : Fld := ⟨.HPT_STAT, 7, 7⟩
abbrev F.HPT_STAT.WIDTH : Fld := ⟨.HPT_STAT, 6, 4⟩
abbrev F.HPT_STAT.SPEED : Fld := ⟨.HPT_STAT, 3, 1⟩
abbrev F.HPT_STAT.LINKUP : Fld := ⟨.HPT_STAT, 0, 0⟩
abbrev F.HPT_ERR.STREAMBAD : Fld := ⟨.HPT_ERR, 5, 5⟩
abbrev F.HPT_ERR.APERR : Fld := ⟨.HPT_ERR, 4, 4⟩
abbrev F.HPT_ERR.DESCERR : Fld := ⟨.HPT_ERR, 3, 3⟩
abbrev F.HPT_ERR.RINGCFG : Fld := ⟨.HPT_ERR, 2, 2⟩
abbrev F.HPT_ERR.DBERR : Fld := ⟨.HPT_ERR, 1, 1⟩
abbrev F.HPT_DBBASE_LO.ADDR : Fld := ⟨.HPT_DBBASE_LO, 31, 12⟩
abbrev F.HPT_DBBASE_HI.ADDR : Fld := ⟨.HPT_DBBASE_HI, 31, 0⟩
abbrev F.HPT_WBBASE_LO.ADDR : Fld := ⟨.HPT_WBBASE_LO, 31, 12⟩
abbrev F.HPT_WBBASE_HI.ADDR : Fld := ⟨.HPT_WBBASE_HI, 31, 0⟩
abbrev F.HPT_EVLOST.COUNT : Fld := ⟨.HPT_EVLOST, 31, 0⟩
abbrev F.HPT_DBFAIL.COUNT : Fld := ⟨.HPT_DBFAIL, 31, 0⟩
abbrev F.HPT_CMDCNT.COUNT : Fld := ⟨.HPT_CMDCNT, 31, 0⟩
abbrev F.HPT_APERR.COUNT : Fld := ⟨.HPT_APERR, 31, 0⟩
abbrev F.HPT_RBLO.ADDR : Fld := ⟨.HPT_RBLO, 31, 0⟩
abbrev F.HPT_RBHI.ADDR : Fld := ⟨.HPT_RBHI, 31, 0⟩
abbrev F.HPT_RCFG.EN : Fld := ⟨.HPT_RCFG, 31, 31⟩
abbrev F.HPT_RCFG.TYPE : Fld := ⟨.HPT_RCFG, 30, 28⟩
abbrev F.HPT_RCFG.SIZE : Fld := ⟨.HPT_RCFG, 27, 24⟩
abbrev F.HPT_RCFG.CQ : Fld := ⟨.HPT_RCFG, 21, 16⟩
abbrev F.HPT_RCFG.VEC : Fld := ⟨.HPT_RCFG, 12, 8⟩
abbrev F.HPT_RCFG.MASK : Fld := ⟨.HPT_RCFG, 7, 0⟩
abbrev F.HPT_RSTAT.DEV : Fld := ⟨.HPT_RSTAT, 31, 16⟩
abbrev F.HPT_RSTAT.HOST : Fld := ⟨.HPT_RSTAT, 15, 0⟩
abbrev F.HPT_SMAP.V : Fld := ⟨.HPT_SMAP, 31, 31⟩
abbrev F.HPT_SMAP.Q : Fld := ⟨.HPT_SMAP, 19, 0⟩
abbrev F.HPT_AWLO.ADDR : Fld := ⟨.HPT_AWLO, 31, 0⟩
abbrev F.HPT_AWHI.ADDR : Fld := ⟨.HPT_AWHI, 31, 0⟩
abbrev F.HPT_AWCFG.EN : Fld := ⟨.HPT_AWCFG, 31, 31⟩
abbrev F.HPT_AWCFG.WR : Fld := ⟨.HPT_AWCFG, 30, 30⟩
abbrev F.HPT_AWCFG.SIZE : Fld := ⟨.HPT_AWCFG, 4, 0⟩
abbrev F.PNL_CTL.EN : Fld := ⟨.PNL_CTL, 31, 31⟩
abbrev F.PNL_CTL.WDT : Fld := ⟨.PNL_CTL, 15, 0⟩
abbrev F.PNL_STAT.WDEXP : Fld := ⟨.PNL_STAT, 9, 9⟩
abbrev F.PNL_STAT.IRQ : Fld := ⟨.PNL_STAT, 8, 8⟩
abbrev F.PNL_STAT.TRIGCNT : Fld := ⟨.PNL_STAT, 7, 0⟩
abbrev F.PNL_EV.WRPROT : Fld := ⟨.PNL_EV, 3, 3⟩
abbrev F.PNL_EV.TRIGFULL : Fld := ⟨.PNL_EV, 2, 2⟩
abbrev F.PNL_EV.WDEXP : Fld := ⟨.PNL_EV, 1, 1⟩
abbrev F.PNL_EV.ERR : Fld := ⟨.PNL_EV, 0, 0⟩
abbrev F.PNL_TQ.V : Fld := ⟨.PNL_TQ, 31, 31⟩
abbrev F.PNL_TQ.Q : Fld := ⟨.PNL_TQ, 16, 0⟩
abbrev F.PNL_CNT.COUNT : Fld := ⟨.PNL_CNT, 31, 0⟩
abbrev F.SEC_STAT.KREV : Fld := ⟨.SEC_STAT, 11, 8⟩
abbrev F.SEC_STAT.KPROG : Fld := ⟨.SEC_STAT, 7, 4⟩
abbrev F.SEC_STAT.KEKOK : Fld := ⟨.SEC_STAT, 0, 0⟩
abbrev F.SEC_SLOT.V : Fld := ⟨.SEC_SLOT, 31, 31⟩
abbrev F.SEC_SLOT.TYPE : Fld := ⟨.SEC_SLOT, 23, 16⟩
abbrev F.SEC_SLOT.GEN : Fld := ⟨.SEC_SLOT, 15, 0⟩
abbrev F.TCK_CTL.PTPD : Fld := ⟨.TCK_CTL, 14, 12⟩
abbrev F.TCK_CTL.PTPK : Fld := ⟨.TCK_CTL, 11, 11⟩
abbrev F.TCK_CTL.FNLD : Fld := ⟨.TCK_CTL, 8, 8⟩
abbrev F.TCK_CTL.TODLD : Fld := ⟨.TCK_CTL, 7, 7⟩
abbrev F.TCK_CTL.RATE : Fld := ⟨.TCK_CTL, 6, 6⟩
abbrev F.TCK_CTL.PHASE : Fld := ⟨.TCK_CTL, 5, 4⟩
abbrev F.TCK_CTL.SRC : Fld := ⟨.TCK_CTL, 3, 2⟩
abbrev F.TCK_FRAME.GUARD : Fld := ⟨.TCK_FRAME, 31, 16⟩
abbrev F.TCK_FRAME.FPER : Fld := ⟨.TCK_FRAME, 1, 0⟩
abbrev F.TCK_STAT.DISCLIM : Fld := ⟨.TCK_STAT, 11, 11⟩
abbrev F.TCK_STAT.SRCLOST : Fld := ⟨.TCK_STAT, 10, 10⟩
abbrev F.TCK_STAT.MASTEREV : Fld := ⟨.TCK_STAT, 9, 9⟩
abbrev F.TCK_STAT.HEELMISS : Fld := ⟨.TCK_STAT, 8, 8⟩
abbrev F.TCK_STAT.MASTER : Fld := ⟨.TCK_STAT, 6, 4⟩
abbrev F.TCK_STAT.FLYWHEEL : Fld := ⟨.TCK_STAT, 3, 3⟩
abbrev F.TCK_STAT.HOLDOVER : Fld := ⟨.TCK_STAT, 2, 2⟩
abbrev F.TCK_STAT.LOCK : Fld := ⟨.TCK_STAT, 1, 0⟩
abbrev F.TCK_FN_LO.FN_LO : Fld := ⟨.TCK_FN_LO, 31, 0⟩
abbrev F.TCK_FN_HI.FN_HI : Fld := ⟨.TCK_FN_HI, 15, 0⟩
abbrev F.TCK_TOD.HR : Fld := ⟨.TCK_TOD, 31, 26⟩
abbrev F.TCK_TOD.MIN : Fld := ⟨.TCK_TOD, 25, 19⟩
abbrev F.TCK_TOD.SEC : Fld := ⟨.TCK_TOD, 18, 12⟩
abbrev F.TCK_TOD.MS : Fld := ⟨.TCK_TOD, 11, 0⟩
abbrev F.TCK_DATE.YEAR : Fld := ⟨.TCK_DATE, 31, 16⟩
abbrev F.TCK_DATE.DOW : Fld := ⟨.TCK_DATE, 15, 13⟩
abbrev F.TCK_DATE.MON : Fld := ⟨.TCK_DATE, 12, 8⟩
abbrev F.TCK_DATE.DAY : Fld := ⟨.TCK_DATE, 5, 0⟩
abbrev F.TCK_TODSET.HR : Fld := ⟨.TCK_TODSET, 31, 26⟩
abbrev F.TCK_TODSET.MIN : Fld := ⟨.TCK_TODSET, 25, 19⟩
abbrev F.TCK_TODSET.SEC : Fld := ⟨.TCK_TODSET, 18, 12⟩
abbrev F.TCK_TODSET.MS : Fld := ⟨.TCK_TODSET, 11, 0⟩
abbrev F.TCK_DATESET.YEAR : Fld := ⟨.TCK_DATESET, 31, 16⟩
abbrev F.TCK_DATESET.DOW : Fld := ⟨.TCK_DATESET, 15, 13⟩
abbrev F.TCK_DATESET.MON : Fld := ⟨.TCK_DATESET, 12, 8⟩
abbrev F.TCK_DATESET.DAY : Fld := ⟨.TCK_DATESET, 5, 0⟩
abbrev F.TCK_FNSET_LO.FNSET_LO : Fld := ⟨.TCK_FNSET_LO, 31, 0⟩
abbrev F.TCK_FNSET_HI.FNSET_HI : Fld := ⟨.TCK_FNSET_HI, 15, 0⟩
abbrev F.TCK_SKEW.SKEW : Fld := ⟨.TCK_SKEW, 7, 0⟩
abbrev F.TCK_PPM.PPM : Fld := ⟨.TCK_PPM, 15, 0⟩

end Sys2Proof.Machine
end

