-- ==== Sys2Proof/Machine/State.lean ====
section
/-! DEFINITION. The state of the block, the reasons it stops, and the machine right after reset. -/

namespace Sys2Proof.Machine

/-- Why a command does not run. Every one names a command that cannot arise in the state it meets; the part itself
raises none of them. All are safe: the model stops where the hardware has nothing to do. An event whose occasion is absent
(the end of what is not in progress, an event of a stopped die) is no fault: it leaves the state as it is (log entry 140). -/
inductive Fault where
  /-- An engine operation or event of an engine that issues no bundle: unpowered, outside the work phase, halted, stalled or
  waiting (R57, R68, R115, R160). Safe. -/
  | engineNotIssuing
  /-- A second syllable for a slot of the bundle being issued (R100). Safe. -/
  | slotTaken
  /-- A command that names a die, port or channel the part does not have (R3, R19). Safe. -/
  | noSuchObject
  /-- RESERVED_OPCODE with syllables that no rule reserves (R213). Safe. -/
  | notReserved
  deriving DecidableEq, Repr

/-- Why a command has no meaning here. -/
inductive Refusal where
  /-- No meaning is written for the command. -/
  | notModelled (mnemonic : String)
  deriving DecidableEq, Repr

/-- One shared-bit group in its two copies, 16 bits and three signature bits each (R274). -/
structure BitGroup where
  c0 : BitVec 19
  c1 : BitVec 19
  deriving DecidableEq, Repr

def BitGroup.zero : BitGroup := ⟨0, 0⟩

/-- Package state outside the register map. -/
structure Pkg where
  ports : Store Port := []
  waits : List Wait := []
  arm : Option Arm := none
  early : Option Early := none
  /-- The active copies of the RWS registers before the handover swap (R419). -/
  earlyRegs : Store W32 := []
  /-- Ports with a pending claim, and what RELEASE asked of the holder (R461). -/
  claims : List Nat := []
  released : Bool := false
  /-- Ticks since the copy of the active set to the shadow set began, from 1; 0 when none runs (R405). -/
  copying : Nat := 0
  test : Option Test := none
  boot : Boot := {}
  tap : Tap := {}
  /-- RESET_N is low. -/
  resetLow : Bool := false
  /-- Rounds of ticks begun: the first die to tick in a round does the package's part (R58, R97). -/
  rounds : Nat := 0
  /-- Rounds whose step at cycles 1,280 to 1,535 the host ports have made (R438). -/
  hosted : Nat := 0
  /-- PKG_STATE before the round's ticks (R530). -/
  stateWas : Nat := 1
  /-- What the round's first tick sampled: FPER of the frame that ends, and the FN, and the time and date, to load (R54, R96). -/
  fperWas : Nat := 2
  ldFn : Option Nat := none
  ldTod : Option (W32 × W32) := none
  /-- The fused key hashes (R564). -/
  keyHash : List (BitVec 256) := []
  /-- Field fuse records marked invalid, at 16 × die + record (R611). -/
  badFuse : List Nat := []
  /-- The discipline source in force, and a phase error to steer away (R62, R63). -/
  src : Nat := 0
  phaseErr : Int := 0
  /-- TICK_OUT: the die that drove each pulse, oldest first (R63). -/
  tickOut : List Nat := []
  /-- PPS_OUT: its level, and its edges with the MSC of each, oldest first; MCLK_OUT runs (R596). -/
  ppsHigh : Bool := false
  ppsEdges : List (Nat × Bool) := []
  mclkOut : Bool := false
  deriving DecidableEq, Repr

/-- The machine. -/
structure State where
  /-- The commands that wait, first in first out. -/
  pending : List Instr := []
  /-- The counter that free values are taken from (log entry 1). -/
  fresh : Nat := 0
  variant : Variant := .dxd8064
  stepping : BitVec 4 := 1
  /-- Every register of the map by BAR0 byte address, the active copy of an RWS register at +8000h. -/
  regs : Store W32 := []
  /-- Engine e of die d at 64 × d + e (R23). -/
  engs : Store Eng := []
  dies : Store Die := []
  /-- Shared memory and mailboxes by package-memory PA (R26, R27). -/
  shm : Store Stored := []
  /-- Shared-bit group g of die d at 4096 × d + g (R274). -/
  sbits : Store BitGroup := []
  /-- Block h of die d at 65536 × d + h (R322). -/
  blks : Store Block := []
  /-- Queues by global number (R23), their parameters active and shadow (R339). -/
  ques : Store Queue := []
  qpA : Store QParam := []
  qpS : Store QParam := []
  /-- Flows by global number (R23): C0 to C3 active and shadow, and C4 to C7 (R347). -/
  flA : Store FlowP := []
  flS : Store FlowP := []
  flSt : Store FlowS := []
  /-- What FLW_VIEW shows: the shadow words and the state words as the last queue-commit step left them (R364, R365). -/
  flViewS : Store FlowP := []
  flView : Store FlowS := []
  /-- Leaf n of die d at 16384 × d + n (R75). -/
  leaves : Store Leaf := []
  /-- Finolrus node n of die d at 64 × d + n. -/
  fin : Store FinNode := []
  /-- Events that arose and are not yet passed to the host ports (R451). -/
  events : List Event := []
  pkg : Pkg := {}
  deriving DecidableEq, Repr

/-- The machine right after reset: every register at its table's value, every memory with nothing listed, and the event of the
change from OFF to BOOT (R557, R559). -/
def State.reset : State := { events := [⟨0x300, 255, 7, 0, [1, 0]⟩] }

end Sys2Proof.Machine
end

