-- ==== Sys2Proof/Machine/Ops.lean ====
section
/-! DEFINITION. The named operations over registers, memories, engines and dies that every meaning uses. -/

namespace Sys2Proof.Machine

/-! ### Free values (R8, log entry 1) -/

/-- The free value number `n`, cut to `w` bits. -/
def freeBits (w n : Nat) : BitVec w := (Config.freeValue n).setWidth w

/-- A free choice below `k` (0 when `k` is 0). -/
def freeNat (k n : Nat) : Nat := if k = 0 then 0 else (Config.freeValue n).toNat % k

/-- The state with its free-value counter advanced by `n`. -/
def State.useFree (s : State) (n : Nat) : State := { s with fresh := s.fresh + n }

/-! ### Engines and dies -/

/-- Engine e of die d. -/
def State.eng (s : State) (d e : Nat) : Eng := s.engs.get {} (64 * d + e)

def State.setEng (s : State) (d e : Nat) (x : Eng) : State := { s with engs := s.engs.set {} (64 * d + e) x }

def State.die (s : State) (d : Nat) : Die := s.dies.get {} d

def State.setDie (s : State) (d : Nat) (x : Die) : State := { s with dies := s.dies.set {} d x }

/-- Die d is populated (R3). -/
def State.populated (s : State) (d : Nat) : Bool := decide (d < s.variant.dies)

/-! ### The register map -/

/-- The registers of R97 that the package holds once; every window shows FD0's cell. -/
def RegName.pkgHeld : RegName → Bool
  | .TCK_CTL | .TCK_FRAME | .TCK_TODSET | .TCK_DATESET | .TCK_FNSET_LO | .TCK_FNSET_HI => true
  | _ => false

/-- The cell of a register: its own address, or FD0's for a register of R97. -/
def RegName.cell (r : RegName) (d : Nat) (idx : List Nat) : Nat := r.addr (if r.pkgHeld then 0 else d) idx

/-- The register (the shadow copy of an RWS register). -/
def State.reg (s : State) (r : RegName) (d : Nat) (idx : List Nat) : W32 := s.regs.get r.desc.reset (r.cell d idx)

def State.setReg (s : State) (r : RegName) (d : Nat) (idx : List Nat) (v : W32) : State :=
  { s with regs := s.regs.set r.desc.reset (r.cell d idx) v }

/-- The active copy of an RWS register, at +8000h (R9). -/
def State.act (s : State) (r : RegName) (d : Nat) (idx : List Nat) : W32 := s.regs.get r.desc.reset (r.cell d idx + 0x8000)

def State.setAct (s : State) (r : RegName) (d : Nat) (idx : List Nat) (v : W32) : State :=
  { s with regs := s.regs.set r.desc.reset (r.cell d idx + 0x8000) v }

/-- A field of a register, of its shadow copy where it is RWS. -/
def State.f (s : State) (x : Fld) (d : Nat) (idx : List Nat) : Nat := field (s.reg x.reg d idx) x.hi x.lo

def State.setF (s : State) (x : Fld) (d : Nat) (idx : List Nat) (v : Nat) : State :=
  s.setReg x.reg d idx (setField (s.reg x.reg d idx) x.hi x.lo v)

/-- A field of the active copy. -/
def State.fa (s : State) (x : Fld) (d : Nat) (idx : List Nat) : Nat := field (s.act x.reg d idx) x.hi x.lo

/-- The register values in force: the full map, or at `early` the map of Early Service (R419). -/
def State.mapRegs (s : State) (early : Bool) : Store W32 := if early then s.pkg.earlyRegs else s.regs

/-- An active register of a map. -/
def mapAct (m : Store W32) (r : RegName) (d : Nat) (idx : List Nat) : W32 := m.get r.desc.reset (r.cell d idx + 0x8000)

def State.setFa (s : State) (x : Fld) (d : Nat) (idx : List Nat) (v : Nat) : State :=
  s.setAct x.reg d idx (setField (s.act x.reg d idx) x.hi x.lo v)

/-- The largest value of a field. -/
def Fld.top (x : Fld) : Nat := 2 ^ (x.hi + 1 - x.lo) - 1

/-- A counter that stops at its maximum, raised by `n`. -/
def State.addF (s : State) (x : Fld) (d : Nat) (idx : List Nat) (n : Nat) : State :=
  s.setF x d idx (min (s.f x d idx + n) x.top)

/-- A counter that stops at its maximum, raised by 1. -/
def State.incF (s : State) (x : Fld) (d : Nat) (idx : List Nat) : State := s.addF x d idx 1

/-- A status bit set by hardware. -/
def State.raise (s : State) (x : Fld) (d : Nat) (idx : List Nat) : State := s.setF x d idx 1

/-! ### The frame and the package -/

/-- FN of die d (R53). -/
def State.fn (s : State) (d : Nat) : Nat := s.f F.TCK_FN_HI.FN_HI d [] * 4294967296 + s.f F.TCK_FN_LO.FN_LO d []

/-- PKG_STATE.STATE (R556): 0 OFF, 1 BOOT, 2 EARLY, 3 FULL, 4 TEST, 5 RECOVERY. -/
def State.pkgState (s : State) : Nat := s.f F.PKG_STATE.STATE 0 []

/-- Die d has been declared lost by some surviving die (R390). -/
def State.lost (s : State) (d : Nat) : Bool :=
  (List.range 8).any (fun i => decide (i ≠ d) && s.populated i && !(s.die i).stopped && (s.reg .DIE_LOST i []).getLsbD d)

/-- Die d is populated, runs and is not lost. -/
def State.live (s : State) (d : Nat) : Bool := s.populated d && !(s.die d).stopped && !s.lost d

/-- The dies that run. -/
def State.liveDies (s : State) : List Nat := (List.range 8).filter s.live

/-- An event of R450 that arose, to be written to the event rings (R451). `die` is FFh for the package. -/
def State.event (s : State) (code die cls : Nat) (ps : List Nat) : State :=
  let fn := if die < 8 then s.fn die else s.fn (s.liveDies.headD 0)
  { s with events := s.events ++ [⟨code, die, cls, fn, ps⟩] }

/-! ### Column defects (R277) -/

/-- Columns of an array by kind (R276); of a queue and flow memory array, all that COL can name. -/
def columns (kind : Nat) : Nat := if kind = 1 then 152 else if kind = 3 then 256 else 21

/-- Columns lie in classes, one for each check: bit i of a word in check i mod 3, of a bundle in check i mod 8 (R366, R276). -/
def checks (kind : Nat) : Nat := if kind = 1 then 8 else if kind = 3 then 1 else 3

/-- A detected error at a stored word is noted for R277, once for each check in `fails` that fails. Which column of the check's class is at
fault is free: no check names one (log entry 148). -/
def State.colErr (s : State) (d kind unit row : Nat) (fails : List Nat) : State :=
  let n := columns kind / checks kind
  let cols := if fails.isEmpty then [freeNat (columns kind) s.fresh] else fails.mapIdx (fun i k => k + checks kind * freeNat n (s.fresh + i))
  (s.setDie d { s.die d with colErrs := (s.die d).colErrs ++ cols.map (fun c => ⟨kind, unit, row, c, s.fn d⟩) }).useFree cols.length

/-! ### Package memory -/

/-- The stored word at package-memory PA `pa` (R26, R254). -/
def State.word (s : State) (pa : Nat) : Stored := s.shm.get 0 pa

def State.setWord (s : State) (pa : Nat) (v : Stored) : State := { s with shm := s.shm.set 0 pa v }

/-- The PA of word `w` of shared bank `b` of die `d` (R26, R27). -/
def bankPa (d b w : Nat) : Nat := d * 8589934592 + b * 1048576 + w

/-- The die of a package-memory PA. -/
def paDie (pa : Nat) : Nat := pa / 8589934592

/-- The word offset within the die. -/
def paOff (pa : Nat) : Nat := pa % 8589934592

/-- The bank and the word of a shared-memory PA. -/
def paBank (pa : Nat) : Nat := paOff pa / 1048576

/-- Whether a PA lies in shared memory (R27). -/
def paShared (pa : Nat) : Bool := decide (paOff pa < 67108864)

/-- Whether a PA lies in a panel mailbox (R27). -/
def paMailbox (pa : Nat) : Bool := decide (67108864 ≤ paOff pa ∧ paOff pa < 67112960)

/-- Whether a bank takes part in a formed pair (R265). -/
def State.formed (s : State) (d b : Nat) : Bool := decide (s.f F.SHM_TWIN.FORMED d [b] = 1)

/-- The PA of the twin of a word in a bank with a twin entry. -/
def State.twinPa (s : State) (pa : Nat) : Nat :=
  let d := paDie pa; let b := paBank pa
  bankPa (s.f F.SHM_TWIN.DIE d [b]) (s.f F.SHM_TWIN.BANK d [b]) (pa % 1048576)

/-- A shared bank is ON (R262). -/
def State.bankOn (s : State) (d b : Nat) : Bool := decide (s.f F.SHM_PWR.PSTAT d [b] = 0)

/-- Whether the maintenance path reaches a word: its bank is ON, or it lies in a mailbox (R257, R262). -/
def State.reaches (s : State) (pa : Nat) : Bool := !paShared pa || s.bankOn (paDie pa) (paBank pa)

/-- A write of a stored word that reaches both banks of a formed pair, the other one by mirroring (R262, R267). -/
def State.putWord (s : State) (pa : Nat) (v : Stored) : State :=
  let s1 := s.setWord pa v
  if paShared pa && s.formed (paDie pa) (paBank pa) && s.reaches (s.twinPa pa) then s1.setWord (s.twinPa pa) v else s1

/-- A write of the maintenance path: nothing in a bank that is not ON (R257, R262). -/
def State.mendWord (s : State) (pa : Nat) (v : Stored) : State := if s.reaches pa then s.putWord pa v else s

/-- A write of consecutive words by the maintenance path. -/
def State.mendWords (s : State) (pa : Nat) : List W18 → State
  | [] => s
  | w :: ws => State.mendWords (s.mendWord pa (enc18 w)) (pa + 1) ws

/-- A write of consecutive words. -/
def State.putWords (s : State) (pa : Nat) : List W18 → State
  | [] => s
  | w :: ws => State.putWords (s.putWord pa (enc18 w)) (pa + 1) ws

/-- A read of one side and a write of the other meet at one mailbox word of die `k` in one cycle (R272, R273). -/
def State.mboxClash (s : State) (k : Nat) : State :=
  if s.f F.SHM_MBX.PRI k [] = 0 then
    let t := s.raise F.SHM_MBX.PCOLL k []
    t.setDie k { t.die k with panel := { (t.die k).panel with busy := true } }
  else s.raise F.SHM_MBX.ICOLL k []

/-- The panel side wrote a mailbox word in the cycle of the internal side's next access to it (R272). -/
def State.hotWord (s : State) (pa : Nat) : Bool := paMailbox pa && (s.die (paDie pa)).panel.hot.contains (pa % 4096)

/-- That access is made. -/
def State.coolWord (s : State) (pa : Nat) : State :=
  let x := s.die (paDie pa)
  s.setDie (paDie pa) { x with panel := { x.panel with hot := x.panel.hot.erase (pa % 4096) } }

/-- What the internal side reads of a word that holds `w`: where it met a write of the panel side, an undefined value and a conflict (R8, R272). -/
def State.hotRead (s : State) (pa : Nat) (w : W18) : State × W18 :=
  if s.hotWord pa then (((s.coolWord pa).mboxClash (paDie pa)).useFree 1, freeBits 18 s.fresh) else (s, w)

/-- A panel port is served (R573). -/
def State.panelOn (s : State) (k : Nat) : Bool :=
  s.live k && decide (s.pkgState = 2 ∨ s.pkgState = 3 ∨ s.pkgState = 4) && decide (s.f F.PNL_CTL.EN k [] = 1)

/-- A write of the internal side reached a mailbox word: 07FFh and 0803h lower PNL_IRQ_N of a port that is served (R573, R581). A port that is not served
keeps the pin high, and nothing of the write is left for the time when it is (DESIGN CHOICE, log entry 187). -/
def State.mboxNote (s : State) (d w : Nat) : State := if (w = 0x7FF ∨ w = 0x803) ∧ s.panelOn d = true then s.raise F.PNL_STAT.IRQ d [] else s

/-- A write of the internal side to a mailbox word; where both sides write it in one cycle, the later side's value remains (R272, R581). -/
def State.putMbox (s : State) (pa : Nat) (v : Stored) : State :=
  let hot := s.hotWord pa
  let t := if hot then s.coolWord pa else s
  (if hot = true ∧ s.f F.SHM_MBX.PRI (paDie pa) [] = 0 then t else t.setWord pa v).mboxNote (paDie pa) (pa % 4096)

/-- A far write of one word of package memory. -/
def State.putFar (s : State) (pa : Nat) (w : W18) : State := if paMailbox pa then s.putMbox pa (enc18 w) else s.putWord pa (enc18 w)

/-- A detected error in a shared or mailbox word, noted for R277. -/
def State.colErrAt (s : State) (pa : Nat) : State :=
  if paShared pa then s.colErr (paDie pa) 2 (paBank pa * 8 + pa % 8) (pa % 1048576 / 8) (fails18 (s.word pa))
  else s.colErr (paDie pa) 4 0 (pa % 4096) (fails18 (s.word pa))

/-- What the copies of a shared or mailbox word give (R268, R366): the word, whether it is good, and the state after the
repair from a twin in SYNC. -/
def State.fixWord (s : State) (pa : Nat) : State × W18 × Bool :=
  let v := s.word pa
  if ok18 v then (s, data18 v, true)
  else
    let d := paDie pa; let b := paBank pa
    if paShared pa = true ∧ s.f F.SHM_TWIN.EN d [b] = 1 then
      if s.formed d b = true ∧ s.f F.SHM_TWIN.SYNC d [b] = 1 ∧ s.reaches (s.twinPa pa) = true ∧ ok18 (s.word (s.twinPa pa)) = true then
        let t := s.word (s.twinPa pa)
        (s.setWord pa t, data18 t, true)
      else (s.raise F.SHM_STAT.TWINBAD d [], data18 v, false)
    else (s, data18 v, false)

/-- A read of a shared or mailbox word (R268, R277, R366); an error that its twin repairs is noted for R277 here, and one that remains by the reader. -/
def State.readWord (s : State) (pa : Nat) : State × W18 × Bool :=
  if ok18 (s.word pa) || !(s.fixWord pa).2.2 then s.fixWord pa else (s.colErrAt pa).fixWord pa

/-- Reads of `n` consecutive words: the words and the PAs that fail. -/
def State.readWords (s : State) (pa : Nat) : Nat → State × List W18 × List Nat
  | 0 => (s, [], [])
  | n + 1 =>
    let (s1, w, ok) := s.readWord pa
    let (s2, ws, bad) := State.readWords s1 (pa + 1) n
    (s2, w :: ws, if ok then bad else pa :: bad)

/-- The stored words of a bank of PAs `lo` to `lo + n − 1`, replaced by those of `m`. -/
def State.setBank (s : State) (lo n : Nat) (m : Store Stored) : State :=
  { s with shm := s.shm.filter (fun e => decide (e.1 < lo)) ++ m ++ s.shm.filter (fun e => decide (lo + n ≤ e.1)) }

/-- The listed words of a range, moved to `dst`. -/
def State.bankWords (s : State) (lo n dst : Nat) : Store Stored :=
  (s.shm.filter (fun e => decide (lo ≤ e.1 ∧ e.1 < lo + n))).map (fun e => (e.1 - lo + dst, e.2))

end Sys2Proof.Machine
end

