-- ==== Sys2Proof/Machine/Flags.lean ====
section
/-! DEFINITION. Engine registers as operations see them, and every flag computation (R103 to R106, R176, R193). -/

namespace Sys2Proof.Machine

/-- ST.SH (R106): the shadow set is in use. -/
def Eng.sh (x : Eng) : Bool := x.st.getLsbD 2
/-- User mode (R106). -/
def Eng.user (x : Eng) : Bool := !x.st.getLsbD 0

/-- The physical index of D(i), A(n) or M(n), and AC(n) in a register set (R103). -/
def physD (sh : Bool) (i : Nat) : Nat := if sh && decide (8 ≤ i) then i + 8 else i
def physA (sh : Bool) (n : Nat) : Nat := if sh && decide (4 ≤ n) then n + 4 else n
def physAC (sh : Bool) (n : Nat) : Nat := if sh && decide (6 ≤ n) then n + 2 else n

def Eng.rd (x : Eng) (i : Nat) : W18 := x.d.get 0 (physD x.sh i)
def Eng.ra (x : Eng) (n : Nat) : BitVec 16 := x.a.get 0 (physA x.sh n)
def Eng.rm (x : Eng) (n : Nat) : BitVec 16 := x.m.get 0 (physA x.sh n)
def Eng.rac (x : Eng) (n : Nat) : W54 := x.ac.get 0 (physAC x.sh n)
/-- DDn = D(2n+1):D(2n) (R103). -/
def Eng.rdd (x : Eng) (n : Nat) : W36 := x.rd (2 * n + 1) ++ x.rd (2 * n)
/-- FL of the set in use. -/
def Eng.flags (x : Eng) : BitVec 7 := if x.sh then x.flS else x.fl

def Eng.flC (x : Eng) : Bool := x.flags.getLsbD 0
def Eng.flZ (x : Eng) : Bool := x.flags.getLsbD 1
def Eng.flN (x : Eng) : Bool := x.flags.getLsbD 2
def Eng.flV (x : Eng) : Bool := x.flags.getLsbD 3
def Eng.flDC (x : Eng) : Bool := x.flags.getLsbD 5

/-- ST as read: LSP in [8:6] is the depth of the loop stack (R105, R106). -/
def Eng.stWord (x : Eng) : W18 := (x.st &&& 0x3FE3F#18) ||| BitVec.ofNat 18 (x.loops.length * 64)

/-- A local bit as software reads it (R200): bit 40 while the store buffer has a free entry (R189), bit 44 while it is empty
(R310), and 16 to 31 read 0. -/
def Eng.lbit (x : Eng) (i : Nat) : Bool :=
  if i = 40 then decide (x.sbuf.length < 8)
  else if i = 44 then x.sbuf.isEmpty
  else if 16 ≤ i ∧ i < 32 then false
  else x.bits.get false i

/-- The pending interrupt lines (R105, R143): bit i is local bit i AND IMASK bit i. -/
def Eng.ipend (x : Eng) : BitVec 16 :=
  (List.range 16).foldl (fun a i => if x.lbit i && x.imask.getLsbD i then a ||| BitVec.twoPow 16 i else a) 0

/-- The latest chained result on the way to a register, wherever it waits (R113, R190, R196). -/
def lastChain (f : Wr → Option α) : List PendW → Option α
  | [] => none
  | p :: l => match lastChain f l with
    | some v => some v
    | none => if p.chain then f p.wr else none

/-- The chained results still on the way that an operation reads: those of the running code, and those that an entry left in the
pending-write file unless the handler has written the register since (R113, R148). -/
def Eng.chainOf (x : Eng) (key : Nat) (f : Wr → Option α) : Option α :=
  (lastChain f x.pw) <|> (if x.hand.contains key then none else lastChain f x.pwf)

/-- The accumulator that a chained operation reads (R113, R190). -/
def Eng.chainAC (x : Eng) (n : Nat) : W54 :=
  let i := physAC x.sh n
  let f : Wr → Option W54 := fun w => match w with | .ac j v => if j = i then some v else none | _ => none
  (x.chainOf i f).getD (x.rac n)

/-- The BXS that a chained operation reads (R196, R227). -/
def Eng.chainBXS (x : Eng) : BitVec 5 :=
  let f : Wr → Option (BitVec 5) := fun w => match w with | .bxs v => some v | _ => none
  (x.chainOf 100 f).getD x.bxs

/-- A lane of VA that a chained operation reads (R224). -/
def Eng.chainVA (x : Eng) (r i : Nat) : W54 :=
  let f : Wr → Option W54 := fun w => match w with
    | .va j ls => if j = r then (ls.find? (fun p => decide (p.1 = i))).map Prod.snd else none
    | _ => none
  (x.chainOf (200 + 16 * r + i) f).getD (x.va.get 0 (16 * r + i))

/-- The keys of the chained registers that a write changes, for `Eng.hand`. -/
def Wr.keys : Wr → List Nat
  | .ac i _ => [i]
  | .bxs _ => [100]
  | .va i ls => ls.map (fun p => 200 + 16 * i + p.1)
  | _ => []

/-! ### Flag masks and values: C 0, Z 1, N 2, V 3, SV 4, DC 5, SAT 6 (R105) -/

/-- A flag write in the set in use: pairs of bit and value. -/
def flagBits (l : List (Nat × Bool)) : BitVec 7 × BitVec 7 :=
  l.foldl (fun (m, v) (i, b) => (m ||| BitVec.twoPow 7 i, if b then v ||| BitVec.twoPow 7 i else v)) (0, 0)

/-- The effects of a flag write of latency `lat`: V also sets SV for an X-class operation (R176). -/
def flagFx (sh : Bool) (lat : Nat) (l : List (Nat × Bool)) : List Fx :=
  let (m, v) := flagBits l
  .wr lat (.fl sh m v) :: (if m.getLsbD 3 && v.getLsbD 3 then [.wr lat (.flSet sh 0x10#7)] else [])

/-- A set of sticky SV and SAT (R176). -/
def stickyFx (sh : Bool) (lat : Nat) (sv sat : Bool) : List Fx :=
  if sv || sat then [.wr lat (.flSet sh ((if sv then 0x10#7 else 0) ||| (if sat then 0x40#7 else 0)))] else []

/-- Carry out of an 18-bit sum (R176). -/
def addC18 (a b : W18) (c : Bool) : Bool := decide (262144 ≤ a.toNat + b.toNat + c.toNat)
/-- C of a difference: no borrow (R176), with the borrow input of SUBB. -/
def subC18 (a b : W18) (bin : Bool) : Bool := decide (b.toNat + bin.toNat ≤ a.toNat)
/-- Signed overflow of an exact result. -/
def ovf18 (r : Int) : Bool := decide (r < -131072) || decide (131071 < r)
def ovf36 (r : Int) : Bool := decide (r < -34359738368) || decide (34359738367 < r)

/-- Z and N of a word. -/
def znOf (r : W18) : List (Nat × Bool) := [(1, decide (r = 0)), (2, r.getLsbD 17)]

/-- The condition codes of R202. -/
def Eng.cond (x : Eng) (c : Nat) : Bool :=
  match c with
  | 0 => x.flZ | 1 => !x.flZ | 2 => x.flC | 3 => !x.flC | 4 => x.flN | 5 => !x.flN | 6 => x.flV | 7 => !x.flV
  | 8 => !x.flZ && (x.flN == x.flV) | 9 => x.flN == x.flV | 10 => x.flN != x.flV | 11 => x.flZ || (x.flN != x.flV)
  | 12 => x.flC && !x.flZ | 13 => !x.flC || x.flZ | 14 => x.flDC | _ => true

end Sys2Proof.Machine
end

