-- ==== Sys2Proof/Machine/Spine.lean ====
section
/-! DEFINITION. The spine ring (R34 to R45): routes, message order, resends, DOWN directions and retraining. -/

namespace Sys2Proof.Machine

/-- The neighbour of die d in a direction. -/
def State.next (s : State) (d : Nat) (dir : Dir) : Nat :=
  let n := s.variant.dies
  match dir with
  | .up => (d + 1) % n
  | .dn => (d + n - 1) % n

def Dir.flip : Dir → Dir
  | .up => .dn
  | .dn => .up

/-- Hops from src to dst in a direction. -/
def State.hops (s : State) (src dst : Nat) (dir : Dir) : Nat :=
  let n := s.variant.dies
  match dir with
  | .up => (dst + n - src) % n
  | .dn => (src + n - dst) % n

/-- The state field of an outbound direction (R44). -/
def spnField : Dir → Fld
  | .up => F.SPN_STAT.UP_STATE
  | .dn => F.SPN_STAT.DN_STATE

def State.seg (s : State) (d : Nat) : Dir → Segment
  | .up => (s.die d).up
  | .dn => (s.die d).dn

def State.setSeg (s : State) (d : Nat) (dir : Dir) (g : Segment) : State :=
  match dir with
  | .up => s.setDie d { s.die d with up := g }
  | .dn => s.setDie d { s.die d with dn := g }

/-- Whether a direction out of a die carries messages: OK or RESENDING, and the neighbour runs (R41). -/
def State.segUp (s : State) (d : Nat) (dir : Dir) : Bool :=
  decide (s.f (spnField dir) d [] < 2) && s.live (s.next d dir)

/-- Whether every hop of a route carries messages. -/
def State.routeUp (s : State) (dir : Dir) : Nat → Nat → Bool
  | 0, _ => true
  | n + 1, d => s.segUp d dir && State.routeUp s dir n (s.next d dir)

/-- No message gets from die a to die b, in either direction (R67). -/
def State.cutOff (s : State) (a b : Nat) : Bool := !s.routeUp .up (s.hops a b .up) a && !s.routeUp .dn (s.hops a b .dn) a

/-- The direction of a message from src to dst (R36, R40), and the alternation after it. -/
def State.route (s : State) (src dst : Nat) : Dir × State :=
  let u := s.hops src dst .up
  let dn := s.hops src dst .dn
  let tie := s.f F.SPN_CTL.TIE src []
  let alt := (s.die src).tie.get false dst
  let (want, s1) : Dir × State :=
    if u < dn then (.up, s) else if dn < u then (.dn, s)
    else if tie = 1 then (.up, s) else if tie = 2 then (.dn, s)
    else (if alt then .dn else .up, s.setDie src { s.die src with tie := (s.die src).tie.set false dst (!alt) })
  if s.routeUp want (s.hops src dst want) src then (want, s1)
  else if s.routeUp want.flip (s.hops src dst want.flip) src then (want.flip, s1)
  else (want, s1)

/-- The spine cycles of a message (R35). -/
def MsgBody.cycles : MsgBody → Nat
  | .block .. => 5
  | .void => 0
  | _ => 1

/-- Put a message at the end of an outbound direction's local or through traffic (R38). -/
def State.enqueueSeg (s : State) (d : Nat) (dir : Dir) (through : Bool) (m : Msg) : State :=
  let g := s.seg d dir
  s.setSeg d dir (if m.body = .test then { g with tests := g.tests ++ [m] }
    else if through then { g with through := g.through ++ [m] } else { g with queue := g.queue ++ [m] })

/-- The message that a port sends next, as its current one: through and local messages in turn while both wait, test messages when nothing
else does (R38, R552). No other message of the port passes one whose resend is due (DESIGN CHOICE, log entry 176). -/
def Segment.pick (g : Segment) : Option (Msg × Segment) :=
  match g.cur with
  | some (m, _) => some (m, g)
  | none =>
    match g.through, g.queue, g.tests with
    | t :: ts, l :: ls, _ =>
      if g.turn then some (l, { g with queue := ls, cur := some (l, false), turn := false })
      else some (t, { g with through := ts, cur := some (t, true), turn := true })
    | t :: ts, [], _ => some (t, { g with through := ts, cur := some (t, true), turn := false })
    | [], l :: ls, _ => some (l, { g with queue := ls, cur := some (l, false), turn := false })
    | [], [], t :: ts => some (t, { g with tests := ts, cur := some (t, false), turn := false })
    | [], [], [] => none

/-- Every message of a direction, oldest first in each class, with whether it is through traffic. -/
def Segment.all (g : Segment) : List (Msg × Bool) :=
  g.cur.toList ++ g.through.map (fun m => (m, true)) ++ (g.queue ++ g.tests).map (fun m => (m, false))

/-- Send a message with the next sequence number of its pair (R37). -/
def State.spineSend (s : State) (src dst : Nat) (b : MsgBody) : State :=
  let n := (s.die src).seqTx.get 0 dst
  let s1 := s.setDie src { s.die src with seqTx := (s.die src).seqTx.set 0 dst (n + 1) }
  let (dir, s2) := s1.route src dst
  s2.enqueueSeg src dir false ⟨src, dst, n, b⟩

/-- Send a message to every other die in both directions, both copies over the other one where a direction is DOWN (R40, R66, R389, R411, R412). -/
def State.spineFlood (s : State) (src : Nat) (b : MsgBody) : State :=
  let dies := (List.range 8).filter (fun d => decide (d ≠ src) && s.populated d)
  let seqs := dies.map (fun d => (d, (s.die src).seqTx.get 0 d))
  let s1 := s.setDie src { s.die src with seqTx := seqs.foldl (fun q p => q.set 0 p.1 (p.2 + 1)) (s.die src).seqTx }
  let one (t : State) (dir : Dir) : State :=
    let on := if t.segUp src dir = false ∧ t.segUp src dir.flip = true then dir.flip else dir
    t.enqueueSeg src on false ⟨src, src, 0, .flood on seqs b⟩
  one (one s1 .up) .dn

/-- The messages that mirror `n` words written at `pa` to the other bank of a formed pair, from the home bank's die (R35, R267). The words land in both
banks when the write completes, and the messages carry their cycles (DESIGN CHOICE, log entry 180). -/
def State.mirror (s : State) (pa n : Nat) : State :=
  let q := s.twinPa pa
  if paShared pa && s.formed (paDie pa) (paBank pa) && s.live (paDie pa) && s.live (paDie q) then
    let home := decide (s.f F.SHM_TWIN.HOME (paDie pa) [paBank pa] = 1)
    let (a, b) := if home then (paDie pa, paDie q) else (paDie q, paDie pa)
    (List.range ((n + 15) / 16)).foldl (fun t _ => t.spineSend a b .mirror) s
  else s

/-- Engine e still waits for the access with token k: it is neither performed nor given up. -/
def Eng.holds (x : Eng) (k : Nat) : Bool :=
  (x.far ++ x.farOld).any (fun w => w.toks.contains k) || x.sbuf.any (fun b => b.toks.contains k) ||
    x.xfers.any (fun t => !t.moved && t.toks.contains k)

/-- Whether no access that die g was delivered before those with tokens `ks` of engine e of die d, from the same die, has still to be performed
(R37). -/
def State.inTurn (s : State) (d e : Nat) (ks : List Nat) : Bool :=
  (List.range 8).all (fun g => !s.live g || ks.all (fun k =>
    let l := (s.die g).served
    !l.contains (d, e, k) || (l.takeWhile (fun t => decide (t ≠ (d, e, k)))).all (fun t =>
      decide (t.1 ≠ d) || (decide (t.2.1 = e) && ks.contains t.2.2) || !(s.eng d t.2.1).holds t.2.2)))

/-- An access of engine e of die `src` has been delivered to die d, which performs those of one die in this order. -/
def State.queueAccess (s : State) (d src e tok : Nat) : State :=
  let x := s.die d
  s.setDie d { x with served := x.served.filter (fun t => (s.eng t.1 t.2.1).holds t.2.2) ++ [(src, e, tok)] }

/-- An access of an engine is over: it no longer waits for its token (R35). -/
def State.endAccess (s : State) (d e tok : Nat) : State :=
  let x := s.eng d e
  s.setEng d e { x with toks := x.toks.filter (fun t => decide (t ≠ tok)) }

/-- A delivered message: presence, FAULT, vote, trigger, access and test messages act at once, a host port's access acts with its delivery, and the
others wait in the inbox. -/
def State.deliver (s : State) (d : Nat) (m : Msg) : State :=
  let x := s.die d
  match m.body with
  | .presence => s.setDie d { x with heard := m.src :: x.heard.filter (fun i => decide (i ≠ m.src)) }
  | .fault => s.setDie d { x with faults := m.src :: x.faults.filter (fun i => decide (i ≠ m.src)) }
  | .vote c => s.setDie d { x with votes := x.votes ++ [(m.src, c)] }
  | .test | .void | .mirror | .query | .flood .. => s
  | .host p a => s.setDie d { x with due := x.due ++ [(p, a)] }
  | .trigger due ws => s.setDie d { x with trigs := x.trigs ++ ws.map (fun w => (due, w)) }
  | .access e tok reply =>
    let s1 := s.queueAccess d m.src e tok
    if reply then s1.spineSend d m.src (.answer e tok) else s1.endAccess m.src e tok
  | .answer e tok => s.endAccess d e tok
  | _ => s.setDie d { x with inbox := x.inbox ++ [m] }

/-- Deliver in sequence order the messages of one source that have arrived (R37). -/
def State.drain (s : State) (d src : Nat) : Nat → State
  | 0 => s
  | n + 1 =>
    let x := s.die d
    let want := x.seqRx.get 0 src
    match x.early.find? (fun m => decide (m.src = src ∧ m.seq = want)) with
    | none => s
    | some m =>
      let s1 := s.setDie d { x with early := x.early.filter (fun m => !decide (m.src = src ∧ m.seq = want)),
                                    seqRx := x.seqRx.set 0 src (want + 1) }
      State.drain (s1.deliver d m) d src n

/-- A message for die d has arrived: it is delivered in its turn, a second copy of one number being dropped (R37). -/
def State.arrive (s : State) (d : Nat) (m : Msg) : State :=
  let x := s.die d
  if m.seq < x.seqRx.get 0 m.src ∨ x.early.any (fun y => decide (y.src = m.src ∧ y.seq = m.seq)) = true then s
  else (s.setDie d { x with early := x.early ++ [m] }).drain d m.src (x.early.length + 1)

/-- A spine test message of a die is lost (R552). -/
def State.loseTest (s : State) (src : Nat) (dir : Dir) : State :=
  let x := s.die src
  s.setDie src (match dir with
    | .up => { x with lostUp := x.lostUp + 1 }
    | .dn => { x with lostDn := x.lostDn + 1 })

/-- A message with a number that is lost: later ones of its pair are delivered without it (R37). -/
def State.skipSeq (s : State) (m : Msg) : State := if s.live m.dst then s.arrive m.dst ⟨m.src, m.dst, m.seq, .void⟩ else s

/-- A through message goes on in its direction, or in the other where that one carries none (R36, R40). -/
def State.forward (s : State) (d : Nat) (dir : Dir) (m : Msg) : State :=
  s.enqueueSeg d (if s.segUp d dir then dir else dir.flip) true m

/-- A message that arrived whole: delivered in order at its destination, else forwarded (R36, R37, R40). A message to every die is delivered and
goes on until it would reach its source. What is bound for a die that has stopped ends here, a test message being lost (R389, R552). -/
def State.accept (s : State) (d : Nat) (dir : Dir) (m : Msg) : State :=
  match m.body with
  | .flood _ seqs b =>
    let s1 := match seqs.find? (fun p => decide (p.1 = d)) with
      | some (_, n) => s.arrive d ⟨m.src, d, n, b⟩
      | none => s
    let on := if s.segUp d dir then dir else dir.flip
    if s1.next d on = m.src then s1 else s1.enqueueSeg d on true ⟨m.src, m.dst, m.seq, .flood on seqs b⟩
  | .test => if m.dst = d then s.arrive d m else if s.live m.dst then s.forward d dir m else s.loseTest m.src dir
  | _ => if m.dst = d then s.arrive d m else if s.live m.dst then s.forward d dir m else s

/-- The counter of resends on messages from a neighbour (R44): one that travels UP comes from the DN neighbour. -/
def resendField : Dir → Fld
  | .up => F.SPN_RESEND_DN.COUNT
  | .dn => F.SPN_RESEND_UP.COUNT

/-- The messages of a direction that carries none any more wait in the other one; test messages are lost (R40, R552). -/
def State.reroute (s : State) (d : Nat) (dir : Dir) : State :=
  let g := s.seg d dir
  let s1 := s.setSeg d dir { g with queue := [], through := [], tests := [], cur := none, bad := 0 }
  g.all.foldl (fun t (m, th) => match m.body with
    | .test =>
      let sent := decide (m.src ≠ d) || decide (g.cur.map Prod.fst = some m)
      let t1 := t.loseTest m.src dir
      if sent then t1.skipSeq m else t1
    | .flood _ seqs b => t.enqueueSeg d dir.flip th ⟨m.src, m.dst, m.seq, .flood dir.flip seqs b⟩
    | _ => t.enqueueSeg d dir.flip th m) s1

/-- A direction goes DOWN (R40): its messages take the other direction, and the event is raised. -/
def State.segDown (s : State) (d : Nat) (dir : Dir) : State :=
  let s1 := (s.setF (spnField dir) d [] 2).raise (match dir with | .up => F.SPN_STAT.UP_EV | .dn => F.SPN_STAT.DN_EV) d []
  (s1.reroute d dir).event 0x24 d 2 [match dir with | .up => 0 | .dn => 1]

/-- The spine as die g stops (R41, R389): its own FAULT message still leaves it, through messages inside it are lost and their numbers
skipped, and its neighbours send the other way what waits for it. -/
def State.spineStop (s : State) (g : Nat) : State :=
  let one (t : State) (dir : Dir) : State :=
    let q := t.seg g dir
    let keep := (q.cur.toList.map Prod.fst ++ q.queue).filter (fun m => match m.body with | .flood _ _ .fault => true | _ => false)
    let t1 := t.setSeg g dir { q with queue := keep, through := [], tests := [], cur := none }
    q.all.foldl (fun u (m, _) => match m.body with
      | .flood .. => u
      | .test => if m.src = g then u else (u.loseTest m.src dir).skipSeq m
      | _ => if m.src = g ∨ m.dst = g then u else u.skipSeq m) t1
  let s1 := one (one s .up) .dn
  (s1.reroute (s1.next g .dn) .up).reroute (s1.next g .up) .dn

/-- LONE (R44) of every die that runs. -/
def State.setLone (s : State) : State :=
  s.liveDies.foldl (fun t d => t.setF F.SPN_STAT.LONE d []
    (if t.segUp d .up || t.segUp d .dn then 0 else 1)) s

/-- The message that a direction out of die `nb` sends next; a test message of its own takes its number as it is sent (R37, R552). -/
def State.sending (s : State) (nb : Nat) (dir : Dir) : Option (Msg × Segment × State) :=
  match (s.seg nb dir).pick with
  | none => none
  | some (m, g) =>
    if m.body = .test ∧ m.src = nb ∧ (s.seg nb dir).cur = none then
      let n := (s.die nb).seqTx.get 0 m.dst
      let m1 := { m with seq := n }
      some (m1, { g with cur := g.cur.map (fun c => (m1, c.2)) }, s.setDie nb { s.die nb with seqTx := (s.die nb).seqTx.set 0 m.dst (n + 1) })
    else some (m, g, s)

/-- A message can reach die d in direction `dir`: the direction carries messages and one waits (R38, R41). -/
def State.comes (s : State) (d : Nat) (dir : Dir) : Bool :=
  let nb := s.next d dir.flip
  decide (s.f (spnField dir) nb [] ≤ 1) && (s.sending nb dir).isSome

/-- Die d receives the next message that travels in direction `dir` toward it; `good` says whether its CRC-32C passes (R37, R38, R39, R40, R41). -/
def State.receive (s : State) (d : Nat) (dir : Dir) (good : Bool) : State :=
  let nb := s.next d dir.flip
  if 1 < s.f (spnField dir) nb [] then s
  else match s.sending nb dir with
  | none => s
  | some (m, g, s0) =>
    let g1 := { g with load := g.load + m.body.cycles }
    if good then
      let s1 := s0.setSeg nb dir { g1 with cur := none, bad := 0 }
      let s2 := if s.f (spnField dir) nb [] = 1 then s1.setF (spnField dir) nb [] 0 else s1
      s2.accept d dir m
    else
      let s1 := s0.incF (resendField dir) d []
      if g.bad + 1 < 3 then (s1.setSeg nb dir { g1 with bad := g.bad + 1 }).setF (spnField dir) nb [] 1
      else ((s1.setSeg nb dir g1).segDown nb dir).setLone

/-- RESTORE stays 1 while a direction trains (R41). -/
def State.restoreEnd (s : State) (d : Nat) : State :=
  let busy (dr : Dir) : Bool := decide (s.f (spnField dr) d [] = 3) && !(s.seg d dr).trained
  if busy .up || busy .dn then s else s.setF F.SPN_CTL.RESTORE d [] 0

/-- Start of retraining of every DOWN direction of a die (R41). -/
def State.retrain (s : State) (d : Nat) : State :=
  let one (t : State) (dir : Dir) : State :=
    if t.f (spnField dir) d [] = 2 then t.setF (spnField dir) d [] 3 else t
  (one (one s .up) .dn).restoreEnd d

/-- SPINE_TRAINING_END (R41): training of one direction ends, its 1,024 messages sent; a good one reads OK from the first tick after. One that fails is
DOWN again, which sets no event bit and raises no event a second time (DESIGN CHOICE, log entry 177). -/
def execSpineTrainingEnd (die : DieNo) (dir : Dir) (ok : Bool) (s : State) : Host.Outcome State Fault Refusal :=
  let d := die.val
  if s.f (spnField dir) d [] ≠ 3 ∨ (s.seg d dir).trained = true then .next s
  else
    let g := { s.seg d dir with load := (s.seg d dir).load + 1024 }
    let s1 := if ok then s.setSeg d dir { g with trained := true } else (s.setSeg d dir g).setF (spnField dir) d [] 2
    .next (s1.restoreEnd d)

/-- At a tick a trained direction reads OK and SPN_LOAD takes the cycles of the previous frame (R41, R44). -/
def State.spineTick (s : State) (d : Nat) : State :=
  let one (t : State) (dir : Dir) : State :=
    let g := t.seg d dir
    let t1 := if g.trained then t.setF (spnField dir) d [] 0 else t
    let fld := match dir with | .up => F.SPN_LOAD_UP.CYCLES | .dn => F.SPN_LOAD_DN.CYCLES
    (t1.setSeg d dir { g with trained := false, load := 0 }).setF fld d [] g.load
  (one (one s .up) .dn).setLone

/-! ### A die stops (R84, R389) -/

/-- The done bits of transfers of length 0 that wait for a bundle are set now, unless their tag is in progress (R183). -/
def Eng.zset (x : Eng) : Eng :=
  { x with zdone := [],
           bits := (x.zdone.filter (fun t => !(x.xfers.any (fun y => decide (y.tag = t))))).foldl (fun m t => m.set false (32 + t) true) x.bits }

/-- The engine with nothing of its run left. A shared-bit access that has not returned is not performed any more (DESIGN CHOICE, log entry 170). -/
def Eng.stopRun (x : Eng) : Eng :=
  let y := x.zset
  { y with carry := [], gap := false, hand := [], run := .none, fend := false, bundle := [], div := none, br := none, brSave := none, rpt := none, strV := none,
           far := [], farOld := [], fence := false, pw := [], pwf := [], popU := false, popS := false, work := ⟨[], [], [], []⟩, smp := 0, smpEn := 0, fullRun := [] }

/-- Every run of a die ends without effect, and nothing of it issues again. -/
def State.haltDie (s : State) (d : Nat) : State :=
  (List.range 64).foldl (fun t e => t.setEng d e (t.eng d e).stopRun) s

/-- A die stops (R389): FAULT messages leave in both directions, and its panel port releases PNL_IRQ_N (R594). -/
def State.stopDie (s : State) (d : Nat) : State :=
  let s1 := (s.spineFlood d .fault).setF F.PNL_STAT.IRQ d [] 0
  ((((s1.haltDie d).setDie d { (s1.haltDie d).die d with stopped := true }).spineStop d)).setLone

end Sys2Proof.Machine
end

