-- ==== Sys2Proof/Machine/Ken.lean ====
section
/-! DEFINITION. The kennel: blocks and their transitions, the free list, loan accounts, and queues (R322 to R346). -/

namespace Sys2Proof.Machine

/-! ### Pool and blocks -/

/-- Slots of the pool in the active set: 8,192 × NBANK (R322). -/
def State.slots (s : State) (d : Nat) : Nat := 8192 * s.fa F.KEN_POOL.NBANK d []

/-- Whether a handle names a block (R322, R323). -/
def State.validH (s : State) (d h : Nat) : Bool := decide (h ≠ 0 ∧ h < s.slots d)

def State.blk (s : State) (d h : Nat) : Block := s.blks.get .free (65536 * d + h)

def State.setBlk (s : State) (d h : Nat) (b : Block) : State := { s with blks := s.blks.set .free (65536 * d + h) b }

/-- The PA of word 0 of a block (R322). -/
def State.blkPa (s : State) (d h : Nat) : Nat :=
  bankPa d (s.fa F.KEN_POOL.BASE d [] + h / 8192) (h % 8192 * 128)

/-- One state counter raised or lowered (R358); the counters have 16 bits. -/
def tallyAdd (l : List Nat) (i k : Nat) : List Nat := l.set i ((l.getD i 0 + k) % 65536)

/-- KEN_FREEMIN follows the FREE count (R363). -/
def State.noteMin (s : State) (d : Nat) : State :=
  s.setF F.KEN_FREEMIN.MIN d [] (min ((s.die d).tally.getD 0 0) (s.f F.KEN_FREEMIN.MIN d []))

/-- A block leaves FREE: EMPTY, LOW and FREEMIN follow the new FREE count (R363). -/
def State.noteFree (s : State) (d : Nat) : State :=
  let n := (s.die d).tally.getD 0 0
  let s1 := if n = 0 then s.raise F.KEN_STAT.EMPTY d [] else s
  let s2 := if n ≤ s.fa F.KEN_POOL.RESV d [] then s1.raise F.KEN_STAT.LOW d [] else s1
  s2.noteMin d

/-- A transition of R328: the block's record, the two counters, the free list (R358), and the account's LOANED count. -/
def State.toState (s : State) (d h : Nat) (b : Block) : State :=
  let old := s.blk d h
  let x := s.die d
  let t := tallyAdd (tallyAdd x.tally old.st.code 65535) b.st.code 1
  let s1 := (s.setDie d { x with tally := t }).setBlk d h { b with inFree := decide (b.st = .free) }
  let s2 := if old.st = .loaned then s1.setF F.KEN_LACT.LOANED d [old.acct] (s1.f F.KEN_LACT.LOANED d [old.acct] - 1) else s1
  let s3 := if b.st = .loaned then s2.incF F.KEN_LACT.LOANED d [b.acct] else s2
  if old.st = .free ∧ b.st ≠ .free then s3.noteFree d else s3

/-- Handles from which the kennel allocates: not those of banks that an armed shrink removes (R325). -/
def State.allocLimit (s : State) (d : Nat) : Nat :=
  if s.f F.PKG_SWAP.ARMED 0 [] = 1 then min (s.slots d) (8192 * s.f F.KEN_POOL.NBANK d []) else s.slots d

/-- The first handle of the free list at or above `c`, wrapping below `lim`. -/
def State.scanFree (s : State) (d lim : Nat) : Nat → Nat → Option Nat
  | 0, _ => none
  | n + 1, c =>
    if (s.blk d c).inFree = true ∧ (s.blk d c).st = .free then some c
    else State.scanFree s d lim n (if c + 1 < lim then c + 1 else 1)

/-- A FREE block, which one being a free choice (R204); one free value is used. -/
def State.pickFree (s : State) (d : Nat) : Option Nat :=
  let lim := s.allocLimit d
  if lim < 2 then none else s.scanFree d lim (s.blks.length + 1) (1 + freeNat (lim - 1) s.fresh)

/-- The length of the free list (R358). -/
def State.freeLen (s : State) (d : Nat) : Nat :=
  (s.slots d - 1) - (s.blks.filter (fun e => decide (e.1 / 65536 = d) && s.validH d (e.1 % 65536) && !e.2.inFree)).length

/-! ### Loans (R329, R330, R334) -/

/-- Whether a loan account takes part in credit accounting (R329). -/
def credited (a : Nat) : Bool := decide (a < 8 ∨ 16 ≤ a)

/-- The account served next: the first after the last served whose LOANED count is below TARGET (R330). -/
def State.needy (s : State) (d : Nat) : Nat → Nat → Option Nat
  | 0, _ => none
  | n + 1, a =>
    if s.f F.KEN_LACT.LOANED d [a] < s.fa F.KEN_LOAN.TARGET d [a] then some a else State.needy s d n ((a + 1) % 80)

/-- One replenishment to a credited account grants one credit (R330). -/
def State.grant (s : State) (d a : Nat) : State :=
  if a < 8 then (if s.live a && decide (a ≠ d) then s.spineSend d a .credit else s)
  else if 16 ≤ a then
    let n := s.fin.get {} (64 * d + (a - 16))
    { s with fin := s.fin.set {} (64 * d + (a - 16)) { n with grant := n.grant + 1 } }
  else s

/-- Replenish the accounts below TARGET from FREE blocks, one at a time in rotation (R330). -/
def State.replenish (s : State) (d : Nat) : Nat → State
  | 0 => s
  | n + 1 =>
    match s.needy d 80 (((s.die d).rot + 1) % 80) with
    | none => s
    | some a =>
      match s.pickFree d with
      | none => s
      | some h =>
        let s1 := (s.useFree 1).toState d h ⟨.loaned, a, false, 0, false, false, false⟩
        let s2 := s1.setDie d { s1.die d with rot := a }
        State.replenish (s2.grant d a) d n

/-- Replenishment after a transition out of LOANED or into FREE: as many blocks as accounts lack. -/
def State.refill (s : State) (d : Nat) : State :=
  s.replenish d ((List.range 80).foldl (fun n a =>
    n + (s.fa F.KEN_LOAN.TARGET d [a] - s.f F.KEN_LACT.LOANED d [a])) 0)

/-- A block becomes FREE. -/
def State.freeBlk (s : State) (d h : Nat) : State := (s.toState d h .free).refill d

/-- KEN_DROP[i] (R363): 0 DEPTH, 1 AGE, 2 CLOSED, 3 COLLAR, 4 NOLOAN, 5 NOFREE, 6 OVERRUN, 7 LOST. -/
def State.dropCount (s : State) (d i : Nat) : State := s.incF F.KEN_DROP.COUNT d [i]

/-! ### Queues -/

/-- Queue q of die d, by its global number (R23). -/
def State.que (s : State) (g : Nat) : Queue := s.ques.get .zero g

def State.setQue (s : State) (g : Nat) (q : Queue) : State := { s with ques := s.ques.set .zero g q }

/-- The parameters in the active set. -/
def State.qparam (s : State) (g : Nat) : QParam := s.qpA.get .zero g

/-- A flow's active parameter words, by global number. -/
def State.flow (s : State) (g : Nat) : FlowP := s.flA.get .zero g

def State.flowState (s : State) (g : Nat) : FlowS := s.flSt.get .zero g

def State.setFlowState (s : State) (g : Nat) (x : FlowS) : State := { s with flSt := s.flSt.set .zero g x }

def FlowP.isOpen (p : FlowP) : Bool := p.c0.getLsbD 31
def FlowP.crit (p : FlowP) : Bool := p.c0.getLsbD 30
def FlowP.prio (p : FlowP) : Nat := field p.c0 29 27
def FlowP.src (p : FlowP) : Nat := field p.c0 26 24
def FlowP.qcnt (p : FlowP) : Nat := field p.c0 23 17
def FlowP.qbase (p : FlowP) : Nat := field p.c0 16 0
def FlowP.fmt (p : FlowP) : Nat := field p.c1 31 28
def FlowP.nchan (p : FlowP) : Nat := field p.c1 27 22
def FlowP.half (p : FlowP) : Bool := decide (field p.c1 21 20 = 1)
def FlowP.srcId (p : FlowP) : Nat := field p.c1 15 0
def FlowP.cburst (p : FlowP) : Nat := field p.c2 31 16
def FlowP.cmax (p : FlowP) : Nat := field p.c2 15 0
def FlowP.twin (p : FlowP) : Nat := field p.c3 31 16

/-- Whether queue q (local) lies in the range of a flow. -/
def FlowP.owns (p : FlowP) (q : Nat) : Bool := decide (p.qbase ≤ q ∧ q < p.qbase + p.qcnt)

/-- The open flow of die d whose range holds local queue q, in the list of listed flows. -/
def findFlow (d q : Nat) : Store FlowP → Option Nat
  | [] => none
  | (g, p) :: m => if g / 8192 = d ∧ p.isOpen = true ∧ p.owns q = true then some g else findFlow d q m

/-- The open flow that owns a queue, by global number (R339). -/
def State.flowOf (s : State) (g : Nat) : Option Nat := findFlow (g / 131072) (g % 131072) s.flA

/-- A queue is open while it lies in the range of an open flow of its die (R339). -/
def State.queOpen (s : State) (g : Nat) : Bool := (s.flowOf g).isSome

/-- Raise the flow's DROPS word C6, which stops at its maximum (R347). -/
def State.flowDrop (s : State) (f : Option Nat) (n : Nat) : State :=
  match f with
  | none => s
  | some g =>
    let x := s.flowState g
    s.setFlowState g { x with c6 := BitVec.ofNat 32 (min (x.c6.toNat + n) 4294967295) }

/-- The array that holds the other copy of a queue and flow memory array (R339; DESIGN CHOICE, log entry 150). -/
def pairArray (u : Nat) : Nat := (u + 16) % 32

/-- A row of a queue and flow memory array that shows an error is rewritten from the other array (R339). -/
def State.mendRow (s : State) (d u row : Nat) : State :=
  let x := s.die d
  if x.qbad.contains (u, row) && !x.qbad.contains (pairArray u, row) then s.setDie d { x with qbad := x.qbad.filter (fun p => decide (p ≠ (u, row))) } else s

/-- An access to a queue reads its words of queue and flow memory: one in error in one array is rewritten from the other (R339, R375). -/
def State.readQueue (s : State) (g : Nat) : State :=
  (Config.queueRows (g % 131072)).foldl (fun t p => t.mendRow (g / 131072) p.1 p.2) s

/-- A word that an access to the queue reads is in error in both arrays (R389). -/
def State.rowsLost (s : State) (g : Nat) : Bool :=
  let l := (s.die (g / 131072)).qbad
  (Config.queueRows (g % 131072)).any (fun p => l.contains p && l.contains (pairArray p.1, p.2))

/-- A tick's queue commit and tally check read every word of a die's queue and flow memory (R339, R358): what is in error in one array is rewritten, and a
word in error in both stops the die (R389; DESIGN CHOICE, log entry 181). -/
def State.readRows (s : State) (d : Nat) : State :=
  let x := s.die d
  if x.qbad.any (fun p => x.qbad.contains (pairArray p.1, p.2)) then s.stopDie d else s.setDie d { x with qbad := [] }

/-- A block joins the pending tail of a queue of die d (R82). -/
def State.pend (s : State) (d g : Nat) (h : Nat) : State :=
  let q := s.que g
  let s1 := (s.readQueue g).toState d h ⟨.queued, 0, false, 0, false, false, false⟩
  s1.setQue g { q with pend := q.pend ++ [⟨BitVec.ofNat 16 h, 0, false, false⟩] }

/-- The flows of die d that the active egress maps of its link, Finolrus and TDM ports name, in the registers `m` (R345, R472): the transmit entries of
LNK_SB, the streams of FIN_NTX and the output slots of TDM_SMAP, at their active aliases. -/
def egressFids (d : Nat) (m : Store W32) : List Nat :=
  m.flatMap (fun (a, v) =>
    let o := a % 0x100000
    if a / 0x100000 ≠ d + 1 then []
    else if 0x5A004 ≤ o ∧ o < 0x60004 ∧ (o - 0x5A004) % 12 = 0 then (if v.getLsbD 15 && v.getLsbD 14 then [field v 12 0] else [])
    else if 0x59000 ≤ o ∧ o < 0x59800 ∧ o % 4 = 0 then
      (if v.getLsbD 15 then [field v 12 0] else []) ++ (if v.getLsbD 31 then [field v 28 16] else [])
    else if 0x68100 ≤ o ∧ o < 0x68200 ∧ o % 4 = 0 then (if v.getLsbD 31 && v.getLsbD 30 then [field v 12 0] else [])
    else [])

/-- The report queue of a die (R541). -/
def State.reportQ (s : State) (d : Nat) : Option Nat := if s.fa F.DIE_SUPQ.V d [] = 1 then some (131072 * d + s.fa F.DIE_SUPQ.Q d []) else none

/-- The queue that record ring r of port k takes blocks from in a map (R419, R457). -/
def State.recordQ (s : State) (early : Bool) (k r : Nat) : Option Nat :=
  let v := mapAct (s.mapRegs early) .HPT_SMAP k [r]
  if v.getLsbD 31 then some (field v 19 0) else none

/-- A port queue (R345): named by HPT_SMAP, the report queue, or the queue of a channel of a flow that an egress map names; during the handover the
early maps count too (R419). -/
def State.portQueue (s : State) (g : Nat) : Bool :=
  let d := g / 131072
  let fids := egressFids d s.regs ++ (if s.pkg.early.isSome then egressFids d s.pkg.earlyRegs else [])
  [0, 1].any (fun k => (List.range 64).any (fun r =>
    decide (s.recordQ false k r = some g) || (s.pkg.early.isSome && decide (s.recordQ true k r = some g)))) ||
  decide (s.reportQ d = some g) ||
  fids.any (fun fid =>
    let p := s.flow (8192 * d + fid)
    p.isOpen && decide (p.qbase ≤ g % 131072 ∧ g % 131072 < p.qbase + p.nchan))

/-- Replace the first entry with handle `h`. -/
def markEnt (h : Nat) (f : QEnt → QEnt) : List QEnt → List QEnt
  | [] => []
  | e :: l => if e.h.toNat = h then f e :: l else e :: markEnt h f l

/-- The oldest committed entry that no run holds (R204, R206). -/
def Queue.front (q : Queue) : Option QEnt := q.com.find? (fun e => !e.held && !e.gone)

/-- DEQ of a queue of the engine's die (R204, R339, R345, R389): the handle, or none; the queue of a port and a closed queue give none. -/
def State.dequeue (s : State) (d g : Nat) (port : Bool) : State × Option Nat :=
  if port then (s.raise F.QUE_EV.PORTDEQ d [], none)
  else if s.queOpen g = false then (s, none)
  else if s.rowsLost g then (s.stopDie (g / 131072), none)
  else match (s.que g).front with
    | none => (s.readQueue g, none)
    | some e =>
      let q := s.que g
      let s1 := (s.readQueue g).setQue g { q with com := markEnt e.h.toNat (fun x => { x with held := true }) q.com }
      (s1.toState d e.h.toNat ⟨.held, 0, false, 0, false, false, false⟩, some e.h.toNat)

/-- A HELD block returns to its queue at its place (R84). -/
def State.unhold (s : State) (d g h : Nat) : State :=
  let q := s.que g
  let s1 := s.setQue g { q with com := markEnt h (fun x => { x with held := false }) q.com }
  s1.toState d h ⟨.queued, 0, false, 0, false, false, false⟩

/-- A dequeue is committed: the block has left its queue for every other purpose (R81, R341). -/
def State.leave (s : State) (g h : Nat) : State :=
  let q := s.que g
  s.setQue g { q with com := markEnt h (fun x => { x with gone := true }) q.com }

/-! ### Concealment (R378 to R381) -/

/-- A substitute block (R380): E = −25, COUNT 0, FNLO of the current frame, MISS, and zeros. -/
def missBlock (fn : Nat) : List W18 :=
  BitVec.ofNat 18 (39 * 4096) :: 0 :: BitVec.ofNat 18 fn :: 0x10000#18 :: List.replicate 124 0

/-- The concealed value of sample `i` (R378). -/
def concealed (raw : Nat → Stored) (count i : Nat) : W18 :=
  let good (j : Nat) : Bool := decide (j < count) && ok18 (raw (4 + j))
  let v (j : Nat) : Int := (data18 (raw (4 + j))).toInt
  let lo := decide (0 < i) && good (i - 1)
  if lo && good (i + 1) then wrap18 ((v (i - 1) + v (i + 1)).fdiv 2)
  else if lo then data18 (raw (4 + (i - 1)))
  else if good (i + 1) then data18 (raw (4 + (i + 1)))
  else 0

/-- What a reader of a block receives (R378 to R380): its words, the samples concealed, and whether it is missing. -/
def State.blockView (s : State) (d h : Nat) : List W18 × Nat × Bool :=
  let raw (i : Nat) : Stored := s.word (s.blkPa d h + i)
  if (List.range 4).any (fun i => !ok18 (raw i)) then (missBlock (s.fn d), 0, true)
  else
    let count := min ((data18 (raw 0)).toNat % 4096) 124
    let n := ((List.range count).filter (fun i => !ok18 (raw (4 + i)))).length
    let w3 := data18 (raw 3)
    let w3' : W18 := if n = 0 then w3
      else (w3 &&& 0x1FFC0#18) ||| 0x20000#18 ||| BitVec.ofNat 18 (min 63 (w3.toNat % 64 + n))
    ((List.range 128).map (fun i =>
      if i = 3 then w3' else if 4 ≤ i ∧ i < 4 + count ∧ ok18 (raw i) = false then concealed raw count (i - 4)
      else data18 (raw i)), n, false)

/-- The errors in the words of a block that is read, noted for R277. -/
def State.noteBlkErrs (s : State) (d h : Nat) : State :=
  (List.range 128).foldl (fun t i => if ok18 (t.word (t.blkPa d h + i)) then t else t.colErrAt (t.blkPa d h + i)) s

/-- A block has been read: its errors are noted, and concealed samples and substituted blocks counted (R277, R379, R380). -/
def State.noteConceal (s : State) (d h n : Nat) (miss : Bool) : State :=
  let s0 := s.noteBlkErrs d h
  let s1 := if n = 0 then s0 else s0.addF F.DIE_ERRCNT.COUNT d [3] n
  let s2 := if miss then s1.incF F.DIE_ERRCNT.COUNT d [4] else s1
  if n = 0 ∧ miss = false then s2
  else s2.setDie d { s2.die d with concS := (s2.die d).concS + n, concB := (s2.die d).concB + miss.toNat }

end Sys2Proof.Machine
end

