-- ==== Sys2Proof/Machine/Detect.lean ====
section
/-! DEFINITION. Aborts, detected errors, traps and interrupt entry of an engine (R84, R145 to R158, R366 to R382). -/

namespace Sys2Proof.Machine

/-- The global engine number (R23). -/
def globalEng (d e : Nat) : Nat := 64 * d + e

/-! ### Abort of a run (R84) -/

/-- The blocks of a run that is aborted: TENT blocks become FREE, HELD blocks return to their queues, or stay HELD until
the next commit phase after an overrun (R84, R90). -/
def State.dropWork (s : State) (d : Nat) (w : Work) (overrun : Bool) : State :=
  let s1 := w.alloc.foldl (fun t h => t.freeBlk d h.toNat) s
  if overrun then
    w.held.foldl (fun t (h, g) => (t.leave g h.toNat).setBlk d h.toNat
      { t.blk d h.toNat with overrun := true }) s1
  else w.held.foldl (fun t (h, g) => t.unhold d g h.toNat) s1

/-- Abort of the run in progress under R84. -/
def State.abort (s : State) (d e : Nat) : State :=
  let x := s.eng d e
  (s.setEng d e x.stopRun).dropWork d x.work false

/-- The entry that follows a run aborted and not replayed (R69). -/
def Eng.skipEntry (x : Eng) : Eng :=
  match x.run with
  | .folio i _ => { x with next := i + 1 }
  | .idle => { x with listDone := true, next := 16 }
  | .none => x

/-! ### Suspicion (R371, R382) -/

/-- The engine becomes suspect (R382). -/
def State.suspect (s : State) (d e : Nat) : State :=
  if s.f F.ENG_STAT.SUSPECT d [e] = 1 then s
  else
    let s1 := (s.raise F.ENG_STAT.SUSPECT d [e]).raise F.DIE_EV.SUSPECT d []
    let s2 := (s1.incF F.DIE_ERRCNT.COUNT d [7]).event 5 d 0 [globalEng d e]
    s2.setDie d { s2.die d with suspects := (s2.die d).suspects ++ [e] }

/-- Count one detected error toward suspicion: THR errors in fewer than WIN frames, the first and the last counted (R372, R382). -/
def State.countErr (s : State) (d e : Nat) : State :=
  let x := s.eng d e
  let fn := s.fn d
  let l := (x.errFrames.filter (fun k => decide (fn + 1 < k + s.f F.DIE_SUSP.WIN d []))) ++ [fn]
  let s1 := s.setEng d e { x with errFrames := l }
  if s.f F.DIE_SUSP.THR d [] ≤ l.length then s1.suspect d e else s1

/-! ### Detected errors (R368 to R377) -/

/-- What a detected error calls for beyond the replay. -/
inductive ErrWhere where
  /-- A check-bit error in the bundle at this address of the active half (R374). -/
  | bundle (pc : Nat)
  /-- Nothing beyond the replay. -/
  | plain
  /-- A local word (R373). -/
  | local (a : Nat)
  /-- A shared word outside the kennel (R377). -/
  | shared (pa : Nat)
  deriving DecidableEq, Repr

/-- The constant region of an engine's active map that holds a local word and is declared by an entry (R73, R86). -/
def State.regionOf (s : State) (d e entry a : Nat) : Option Nat :=
  (List.range 8).find? (fun j =>
    (s.act .ENG_FLB d [e, entry]).getLsbD j &&
    decide (s.fa F.ENG_CMA.LSTART d [e, j] ≤ a ∧ a < s.fa F.ENG_CMA.LSTART d [e, j] + s.fa F.ENG_CMA.LLEN d [e, j]))

/-- Reload one bundle from DIE_PMSRC of a copy, with its REFETCH event (R374, R401): the state and whether it succeeded. A source in a bank
that is not ON is out of the maintenance path's reach (R262). -/
def State.reloadBundle (s : State) (d e : Nat) (half active : Bool) (pc : Nat) : State × Bool :=
  let src := if active then s.fa F.DIE_PMSRC.SRC d [e] else s.f F.DIE_PMSRC.SRC d [e]
  let v := if active then s.fa F.DIE_PMSRC.V d [e] else s.f F.DIE_PMSRC.V d [e]
  let pa := bankPa d 0 (src + 8 * pc)
  if v ≠ 1 ∨ s.reaches pa = false then (s, false)
  else
    let (s1, ws, bad) := s.readWords pa 8
    if bad ≠ [] then (bad.foldl State.colErrAt s1, false)
    else
      let x := s1.eng d e
      let i := (if half then 4096 else 0) + pc
      let s2 := s1.setEng d e { x with pmem := x.pmem.set 0 i (encBundle (mkBundle ws)) }
      ((s2.incF F.DIE_ERRCNT.COUNT d [2]).event 2 d 0 [globalEng d e, 1, pc], true)

/-- Reload one bundle, or note with PMBAD that it cannot be (R374, R384, R394). -/
def State.mendBundle (s : State) (d e : Nat) (half active : Bool) (pc : Nat) : State × Bool :=
  let (s1, ok) := s.reloadBundle d e half active pc
  if ok then (s1, true) else ((s1.raise F.DIE_EV.PMBAD d []).event 9 d 0 [globalEng d e, pc], false)

/-- A word in error met by an entry of a folio list: whether it met it before in this frame (R377). -/
def Eng.metBefore (x : Eng) (entry pa : Nat) : Bool := x.badWords.contains (entry, pa)

/-- Whether an entry or the idle folio of the active list is still to run in this frame (R68, R69). -/
def State.moreToRun (s : State) (d e : Nat) : Bool :=
  let x := s.eng d e
  (decide (x.next < 16) && decide (s.fa F.ENG_FLA.V d [e, x.next] = 1)) || (decide (s.fa F.ENG_IDLE.EN d [e] = 1) && !x.listDone)

/-- ENG_FSTAT.SEQ of an engine that runs nothing more: halted, or a spare with no list (R73). -/
def State.rest (s : State) (d e : Nat) : State :=
  let spare := s.f F.ENG_CTL.SPARE d [e] = 1 ∧ s.fa F.ENG_FLA.V d [e, 0] = 0
  s.setF F.ENG_FSTAT.SEQ d [e] (if spare then 5 else 4)

/-- The end of a run that is aborted without replay (R69, R158, R374, R377). -/
def State.noReplay (s : State) (d e : Nat) : State :=
  let s1 := s.abort d e
  let s2 := s1.setEng d e { s1.eng d e with next := ((s.eng d e).skipEntry).next, listDone := ((s.eng d e).skipEntry).listDone }
  if s2.moreToRun d e then s2 else s2.rest d e

/-- A persistent error (R377). -/
def State.persist (s : State) (d e entry pa : Nat) : State :=
  let s1 := (s.setReg .DIE_BADPA_LO d [] (BitVec.ofNat 32 pa)).setF F.DIE_BADPA_HI.PA_HI d [] (pa / 4294967296)
  let s2 := (s1.raise F.DIE_EV.PERSIST d []).incF F.DIE_ERRCNT.COUNT d [5]
  (s2.event 3 d 0 [globalEng d e, entry, pa % 4294967296, pa / 4294967296]).noReplay d e

/-- Abort and replay of a folio run (R84, R369): `cause` is the place in the list of R368. -/
def State.replay (s : State) (d e entry cause : Nat) : State :=
  let s1 := (s.abort d e).raise F.ENG_FEV.REPLAY d [e]
  let s2 := (s1.incF F.ENG_FCNT.REPLAYS d [e]).incF F.DIE_ERRCNT.COUNT d [0]
  let s3 := s2.event 1 d 0 [globalEng d e, entry, cause]
  s3.setEng d e { s3.eng d e with redo := some entry }

/-- The column of a detected error, for R277. -/
def State.noteColumn (s : State) (d e : Nat) : ErrWhere → State
  | .bundle pc => let x := s.eng d e
                  s.colErr d 1 (e * 2 + x.half.toNat) pc (failsBundle (x.pmem.get 0 ((if x.half then 4096 else 0) + pc)))
  | .local a => s.colErr d 0 (e * 8 + a % 8) (a / 8) (fails18 ((s.eng d e).lmem.get 0 a))
  | .shared pa => s.colErrAt pa
  | .plain => s

/-- A bundle in error is reloaded at its detection; without a good source the engine becomes suspect (R374): the state and whether the bundle is
good. -/
def State.mendPlace (s : State) (d e : Nat) : ErrWhere → State × Bool
  | .bundle pc =>
    let (s1, ok) := s.mendBundle d e (s.eng d e).half true pc
    (if ok then s1 else s1.suspect d e, ok)
  | _ => (s, true)

/-- A detected error of an engine (R368 to R377). One that falls in a replay makes the engine suspect (R371). -/
def State.detect (s : State) (d e cause : Nat) (w : ErrWhere) : State :=
  let x := s.eng d e
  let (s0, mended) := ((s.countErr d e).noteColumn d e w).mendPlace d e w
  match x.run with
  | .none => s0
  | .idle => s0.noReplay d e
  | .folio entry again =>
    let s1 := if again then s0.suspect d e else s0
    if (s.die d).phase ≠ .work then
      -- R370: counted, no replay; the guard treats the run as an overrun.
      let s2 := (s1.setEng d e (s1.eng d e).stopRun).dropWork d x.work true
      let s3 := (s2.raise F.ENG_FEV.OVR d [e]).incF F.ENG_FCNT.OVERRUNS d [e]
      s3.event 0x18 d 3 [globalEng d e, entry]
    else match w with
    | .bundle _ => if mended then s1.replay d e entry cause else s1.noReplay d e
    | .local a =>
      match s.regionOf d e entry a with
      | some j =>
        let s2 := (s1.replay d e entry cause).raise F.ENG_FEV.CONST d [e]
        let s3 := (s2.incF F.DIE_ERRCNT.COUNT d [1]).event 2 d 0 [globalEng d e, 0, j]
        s3.setEng d e { s3.eng d e with consts := (s3.eng d e).consts ++ [j] }
      | none => s1.replay d e entry cause
    | .shared pa =>
      if x.metBefore entry pa then s1.persist d e entry pa
      else
        let s2 := s1.replay d e entry cause
        s2.setEng d e { s2.eng d e with badWords := (s2.eng d e).badWords ++ [(entry, pa)] }
    | .plain => s1.replay d e entry cause

/-! ### Entry to a handler (R145 to R149, R154, R158) -/

/-- Interrupt or trap entry (R147 to R149): results not yet due enter the pending-write file, EPC and EPC2 are written, the
mode and register set change, and the handler's address becomes the PC. -/
def Eng.enter (x0 : Eng) (epc target : BitVec 12) (br : Option Branch) : Eng :=
  let x := x0.zset
  let rds : BitVec 14 := match br with
    | some ⟨n, some t, _⟩ => BitVec.ofNat 14 (n * 4096 + t.toNat)
    | _ => 0
  let st := x.st
  let st1 := (st &&& 0x3FFD8#18) ||| (if st.getLsbD 0 then 0x20#18 else 0) ||| 0x5#18
  { x with epc := epc, epc2 := rds, st := st1,
           pc := target, pwf := x.pwf ++ x.pw, pw := [], br := none, brSave := br.map Branch.kind,
           bundle := [], div := none, rpt := none, strV := none, carry := [], gap := false, hand := [],
           far := [], farOld := x.farOld ++ x.far, smp := 0, smpEn := 0 }

/-- The trap registers of the host (R165). -/
def State.noteTrap (s : State) (d e : Nat) (c : Cause) (pc : Nat) (double : Bool) : State :=
  let s1 := (s.setF F.ENG_TRAP.CAUSE d [e] c.code).setF F.ENG_TRAP.EPC d [e] pc
  if double then (s1.raise F.ENG_TRAP.DBL d [e]).incF F.ENG_TCNT.DOUBLES d [e]
  else (s1.raise F.ENG_TRAP.TEV d [e]).incF F.ENG_TCNT.TRAPS d [e]

/-- Taking a trap (R147, R154, R155, R157, R158). `pc` is the trapping bundle, `epc` what EPC receives, `syls` its syllables. The
cause writes the whole EVAL, whose bits [17:12] are 0 after SYSC and BKPT (DESIGN CHOICE, log entry 173). -/
def State.trap (s : State) (d e : Nat) (t : TrapReq) (pc epc : BitVec 12) (br : Option Branch) (ds : Bool) (syls : List W18) : State :=
  let x := s.eng d e
  if x.sh then
    let s1 := (s.noteTrap d e t.cause pc.toNat true).event 0x19 d 3 [globalEng d e, t.cause.code]
    s1.noReplay d e
  else
    let s1 := s.noteTrap d e t.cause pc.toNat false
    let y := { x.enter epc x.tvec br with vecBad := x.vecBad.filter (fun k => decide (k ≠ 1)) }
    let ec := BitVec.ofNat 18 (t.cause.code + 64 * t.slot + (if ds then 512 else 0) + (if t.dbl then 1024 else 0))
    let y1 := { y with ecause := ec }
    let y2 := match t.ev with
      | some v => { y1 with evah := (v >>> 18).setWidth 18, eval := v.setWidth 18 }
      | none => y1
    let y3 := match t.vfi with
      | some k => { y2 with vfi := k }
      | none => y2
    let y4 := if t.cause = .resop
      then { y3 with d := (List.range 8).foldl (fun m i => m.set 0 (16 + i) (syls.getD i 0)) y3.d } else y3
    s1.setEng d e y4

end Sys2Proof.Machine
end

