-- ==== Sys2Proof/Machine/KenMove.lean ====
section
/-! DEFINITION. Blocks that land and blocks that cross dies: collars, placement, acknowledgements and credits (R82, R83, R330 to
R338, R355). -/

namespace Sys2Proof.Machine

/-- A LOANED block of an account that is not receiving content, lowest handle first; unlisted blocks are FREE. -/
def State.loanOf (s : State) (d a : Nat) : Option Nat :=
  (s.blks.find? (fun e => decide (e.1 / 65536 = d) && decide (e.2.st = .loaned) && decide (e.2.acct = a) && !e.2.landing)).map
    (fun e => e.1 % 65536)

/-- Write the 128 words of a block; those that the list does not give are undefined (R8, R316). -/
def State.writeBlk (s : State) (d h : Nat) (ws : List W18) : State :=
  let all := ws ++ (List.range (128 - ws.length)).map (fun i => freeBits 18 (s.fresh + i))
  ((all.mapIdx (fun i w => (i, w))).foldl (fun t (i, w) => t.setWord (t.blkPa d h + i) (enc18 w)) s).useFree (128 - ws.length)

/-- The collar of R355 charged for one block of a flow: whether the block is admitted, and the state after. -/
def State.charge (s : State) (f : Nat) : State × Bool :=
  let p := s.flow f
  if p.cmax = 0 then (s, true)
  else
    let x := s.flowState f
    if 1 ≤ x.tokens then (s.setFlowState f { x with tokens := x.tokens - 1 }, true) else (s, false)

/-- CROSS_DIE_SEND (R331, R336, R378 to R380): the first block in TRANSIT toward `dst` that waits is sent for one credit. -/
def execCrossDieSend (die dst : DieNo) (s : State) : Host.Outcome State Fault Refusal :=
  let d := die.val
  let first := (s.die d).outbound.find? (fun (h, _) =>
    let b := s.blk d h.toNat
    decide (b.dst / 131072 = dst.val) && !b.sent)
  match first with
  | none => .next s
  | some (h, fn) =>
    if s.live d = false ∨ s.live dst.val = false ∨ s.f F.KEN_CRED.CREDIT d [dst.val] = 0 ∨ s.f F.KEN_CRED.FROZEN d [dst.val] = 1 then
      .next s
    else
      let b := s.blk d h.toNat
      let (ws, n, miss) := s.blockView d h.toNat
      let s1 := (s.noteConceal d h.toNat n miss).setF F.KEN_CRED.CREDIT d [dst.val] (s.f F.KEN_CRED.CREDIT d [dst.val] - 1)
      .next ((s1.setBlk d h.toNat { b with sent := true }).spineSend d dst.val (.block b.dst h ws fn))

/-- The first delivered message of a kind, and the inbox without it. -/
def takeMsg (p : MsgBody → Bool) : List Msg → Option (Msg × List Msg)
  | [] => none
  | m :: l => if p m.body then some (m, l) else (takeMsg p l).map (fun (x, r) => (x, m :: r))

/-- The LATE flag of a block's word 3 (R83, R338). -/
def markLate (ws : List W18) : List W18 := ws.set 3 (ws.getD 3 0 ||| 0x8000#18)

/-- Placement of one block content (R332, R337, R338, R354, R355), without its acknowledgement: a flow that opened after the block's commit does not
receive it. -/
def State.place (s : State) (d src q : Nat) (ws : List W18) (fn : Nat) : State :=
  let f := (s.flowOf q).filter (fun g => decide ((s.flowState g).opened ≤ fn))
  match s.loanOf d src with
  | none => (s.dropCount d 4).flowDrop f 1
  | some h =>
    let late := decide (fn < (s.die d).ticks)
    let s1 := s.writeBlk d h (if late then markLate ws else ws)
    match f with
    | none => (s1.dropCount d 2).freeBlk d h
    | some g =>
      let (s2, ok) := s1.charge g
      let s3 := if late && ok then s2.incF F.KEN_LATE.COUNT d [] else s2
      if ok then (s3.pend d q h).refill d else ((s3.dropCount d 3).flowDrop f 1).freeBlk d h

/-- BLOCK_PLACEMENT (R83, R332, R337, R338): the oldest received content is placed and acknowledged. -/
def execBlockPlacement (die : DieNo) (s : State) : Host.Outcome State Fault Refusal :=
  let d := die.val
  match takeMsg (fun b => match b with | .block .. => true | _ => false) (s.die d).inbox with
  | some (⟨src, _, _, .block q h ws fn⟩, rest) =>
    if s.live d = false then .next s
    else
      let s1 := (s.setDie d { s.die d with inbox := rest }).place d src q ws fn
      .next (if s1.live src then s1.spineSend d src (.ack h) else s1)
  | _ => .next s

/-- PLACEMENT_ACK_RECEIVE (R337): the source's block becomes FREE. -/
def execPlacementAckReceive (die : DieNo) (s : State) : Host.Outcome State Fault Refusal :=
  let d := die.val
  match takeMsg (fun b => match b with | .ack _ => true | _ => false) (s.die d).inbox with
  | some (⟨_, _, _, .ack h⟩, rest) =>
    if s.live d = false then .next s
    else
      let x := s.die d
      let s1 := s.setDie d { x with inbox := rest, outbound := x.outbound.filter (fun p => decide (p.1 ≠ h)) }
      .next (if (s1.blk d h.toNat).st = .transit then s1.freeBlk d h.toNat else s1)
  | _ => .next s

/-- CREDIT_MESSAGE_RECEIVE (R330, R335): KEN_CRED toward the granting die rises by 1, unless it is frozen. -/
def execCreditMessageReceive (die : DieNo) (s : State) : Host.Outcome State Fault Refusal :=
  let d := die.val
  match takeMsg (fun b => match b with | .credit => true | _ => false) (s.die d).inbox with
  | some (m, rest) =>
    if s.live d = false then .next s
    else
      let s1 := s.setDie d { s.die d with inbox := rest }
      .next (if s.f F.KEN_CRED.FROZEN d [m.src] = 1 then s1 else s1.incF F.KEN_CRED.CREDIT d [m.src])
  | none => .next s

end Sys2Proof.Machine
end

