-- ==== Sys2Proof/Machine/KenTick.lean ====
section
/-! DEFINITION. The kennel's part of the tick: flow commands, queue commit, policies, collars, the tally and the audit
(R339 to R362, R618). -/

namespace Sys2Proof.Machine

/-! ### Drops -/

/-- Blocks dropped from a queue: FREE, counted by cause and in the flow's DROPS (R347, R363). -/
def State.dropAll (s : State) (d cause : Nat) (f : Option Nat) (l : List QEnt) : State :=
  l.foldl (fun t e => ((t.dropCount d cause).flowDrop f 1).freeBlk d e.h.toNat) s

/-! ### Step 1 of R341 -/

/-- Unlink the dequeued blocks of a queue; those that an overrun held become FREE (R90, R341). -/
def State.unlink (s : State) (d : Nat) (f : Option Nat) (g : Nat) : State :=
  let q := s.que g
  let late := q.com.filter (fun e => e.gone && decide ((s.blk d e.h.toNat).st = .held) && (s.blk d e.h.toNat).overrun)
  (s.setQue g { q with com := q.com.filter (fun e => !e.gone) }).dropAll d 6 f late

/-- The queues of a die that are listed. -/
def State.quesOf (s : State) (d : Nat) : List Nat := (s.ques.map Prod.fst).filter (fun g => decide (g / 131072 = d))

/-! ### Flows that open, close or change (R350, R353, R356, R618) -/

/-- The queues of a flow's range. -/
def flowQs (d : Nat) (p : FlowP) : List Nat := (List.range p.qcnt).map (fun i => 131072 * d + p.qbase + i)

/-- A flow closes: every block of its queues becomes FREE, counted CLOSED (R353). -/
def State.closeFlow (s : State) (d g : Nat) (old : FlowP) : State :=
  (flowQs d old).foldl (fun t q =>
    let x := t.que q
    (t.dropAll d 2 (some g) (x.com ++ x.pend)).setQue q .zero) s

/-- A flow opens: its queues are empty and C4 to C7 are cleared (R350, R355). -/
def State.openFlow (s : State) (d g : Nat) (p : FlowP) : State :=
  let s1 := (flowQs d p).foldl (fun t q => t.setQue q .zero) s
  s1.setFlowState g ⟨0, 0, 0, 0, p.cburst, (s.die d).ticks⟩

/-- A flow that stays open with other words: a changed collar caps the tokens (R356). -/
def State.capTokens (s : State) (g : Nat) (o n : FlowP) : State :=
  if o.c2 = n.c2 then s else s.setFlowState g { s.flowState g with tokens := min (s.flowState g).tokens n.cburst }

/-- A flow whose active words were `o` and are `n`: it opens, closes, changes or stays (R350, R353, R356, R618). -/
def State.settleFlow (s : State) (d g : Nat) (o n : FlowP) : State :=
  if o.isOpen = true ∧ n.isOpen = false then s.closeFlow d g o
  else if o.isOpen = false ∧ n.isOpen = true then s.openFlow d g n
  else if n.isOpen = true then s.capTokens g o n
  else s

/-- The flows of a die in a table. -/
def flowKeys (d : Nat) (m : Store FlowP) : List Nat := (m.map Prod.fst).filter (fun g => decide (g / 8192 = d))

/-- Every flow whose active words a swap exchanged (R618): `oldA` is the table before it. -/
def State.settleFlows (s : State) (d : Nat) (oldA : Store FlowP) : State :=
  ((flowKeys d oldA ++ flowKeys d s.flA).eraseDups).foldl (fun t g => t.settleFlow d g (oldA.get .zero g) (t.flow g)) s

/-- A FID whose OPEN became 0 in both copies stays in use for 8 ticks (R350): the tables before the tick are `oldA` and `oldS`. -/
def State.startCooling (s : State) (d : Nat) (oldA oldS : Store FlowP) : State :=
  ((flowKeys d oldA ++ flowKeys d oldS).eraseDups).foldl (fun t g =>
    let was := (oldA.get .zero g).isOpen || (oldS.get .zero g).isOpen
    let is_ := (t.flow g).isOpen || (t.flS.get .zero g).isOpen
    if was && !is_ then t.setDie d { t.die d with cooling := (t.die d).cooling.set 0 (g % 8192) 8 } else t) s

/-- One tick passes for the FIDs that closed (R350). -/
def State.coolDown (s : State) (d : Nat) : State :=
  let x := s.die d
  s.setDie d { x with cooling := (x.cooling.map (fun (k, n) => (k, n - 1))).filter (fun p => decide (p.2 ≠ 0)) }

/-- FIDs in use (R350). -/
def State.fidUsed (s : State) (d fid : Nat) : Bool :=
  let g := 8192 * d + fid
  (s.flow g).isOpen || (s.flS.get .zero g).isOpen || (s.die d).assigned.contains fid || decide ((s.die d).cooling.get 0 fid ≠ 0)

/-! ### Flow commands (R349 to R353) -/

/-- The queue parameters of a whole range. -/
def setRange (m : Store QParam) (base n : Nat) (p : QParam) : Store QParam :=
  (List.range n).foldl (fun m i => m.set .zero (base + i) p) m

def FlowP.shut (p : FlowP) : FlowP := { p with c0 := p.c0 &&& 0x7FFFFFFF#32 }

/-- The words of a flow after a FLOW_MOD of its context: C0[30:27], C1 and C2 change (R352). -/
def FlowP.merge (o p : FlowP) : FlowP :=
  { o with c0 := (o.c0 &&& 0x87FFFFFF#32) ||| (p.c0 &&& 0x78000000#32), c1 := p.c1, c2 := p.c2 }

/-- A command wrote the shadow tables only (R406). -/
def State.flowDirty (s : State) (d : Nat) (shadow : Bool) : State := if shadow then s.raise F.DIE_SWAP.SHDIRTY d [] else s

/-- One processed flow command takes effect (R349 to R353, R356). -/
def State.flowEffect (s : State) (d : Nat) : FlowCmd → State
  | .open_ fid shadow p q =>
    let g := 8192 * d + fid
    let base := 131072 * d + p.qbase
    let s1 := { s with flS := s.flS.set .zero g p, qpS := setRange s.qpS base p.qcnt q }
    let s2 := if shadow then s1
      else { s1 with flA := s1.flA.set .zero g p, qpA := setRange s1.qpA base p.qcnt q }.settleFlow d g (s.flow g) p
    (s2.setDie d { s2.die d with assigned := (s2.die d).assigned.filter (fun i => decide (i ≠ fid)) }).flowDirty d shadow
  | .close fid shadow =>
    let g := 8192 * d + fid
    let s1 := { s with flS := s.flS.set .zero g (s.flS.get .zero g).shut }
    (if shadow then s1 else { s1 with flA := s1.flA.set .zero g (s.flow g).shut }.settleFlow d g (s.flow g) (s.flow g).shut).flowDirty d shadow
  | .context fid shadow p =>
    let g := 8192 * d + fid
    let old := if shadow then s.flS.get .zero g else s.flA.get .zero g
    if old.isOpen = false then s
    else
      let s1 := { s with flS := s.flS.set .zero g (old.merge p) }
      (if shadow then s1 else { s1 with flA := s1.flA.set .zero g (old.merge p) }.settleFlow d g old (old.merge p)).flowDirty d shadow
  | .queue q shadow p =>
    let s1 := { s with qpS := s.qpS.set .zero q p }
    (if shadow then s1 else { s1 with qpA := s1.qpA.set .zero q p }).flowDirty d shadow

/-! ### Steps 2 to 5 of R341 -/

/-- The queue with what QUE_VIEW shows of it: pending and committed blocks and the age of the oldest committed one (R340, R364). -/
def Queue.viewed (q : Queue) : Queue :=
  { q with pendN := q.pend.length, depN := q.com.length, oldN := match q.com with
    | [] => 0
    | e :: _ => min (e.age - 1) 65535 }

/-- The queue commit of one open queue. -/
def State.commitQue (s : State) (d g : Nat) (f : Nat) : State :=
  let p := s.qparam g
  let q := s.que g
  let older (l : List QEnt) : List QEnt := l.map (fun e => { e with age := e.age + 1 })
  let com := older q.com
  let pend := older q.pend
  let alim := p.alim.toNat
  let dlim := p.dlim.toNat
  let stale (e : QEnt) : Bool := decide (alim ≠ 0) && decide (alim + 1 ≤ e.age)
  let dropped := (com ++ pend).filter stale
  let com1 := com.filter (fun e => !stale e)
  let pend1 := pend.filter (fun e => !stale e)
  let s1 := s.dropAll d 1 (some f) dropped
  let s2 := if dropped.isEmpty then s1 else s1.raise F.QUE_EV.DROPEV d []
  let hold := decide (p.policy = 2) && decide (alim ≠ 0)
  let room := dlim - com1.length
  let (com2, pend2) : List QEnt × List QEnt :=
    if dlim ≠ 0 ∧ hold = true then (com1 ++ pend1.take room, pend1.drop room) else (com1 ++ pend1, [])
  let excess := if dlim = 0 ∨ hold = true then 0 else com2.length - dlim
  let cut := if p.policy = 0 then excess else min excess pend1.length
  let (gone, com3) : List QEnt × List QEnt :=
    if p.policy = 0 then (com2.take cut, com2.drop cut)
    else ((com2.drop (com2.length - cut)).reverse, com2.take (com2.length - cut))
  let s3 := s2.dropAll d 0 (some f) gone
  let s4 := if gone.isEmpty then s3 else s3.raise F.QUE_EV.DROPEV d []
  let s5 := if p.policy = 2 ∧ alim = 0 ∧ excess ≠ 0 then s4.raise F.QUE_EV.BPNOAGE d [] else s4
  let bp := !pend2.isEmpty
  let s6 := if bp && !q.bp then s5.raise F.QUE_EV.BPEV d [] else s5
  s6.setQue g (Queue.viewed ⟨com3, pend2, bp, 0, 0, 0⟩)

/-- Keep in a table the entries of other dies, and take those of die d from `m`. -/
def takeDie {V : Type} (per d : Nat) (old m : Store V) : Store V :=
  old.filter (fun e => decide (e.1 < per * d)) ++ m.filter (fun e => decide (per * d ≤ e.1 ∧ e.1 < per * (d + 1))) ++
    old.filter (fun e => decide (per * (d + 1) ≤ e.1))

/-- The first part of the queue-commit step of a die (R58, R341, R349, R618): committed dequeues are unlinked, and flows open, close and change, those of
a swap first and then those of the commands. `oldA` and `oldS` are the flow tables before the tick. -/
def State.flowCommit (s : State) (d : Nat) (oldA oldS : Store FlowP) : State :=
  let s1 := (s.quesOf d).foldl (fun t g => t.unlink d (findFlow d (g % 131072) oldA) g) s
  let s2 := (s1.coolDown d).settleFlows d oldA
  let cmds := (s2.die d).flowCmds
  let s3 := cmds.foldl (fun t c => t.flowEffect d c) (s2.setDie d { s2.die d with flowCmds := [] })
  s3.startCooling d oldA oldS

/-- The rest of the step: every open queue (R341), and what QUE_BPN and FLW_VIEW show (R364, R365). -/
def State.queueCommit (s : State) (d : Nat) : State :=
  let s5 := (s.quesOf d).foldl (fun t g => match t.flowOf g with
    | some f => t.commitQue d g f
    | none => t) s
  let n := ((s5.quesOf d).filter (fun g => (s5.que g).bp)).length
  let s6 := (s5.setF F.QUE_BPN.COUNT d [] n)
  { s6 with flViewS := takeDie 8192 d s6.flViewS s6.flS, flView := takeDie 8192 d s6.flView s6.flSt }

/-- The collar refill of a tick (R355). -/
def State.refillCollars (s : State) (d : Nat) : State :=
  (flowKeys d s.flA).foldl (fun t g =>
    let p := t.flow g
    if p.isOpen = true ∧ p.cmax ≠ 0 then
      t.setFlowState g { t.flowState g with tokens := min ((t.flowState g).tokens + p.cmax) p.cburst }
    else t) s

/-! ### The tally (R358, R359) -/

/-- The tally check. A failed one asks for an audit at the next tick, unless one runs. KEN_FREEMIN follows the FREE count of a pool that has blocks. -/
def State.tallyCheck (s : State) (d : Nat) : State :=
  let t := (s.die d).tally
  let s0 := (List.range 6).foldl (fun u i => u.setF F.KEN_TALLY.COUNT d [i] (t.getD i 0)) s
  let s1 := if s.f F.KEN_BLOCKS.BLOCKS d [] = 0 then s0 else s0.noteMin d
  let sum := t.foldl (fun a n => a + n) 0
  let blocks := s.f F.KEN_BLOCKS.BLOCKS d []
  if sum = blocks ∧ (blocks = 0 ∨ t.getD 0 0 = s.freeLen d) then s1
  else
    let s2 := (s1.raise F.KEN_STAT.MISMATCH d []).event 0x10 d 1 [sum, blocks]
    let x := s2.die d
    s2.setDie d { x with audit := { x.audit with req := x.audit.req || !x.audit.running } }

/-! ### The audit (R360 to R362) -/

/-- The audit starts, or one more of its frames has passed (R360). -/
def State.auditTick (s : State) (d : Nat) : State :=
  let a := (s.die d).audit
  if a.running then
    (s.setDie d { s.die d with audit := { a with frame := a.frame + 1, req := false } }).setF F.KEN_AUD.FRAMES d [] (min 255 (a.frame + 1))
  else if a.req then
    ((s.setDie d { s.die d with audit := { running := true } }).setF F.KEN_AUD.FRAMES d [] 0).setF F.KEN_AUD.START d [] 0
      |>.raise F.KEN_STAT.AUDRUN d []
  else s

/-- Where the audit finds blocks, in its order (R360). -/
def State.holders (s : State) (d : Nat) : List (Nat × Holder) :=
  (s.quesOf d).flatMap (fun g => ((s.que g).com.filter (fun e => !e.gone) ++ (s.que g).pend).map (fun e => (e.h.toNat, Holder.queue g))) ++
  (List.range 64).flatMap (fun e => (s.eng d e).work.alloc.map (fun h => (h.toNat, Holder.hold e))) ++
  (s.die d).outbound.map (fun p => (p.1.toNat, Holder.outbound)) ++
  (s.blks.filter (fun e => decide (e.1 / 65536 = d) && decide (e.2.st = .loaned))).map (fun e => (e.1 % 65536, Holder.loan))

/-- The state that a holder gives its block. -/
def Holder.state : Holder → BState
  | .queue _ => .queued
  | .hold _ => .tent
  | .outbound => .transit
  | .loan => .loaned

/-- A holder agrees with a block's record; a queue also holds the blocks that runs have dequeued. -/
def Holder.fits (k : Holder) (st : BState) : Bool := decide (st = k.state) || (decide (k.state = .queued) && decide (st = .held))

/-- The record of a block as its holder gives it; KEN_LACT counts the LOANED blocks of its account. -/
def State.heldBy (s : State) (d h : Nat) (k : Holder) : State :=
  let b := s.blk d h
  let st := if k.fits b.st then b.st else k.state
  let s1 := s.setBlk d h { b with st := st, inFree := false }
  if b.st = .loaned ∧ st ≠ .loaned then s1.setF F.KEN_LACT.LOANED d [b.acct] (s1.f F.KEN_LACT.LOANED d [b.acct] - 1) else s1

/-- Settle one handle (R361). -/
def State.settleBlk (s : State) (d h : Nat) (hs : List Holder) : State :=
  let b := s.blk d h
  let leak (t : State) : State := t.setDie d { t.die d with audit := { (t.die d).audit with leaks := (t.die d).audit.leaks + 1 } }
  match hs with
  | [] => if b.inFree then (if b.st = .free then s else s.setBlk d h .free) else leak (s.setBlk d h .free)
  | [k] => if b.inFree then leak (s.heldBy d h k) else s.heldBy d h k
  | k :: later =>
    let t := s.heldBy d h k
    t.setDie d { t.die d with audit := { (t.die d).audit with
      dups := (t.die d).audit.dups + later.length, copies := (t.die d).audit.copies ++ later.map (fun l => (BitVec.ofNat 16 h, l)) } }

/-- Replace the last entry with handle `h` by handle `n`. -/
def swapLast (h n : BitVec 16) (l : List QEnt) : List QEnt :=
  let r := l.reverse
  (match r.findIdx? (fun (e : QEnt) => decide (e.h = h)) with
   | some i => r.modify i (fun e => { e with h := n })
   | none => r).reverse

/-- The six counters rebuilt from the records that the audit settled and from the free list (R362). -/
def State.rebuildTally (s : State) (d : Nat) : State :=
  let listed (c : BState) : Nat := (s.blks.filter (fun e => decide (e.1 / 65536 = d) && s.validH d (e.1 % 65536) && decide (e.2.st = c))).length
  s.setDie d { s.die d with tally := [s.freeLen d, listed .queued, listed .held, listed .tent, listed .transit, listed .loaned] }

/-- Messages on their way or not yet acted on (R331). -/
def State.flying (s : State) : List Msg :=
  (List.range 8).flatMap (fun d => ((s.die d).up.all ++ (s.die d).dn.all).map Prod.fst ++ (s.die d).early ++ (s.die d).inbox)

/-- The credit that R331 gives `src` toward `dst`: blocks LOANED there, less those sent, plus acknowledgements on their way,
less credits on their way. -/
def State.dueCredit (s : State) (src dst : Nat) : Int :=
  let sent := (s.blks.filter (fun e => decide (e.1 / 65536 = src) && decide (e.2.st = .transit) && e.2.sent && decide (e.2.dst / 131072 = dst))).length
  let fly := s.flying.filter (fun m => decide (m.src = dst ∧ m.dst = src))
  let acks := (fly.filter (fun m => match m.body with | .ack _ => true | _ => false)).length
  let creds := (fly.filter (fun m => decide (m.body = .credit))).length
  (s.f F.KEN_LACT.LOANED dst [src] : Int) - sent + acks - creds

/-- The credit check between two dies; `d` runs the audit (R362). -/
def State.fixCredit (s : State) (d src dst : Nat) : State :=
  let want := s.dueCredit src dst
  if (s.f F.KEN_CRED.CREDIT src [dst] : Int) = want then s
  else (s.setF F.KEN_CRED.CREDIT src [dst] want.toNat).raise F.KEN_STAT.CREDBAD d []

/-- The end of the audit (R362), which may be the one that TALLY asked for (R554). -/
def State.auditDone (s : State) (d : Nat) : State :=
  let s1 := s.rebuildTally d
  let s2 := (s1.liveDies.filter (fun o => decide (o ≠ d))).foldl (fun t o => (t.fixCredit d d o).fixCredit d o d) s1
  let a := (s2.die d).audit
  let s3 := ((s2.setF F.KEN_AUDRES.LEAKS d [] (min a.leaks 65535)).setF F.KEN_AUDRES.DUPS d [] (min a.dups 65535)).raise F.KEN_STAT.AUDDONE d []
  let s4 := (s3.setF F.KEN_STAT.AUDRUN d [] 0).event 0x11 d 1 [a.leaks, a.dups, s3.f F.KEN_STAT.CREDBAD d []]
  let x := s4.die d
  let found : TallyTest := if a.leaks = 0 ∧ a.dups = 0 then .passed else .failed
  s4.setDie d { x with audit := { a with running := false }, tallyRun := if x.tallyRun = .audit then found else x.tallyRun }

end Sys2Proof.Machine
end

