-- ==== Sys2Proof/Machine/Blocks.lean ====
section
/-! DEFINITION. Samples and blocks at the ports: conversion, ingress blocks, blocks taken from port queues (R316 to R321, R332,
R345, R355, R378 to R381, R469, R471, R472). -/

namespace Sys2Proof.Machine

/-! ### The frame in samples (R52, R469) -/

/-- The sample rate (R55). -/
def State.rate (s : State) : Nat := if s.f F.TCK_CTL.RATE 0 [] = 1 then 96000 else 48000

/-- F, the samples per frame, of the active TCK_FRAME (R52). -/
def State.perFrame (s : State) : Nat :=
  (match s.fa F.TCK_FRAME.FPER 0 [] with | 0 => 12 | 1 => 24 | 2 => 48 | _ => 96) * (s.rate / 48000)

/-- F′ of a flow, and the segments of its channels (R317). -/
def State.fPrime (s : State) (p : FlowP) : Nat := if p.half then s.perFrame / 2 else s.perFrame

def segsOf (f : Nat) : Nat := if 124 < f then 2 else 1

/-! ### Conversion (R320, R321) -/

/-- The 32-bit integer w of an incoming sample x in a format (R320): L16, L24 or a 32-bit slot. -/
def sampleW (fmt : Nat) (x : Int) : Int := if fmt = 0 then x * 65536 else if fmt = 1 then x * 256 else x

/-- The bits from bit 30 downward that equal bit 31 before the first that differs (R320). -/
def leadBits (w : BitVec 32) : Nat → Nat
  | 0 => 0
  | n + 1 => if w.getLsbD n = w.getLsbD 31 then leadBits w n + 1 else 0

/-- p of R320. -/
def blockShift (ws : List Int) : Nat := ws.foldl (fun p w => min p (leadBits (BitVec.ofInt 32 w) 31)) 31

/-- One mantissa (R320). -/
def mantissa (p : Nat) (w : Int) : W18 := BitVec.ofInt 18 (min 131071 ((w * (2 ^ p : Nat) + 8192).fdiv 16384))

/-- E and the mantissas of a block (R320). -/
def toBlock (ws : List Int) : Int × List W18 :=
  if ws.all (fun w => decide (w = 0)) then (-25, ws.map (fun _ => 0))
  else let p := blockShift ws; (6 - (p : Int), ws.map (mantissa p))

/-- v × 2^32 of mantissa m and exponent E (R321): exact for every E from −32. -/
def valueV (m : W18) (e : Int) : Int := m.toInt * (2 ^ (e + 32).toNat : Nat)

/-- The integer sent for v = x / 2^32, in a format, and whether it was clamped (R321). A half goes to the greater. -/
def sendSample (fmt : Nat) (x : Int) : Int × Bool :=
  let k : Nat := if fmt = 0 then 40 else if fmt = 1 then 32 else 24
  let n : Nat := if fmt = 0 then 15 else if fmt = 1 then 23 else 31
  let r := (x + (2 ^ (k - 1) : Nat)).fdiv (2 ^ k : Nat)
  let c := clamp (-(2 ^ n : Nat)) ((2 ^ n : Nat) - 1) r
  (c, decide (c ≠ r))

/-- The header and samples of a block (R316, R318): E, tag, FNLO, channel, segment, the flag bits of word 3 and CONCN. -/
def mkBlock (e : Int) (ms : List W18) (tag fn chan seg flags concn : Nat) : List W18 :=
  [BitVec.ofInt 6 e ++ BitVec.ofNat 12 ms.length, BitVec.ofNat 18 tag, BitVec.ofNat 18 fn,
   BitVec.ofNat 18 (flags * 16384 + seg * 4096 + chan * 64 + min 63 concn)] ++ ms

/-- Fields of a block's words (R316). -/
def blkE (ws : List W18) : Int := ((ws.getD 0 0).extractLsb' 12 6).toInt
def blkCount (ws : List W18) : Nat := (ws.getD 0 0).toNat % 4096
def blkMiss (ws : List W18) : Bool := (ws.getD 3 0).getLsbD 16
def blkSeg (ws : List W18) : Nat := (ws.getD 3 0).toNat / 4096 % 4
def blkChan (ws : List W18) : Nat := (ws.getD 3 0).toNat / 64 % 64

/-! ### Landing (R332, R347, R355) -/

/-- C5 BLKIN rises (R347). -/
def State.blkIn (s : State) (g : Nat) : State :=
  let x := s.flowState g
  s.setFlowState g { x with c5 := BitVec.ofNat 32 (min (x.c5.toNat + 1) 4294967295) }

/-- A block of flow g lands from account a of die d (R332, R355): it joins the pending tail of the ingress queue, or is dropped. The collar is charged
first; a block that it drops while the reserve holds the flow off stays LOANED under R332 (DEDUCED, log entry 152). -/
def State.land (s : State) (d a g : Nat) (ws : List W18) : State :=
  let p := s.flow g
  match s.loanOf d a with
  | none => (s.dropCount d 4).flowDrop (some g) 1
  | some h =>
    let reserve := decide ((s.die d).tally.getD 0 0 ≤ s.fa F.KEN_POOL.RESV d [] ∧ p.prio < s.fa F.KEN_POOL.RESVPRI d []) && !credited a
    let (s1, ok) := s.charge g
    let drop (i : Nat) : State := (s1.dropCount d i).flowDrop (some g) 1
    if ok = false then (if reserve then drop 3 else (drop 3).freeBlk d h)
    else if reserve then drop 5
    else (((s1.writeBlk d h ws).pend d (131072 * d + p.qbase) h).blkIn g).refill d

/-! ### Ingress blocks of ETH and TDM ports (R471) -/

/-- A received sample: w of R320 at an entering index of a channel. -/
def State.takeSample (s : State) (d fid idx chan : Nat) (w : Int) : State :=
  let x := s.die d
  let m := x.ing.get [] fid
  s.setDie d { x with ing := x.ing.set [] fid (m.set none (64 * idx + chan) (some (BitVec.ofInt 32 w))) }

/-- One block of a channel and segment: its words, from the samples received. -/
def State.closeBlock (s : State) (d fid chan seg n : Nat) : List W18 :=
  let m := (s.die d).ing.get [] fid
  let base := (s.die d).msc + seg * 96
  let got := (List.range n).map (fun i => m.get none (64 * (base + i) + chan))
  let miss := (got.filter Option.isNone).length
  let (e, ms) := toBlock (got.map (fun o => ((o.getD 0).toInt)))
  mkBlock e ms (8192 * d + fid) (s.fn d) chan seg (if miss = 0 then 0 else if miss = n then 4 else 8) miss

/-- Close every block of the frame of one flow fed by a port (R471), through account a. -/
def State.closeFlowBlocks (s : State) (d fid a : Nat) : State :=
  let g := 8192 * d + fid
  let p := s.flow g
  let f := s.fPrime p
  let n := f / segsOf f
  let blocks := (List.range p.nchan).flatMap (fun c => (List.range (segsOf f)).map (fun sg => s.closeBlock d fid c sg n))
  let s1 := blocks.foldl (fun t b => t.land d a g b) s
  let x := s1.die d
  let last := x.msc + s.perFrame
  s1.setDie d { x with ing := x.ing.set [] fid ((x.ing.get [] fid).filter (fun e => decide (64 * last ≤ e.1))) }

/-! ### Blocks taken from port queues (R345, R472, R328) -/

/-- The oldest committed block of a queue, chosen by channel and segment where asked. -/
def State.portFront (s : State) (g : Nat) (want : List W18 → Bool) : Option Nat :=
  (s.que g).com.findSome? (fun e =>
    if !e.held && !e.gone && want (s.blockView (g / 131072) e.h.toNat).1 then some e.h.toNat else none)

/-- A port reads a block of its queue (R328, R378 to R380): the state with the block FREE, the words, and whether the block is missing. -/
def State.portTake (s : State) (g h : Nat) : State × List W18 × Bool :=
  let d := g / 131072
  let (ws, n, miss) := s.blockView d h
  let q := s.que g
  let s1 := ((s.readQueue g).noteConceal d h n miss).setQue g { q with com := q.com.filter (fun e => decide (e.h.toNat ≠ h)) }
  let s2 := s1.toState d h ⟨.transit, 0, false, g, true, false, false⟩
  (s2.freeBlk d h, ws, miss)

/-- SATOUT (R347) rises by n. -/
def State.satOut (s : State) (g n : Nat) : State :=
  let x := s.flowState g
  s.setFlowState g { x with c7 := setField x.c7 31 16 (min (field x.c7 31 16 + n) 65535) }

/-- Silence for a channel in the format BF, with MISS where a block was there (R319, R380, R381): the words sent. -/
def silence (tag fn chan seg n : Nat) (miss : Bool) : List W18 :=
  mkBlock (-25) (List.replicate n 0) tag fn chan seg (if miss then 4 else 0) 0 ++ List.replicate (124 - n) 0

/-- A block as a port of the format BF sends it (R319, R321, R380, R472): as it is, 0 beyond COUNT; a missing block, or one with COUNT above 124, as
silence with MISS. The words, and whether it is sent as silence. -/
def bfCopy (ws : List W18) (miss : Bool) (tag fn chan seg n : Nat) : List W18 × Bool :=
  if miss ∨ 124 < blkCount ws then (silence tag fn chan seg n true, true)
  else ((ws.take (4 + blkCount ws)) ++ List.replicate (124 - blkCount ws) 0, false)

/-- The v × 2^32 of each sample of a block, 0 beyond COUNT; a block with COUNT above 124 is silent (R319, R472). -/
def blockValues (ws : List W18) (n : Nat) : List Int :=
  (List.range n).map (fun i => if blkCount ws ≤ 124 ∧ i < blkCount ws then valueV (ws.getD (4 + i) 0) (blkE ws) else 0)

/-- Put the samples of one channel and segment among those to send, from index `base`. -/
def State.putOut (s : State) (d fid base chan : Nat) (vs : List Int) : State :=
  let x := s.die d
  let m := (vs.mapIdx (fun i v => (64 * (base + i) + chan, v))).foldl (fun m (k, v) => m.set 0 k v) (x.out.get [] fid)
  s.setDie d { x with out := x.out.set [] fid m }

/-- The frame's blocks of channel c of an egress flow: taken from queue QBASE + c and read; silence where there is none, or where the block cannot be
sent (R319, R380, R381, R472), counted in DROPS (R347). A port that is not up frees them unsent, and counts the channel once in the frame (R468). -/
def State.egressChan (s : State) (d fid c : Nat) (up : Bool) : State :=
  let gf := 8192 * d + fid
  let f := s.perFrame
  let n := f / segsOf f
  let gq := 131072 * d + (s.flow gf).qbase + c
  let base := (s.die d).msc
  (List.range (segsOf f)).foldl (fun t sg =>
    match t.portFront gq (fun ws => decide (segsOf f = 1) || decide (blkSeg ws = sg)) with
    | none => if up then t.flowDrop (some gf) 1 else t
    | some h =>
      let (t1, ws, miss) := t.portTake gq h
      if up = false then t1
      else (if miss = true ∨ 124 < blkCount ws then t1.flowDrop (some gf) 1 else t1).putOut d fid (base + 96 * sg) c (blockValues ws n))
    (if up then s else s.flowDrop (some gf) 1)

/-- Every channel of an egress flow, and the samples long sent forgotten. -/
def State.egressFlow (s : State) (d fid : Nat) (up : Bool) : State :=
  let x := s.die d
  let old := x.msc - 512
  let s1 := s.setDie d { x with out := x.out.set [] fid ((x.out.get [] fid).filter (fun e => decide (64 * old ≤ e.1))) }
  (List.range (s.flow (8192 * d + fid)).nchan).foldl (fun t c => t.egressChan d fid c up) s1

/-- A flow that an egress map may name (R472): open, RATE 00b, FMT BF and QCNT at least NCHAN. -/
def State.egressOk (s : State) (d fid : Nat) : Bool :=
  let p := s.flow (8192 * d + fid)
  decide (fid < 5120) && p.isOpen && decide (p.fmt = 3) && decide (field p.c1 21 20 = 0) && decide (p.nchan ≤ p.qcnt)

/-- A flow that an ingress map may name: open, with SRC, SRCID and RATE as its section requires. -/
def State.ingressOk (s : State) (d fid src srcId : Nat) : Bool :=
  let p := s.flow (8192 * d + fid)
  decide (fid < 5120) && p.isOpen && decide (p.src = src) && decide (p.srcId = srcId) && decide (field p.c1 21 20 = 0)

/-- The sample of an egress channel at an index. -/
def State.outAt (s : State) (d fid idx chan : Nat) : Int := ((s.die d).out.get [] fid).get 0 (64 * idx + chan)

end Sys2Proof.Machine
end

