-- ==== Sys2Proof/Machine/Far.lean ====
section
/-! DEFINITION. Translation and the checks of a far access (R282 to R298, R255, R256, R262, R391). -/

namespace Sys2Proof.Machine

/-- Whether an entry matches a VA and ASID (R294). -/
def TlbEnt.hit (t : TlbEnt) (va : Nat) (asid : BitVec 8) : Bool :=
  t.v && !t.perr && decide (va / 2 ^ t.ps.toNat = t.vpn.toNat * 64 / 2 ^ t.ps.toNat) && (t.g || decide (t.asid = asid))

/-- The PA an entry gives (R295). -/
def TlbEnt.pa (t : TlbEnt) (va : Nat) : Nat :=
  t.space.toNat * 68719476736 + t.ppn.toNat * 64 / 2 ^ t.ps.toNat * 2 ^ t.ps.toNat + va % 2 ^ t.ps.toNat

/-- The L2 indexes whose entry is in error, which any L2 lookup finds (R376). -/
def Eng.l2Errs (x : Eng) : List Nat := (List.range 128).filter (fun i => (x.l2.get .zero i).perr)

/-- A pinned entry in error uses its other copy (R375). -/
def TlbEnt.fixed (t : TlbEnt) : TlbEnt := if t.pin then { t with perr := false } else t

/-- An entry found in error: a pinned one is rewritten from its good copy (R375), another is invalidated (R376). -/
def TlbEnt.mend (t : TlbEnt) : TlbEnt := { t with perr := false, v := t.v && t.pin }

/-- The L2 entries found in error by a lookup, mended. -/
def Eng.mendL2 (x : Eng) (l : List Nat) : Eng := { x with l2 := l.foldl (fun m i => m.set .zero i (m.get .zero i).mend) x.l2 }

/-- The lowest-numbered L2 entry that matches (R294). -/
def findL2 (va : Nat) (asid : BitVec 8) (m : Store TlbEnt) : Option TlbCopy :=
  ((List.range 128).find? (fun i => (m.get .zero i).fixed.hit va asid)).map (fun i => ⟨i, (m.get .zero i).fixed⟩)

/-- The first-level copy with the lowest recorded index that matches (R294). -/
def findL1 (va : Nat) (asid : BitVec 8) (l : List (Option TlbCopy)) : Option TlbCopy :=
  l.foldl (fun best o => match o with
    | none => best
    | some c => if c.ent.hit va asid then
        (match best with
         | some b => if c.idx < b.idx then some c else some b
         | none => some c)
      else best) none

/-- A copy goes into the lowest-numbered empty place, else it replaces place `k` (R290). -/
def placeCopy (c : TlbCopy) (cap k : Nat) (l : List (Option TlbCopy)) : List (Option TlbCopy) :=
  match l.findIdx? (fun o => o.isNone) with
  | some i => l.set i (some c)
  | none => if l.length < cap then l ++ [some c] else l.set k (some c)

/-- A refill of the DTLB (R290): the copy is placed unless it is there already, at a free place where all are taken. -/
def refillD (l : List (Option TlbCopy)) (c : TlbCopy) (fresh : Nat) : List (Option TlbCopy) :=
  if l.contains (some c) then l else placeCopy c 16 (freeNat 16 (fresh + 2048 + c.idx)) l

/-- A lookup of the data side: the entry and what the bundle refills (R290). -/
structure Look where
  ent : TlbCopy
  acts : List Act
  deriving DecidableEq, Repr

def Eng.lookD (x : Eng) (va : Nat) : Option Look :=
  match findL1 va x.asid x.dtlb with
  | some c => some ⟨c, []⟩
  | none =>
    match findL2 va x.asid x.l2 with
    | some c => some ⟨c, [.dtlbRefill c, .l2Bad x.l2Errs]⟩
    | none => none

/-- The instruction side (R286). -/
def Eng.lookI (x : Eng) (va : Nat) : Option Look :=
  match findL1 va x.asid x.itlb with
  | some c => some ⟨c, []⟩
  | none =>
    match findL2 va x.asid x.l2 with
    | some c => some ⟨c, [.itlbRefill c, .l2Bad x.l2Errs]⟩
    | none => none

/-- A surviving bank whose twin lies on the lost die of a PA serves it (R269, R391). -/
def State.soloOf (s : State) (pa : Nat) : Option Nat :=
  let d := paDie pa; let b := paBank pa
  let hits := s.liveDies.flatMap (fun i => (List.range 64).filterMap (fun j =>
    if s.f F.SHM_TWIN.SOLO i [j] = 1 ∧ s.f F.SHM_TWIN.DIE i [j] = d ∧ s.f F.SHM_TWIN.BANK i [j] = b
    then some (bankPa i j (pa % 1048576)) else none))
  hits.head?

/-- Where a package-memory access lands: itself, or the SOLO twin of a bank of a lost die. -/
def State.landPa (s : State) (pa : Nat) : Nat :=
  if s.live (paDie pa) = false ∧ paShared pa = true then (s.soloOf pa).getD pa else pa

/-- Whether a package-memory PA names a location (R27, R29). -/
def State.located (s : State) (pa : Nat) : Bool :=
  s.live (paDie pa) && (paShared pa || (paMailbox pa && decide (paDie pa < 2)))

/-- Whether owner `o` of a bank of die `d` admits the quire of engine `e` of die `de` (R255). -/
def ownerAdmits (o d de e : Nat) : Bool := decide (o = 11) || (decide (o = e / 8) && decide (de = d))

/-- A handover of the bank of a PA is in progress, and its old owner is answered by `f` (R259). -/
def State.handing (s : State) (pa : Nat) (f : Nat → Bool) : Bool :=
  decide (s.f F.SHM_OWN.PEND (paDie pa) [paBank pa] = 1) &&
  (match (s.die (paDie pa)).handovers.get none (paBank pa) with
   | some h => f h.old
   | none => false)

/-- Whether the owner of a bank admits the quire of engine `e` of die `d` (R255). While the bank changes hands a request of the old owner is
refused, whether or not the new owner admits the engine too (R259 and its example; DEDUCED, log entry 149). -/
def State.admits (s : State) (d e pa : Nat) : Bool :=
  ownerAdmits (s.f F.SHM_OWN.OWNER (paDie pa) [paBank pa]) (paDie pa) d e && !s.handing pa (fun o => ownerAdmits o (paDie pa) d e)

/-- While a bank changes hands, the new owner's requests wait (R259). -/
def State.mustWait (s : State) (d e pa : Nat) : Bool :=
  paShared pa && s.handing pa (fun o => !ownerAdmits o (paDie pa) d e)

/-- The host aperture's port and window of a PA (R26). -/
def aperPort (pa : Nat) : Nat := pa % 68719476736 / 34359738368
def aperWin (pa : Nat) : Nat := pa % 34359738368 / 536870912
def aperWord (pa : Nat) : Nat := pa % 536870912

/-- The host address of a PA in the host aperture, through the window as it is set up now (R33, R459); 0 for another PA. -/
def State.aperHost (s : State) (pa : Nat) : Nat :=
  if pa < 137438953472 then 0
  else s.f F.HPT_AWHI.ADDR (aperPort pa) [aperWin pa] * 4294967296 + s.f F.HPT_AWLO.ADDR (aperPort pa) [aperWin pa] + 4 * aperWord pa

/-- Whether an aperture access is inside an open window (R459). -/
def State.aperOk (s : State) (write : Bool) (pa : Nat) : Bool :=
  let k := aperPort pa
  let i := aperWin pa
  s.live k && decide (s.f F.HPT_AWCFG.EN k [i] = 1) && decide (aperWord pa < 2 ^ s.f F.HPT_AWCFG.SIZE k [i]) &&
    (!write || decide (s.f F.HPT_AWCFG.WR k [i] = 1))

/-- A far access to be checked: its first and last VA. -/
structure FarReq where
  va : Nat
  last : Nat
  write : Bool
  /-- A double access (R283). -/
  double : Bool
  /-- A transfer or an element, confined to space 00b (R184, R231). -/
  mem : Bool
  /-- A transfer, confined to one page and one bank (R184). -/
  range : Bool
  deriving DecidableEq, Repr

/-- What a good far access found: the PA where it lands, whether it acts as with side effects (R32, R313), and the refills. -/
structure FarOk where
  pa : Nat
  side : Bool
  acts : List Act
  deriving DecidableEq, Repr

/-- A check of R296 that failed: the cause and the VA of the word, and the refills and the entries in error that its lookups found. -/
structure FarBad where
  cause : Cause
  va : Nat
  acts : List Act
  deriving DecidableEq, Repr

def firstBad (acts : List Act) : List (Bool × Cause × Nat) → Option FarBad
  | [] => none
  | (bad, c, va) :: l => if bad then some ⟨c, va, acts⟩ else firstBad acts l

/-- The engine after the refills of a lookup, which the next access uses (R290). -/
def Eng.refilled (x : Eng) (fresh : Nat) (acts : List Act) : Eng :=
  acts.foldl (fun y a => match a with
    | .dtlbRefill c => { y with dtlb := refillD y.dtlb c fresh }
    | .l2Bad l => y.mendL2 l
    | _ => y) x

/-- The checks of R296, in its order. -/
def State.farCheck (s : State) (d e : Nat) (r : FarReq) : FarOk ⊕ FarBad :=
  let x := s.eng d e
  let win : Nat := 68719472640
  match firstBad [] [(r.double && decide (r.va % 2 = 1), .daddr, r.va), (decide (win ≤ r.va), .daddr, r.va),
                  (decide (win ≤ r.last), .daddr, r.last)] with
  | some b => .inr b
  | none =>
    match x.lookD r.va with
    | none => .inr ⟨.dtlbmiss, r.va, [.l2Bad x.l2Errs]⟩
    | some a =>
    let x1 := x.refilled s.fresh a.acts
    match x1.lookD r.last with
    | none => .inr ⟨.dtlbmiss, r.last, a.acts ++ [.l2Bad x1.l2Errs]⟩
    | some b =>
      let right (t : TlbEnt) : Bool := (if r.write then t.w else t.r) && (t.u || !x.user)
      let pa0 := a.ent.ent.pa r.va
      let pa1 := b.ent.ent.pa r.last
      let space := pa0 / 68719476736
      let p0 := s.landPa pa0
      let p1 := s.landPa pa1
      let mem := decide (space = 0)
      let bank := mem && paShared p0
      let where_ (space pa : Nat) : Bool :=
        if space = 0 then s.located (s.landPa pa) && (!r.range || paShared pa)
        else if r.mem then false
        else if space = 1 then r.double && decide (pa % 68719476736 < 8388608)
        else decide (space = 2) && s.aperOk r.write pa
      let acts := a.acts ++ b.acts
      match firstBad acts [(!right a.ent.ent, .dprot, r.va), (!right b.ent.ent, .dprot, r.last),
          (r.range && decide (a.ent ≠ b.ent), .daddr, r.va),
          (r.range && bank && decide (p0 / 1048576 ≠ p1 / 1048576), .daddr, r.va),
          (!where_ space pa0, .daddr, r.va), (!where_ (pa1 / 68719476736) pa1, .daddr, r.last),
          (bank && decide (s.f F.SHM_PWR.PSTAT (paDie p0) [paBank p0] ≠ 0), .daddr, r.va),
          (bank && !s.admits d e p0, .owner, r.va)] with
      | some f => .inr f
      | none => .inl ⟨p0, a.ent.ent.se || !mem, acts⟩

end Sys2Proof.Machine
end

