-- ==== Sys2Proof/Machine/Host.lean ====
section
/-! DEFINITION. Host ports: rings, completions, events, the doorbell and status pages, stream rings, authority (R423 to R463). -/

namespace Sys2Proof.Machine

/-! ### Ports and rings -/

def State.port (s : State) (k : Nat) : Port := s.pkg.ports.get {} k

def State.setPort (s : State) (k : Nat) (x : Port) : State := { s with pkg := { s.pkg with ports := s.pkg.ports.set {} k x } }

def State.updPort (s : State) (k : Nat) (f : Port → Port) : State := s.setPort k (f (s.port k))

def State.ring (s : State) (k r : Nat) : Ring := (s.port k).rings.get {} r

def State.updRing (s : State) (k r : Nat) (f : Ring → Ring) : State :=
  s.updPort k (fun x => { x with rings := x.rings.set {} r (f (x.rings.get {} r)) })

/-- A write of the port to host memory, or a request (R434 to R458). -/
def State.emit (s : State) (k : Nat) (w : Sent) : State := s.updPort k (fun x => { x with sent := x.sent ++ [w] })

/-- A ring is enabled: EN = 1 (R431). -/
def State.ringOn (s : State) (k r : Nat) : Bool := decide (s.f F.HPT_RCFG.EN k [r] = 1)

/-- An enabled ring takes part once a doorbell read that was issued since has ended (R431). -/
def State.takesPart (s : State) (k r : Nat) : Bool := s.ringOn k r && !(s.port k).newRings.contains r

def State.ringType (s : State) (k r : Nat) : Nat := s.f F.HPT_RCFG.TYPE k [r]

/-- N of a ring (R430). -/
def State.ringN (s : State) (k r : Nat) : Nat := 2 ^ s.f F.HPT_RCFG.SIZE k [r]

/-- DEV and HOST (R437). -/
def State.dev (s : State) (k r : Nat) : Nat := s.f F.HPT_RSTAT.DEV k [r]
def State.hostIdx (s : State) (k r : Nat) : Nat := s.f F.HPT_RSTAT.HOST k [r]

/-- Free entries of a ring that the part writes: N − 1 less those between CI and PI (R430). -/
def State.freeEnt (s : State) (k r : Nat) : Nat :=
  let n := s.ringN k r
  n - 1 - (s.dev k r + n - s.hostIdx k r) % n

/-- Entries of a ring that the host writes, not yet taken. -/
def State.waiting (s : State) (k r : Nat) : Nat :=
  let n := s.ringN k r
  (s.hostIdx k r + n - s.dev k r) % n

/-- DEV moves on by one; PHASE inverts at the wrap to entry 0 (R443). -/
def State.step1 (s : State) (k r : Nat) : State :=
  let n := s.ringN k r
  let i := (s.dev k r + 1) % n
  let s1 := s.setF F.HPT_RSTAT.DEV k [r] i
  if i = 0 then s1.updRing k r (fun x => { x with phase := !x.phase }) else s1

/-- Bit 7 of a FLAGS byte (R443, R450, R458). -/
def phaseBit (b : Bool) : Nat := if b then 128 else 0

/-- The entry of a vector in the MSI-X table (R424). -/
def State.msixEnt (s : State) (k v : Nat) : MsixEnt := (s.port k).msix.get ⟨0, 0, true⟩ v

/-- A vector sends no message: it, or every vector, is masked, or MSI-X is off (R438; PRESUMED for the part off, log entry 189). -/
def State.vecMasked (s : State) (k v : Nat) : Bool :=
  !(s.port k).cfg.msixEnable || (s.port k).cfg.msixMask || (s.msixEnt k v).masked

/-- The MSI-X message of a vector, or its pending bit where the vector is masked (R438). -/
def State.msix (s : State) (k v : Nat) : State :=
  if s.vecMasked k v then s.updPort k (fun x => { x with pba := x.pba.set false v true })
  else s.emit k (.msix v (s.msixEnt k v).addr (s.msixEnt k v).data)

/-- Pending vectors that are masked no more send their messages (R438). -/
def State.msixFlush (s : State) (k : Nat) : State :=
  (List.range 32).foldl (fun t v =>
    if (t.port k).pba.get false v = true ∧ t.vecMasked k v = false then (t.updPort k (fun x => { x with pba := x.pba.set false v false })).msix k v
    else t) s

/-! ### Completions (R427, R440 to R444, R463) -/

/-- Statuses of R444. -/
inductive Status where
  | done | aborted | cancelled | late | toosoon | toofar | busy | locked | noctx | qbusy | param | noauth | badop | nodie | dmaerr
  | state | nospace | fail
  deriving DecidableEq, Repr

def Status.code : Status → Nat
  | .done => 0 | .aborted => 1 | .cancelled => 2 | .late => 3 | .toosoon => 4 | .toofar => 5 | .busy => 6 | .locked => 7 | .noctx => 8
  | .qbusy => 9 | .param => 10 | .noauth => 11 | .badop => 12 | .nodie => 13 | .dmaerr => 14 | .state => 15 | .nospace => 16 | .fail => 17

/-- Write one completion entry in ring `cq` (R443), with the ring's vector where asked (R438). -/
def State.putCompletion (s : State) (k cq ring : Nat) (tag : W32) (irq : Bool) (st : Status) (result : Nat) (pkg : Bool) (fn : Nat) : State :=
  let q := s.ring k cq
  let w := Sent.completion cq (s.dev k cq) tag st.code (phaseBit q.phase + pkg.toNat) ring (result % 4294967296) (fn % 4294967296)
  let s1 := (s.emit k w).step1 k cq
  if irq then s1.msix k (s.f F.HPT_RCFG.VEC k [cq]) else s1

/-- The completion of a command that a port has taken, when its ring is still enabled. -/
def State.complete (s : State) (tk : Taken) (tag : W32) (irq : Bool) (st : Status) (result : Nat) (pkg : Bool) (fn : Nat) : State :=
  if tk.quiet then s
  else
    let k := tk.port
    let s0 := s.incF F.HPT_CMDCNT.COUNT k []
    if s.takesPart k tk.cq = false then s0
    else (s0.updRing k tk.cq (fun x => { x with reserved := x.reserved - 1 })).putCompletion k tk.cq tk.ring tag irq st result pkg fn

/-- The completions of commands that waited for an event (R441). -/
def State.finish (s : State) (which : WaitKind → Bool) (st : Status) (result : WaitKind → Nat) (fn : Nat) : State :=
  let due := s.pkg.waits.filter (fun w => which w.kind)
  let s1 := { s with pkg := { s.pkg with waits := s.pkg.waits.filter (fun w => !which w.kind) } }
  due.foldl (fun t w => t.complete w.tk w.tag w.irq st (result w.kind) false fn) s1

/-! ### Events (R450, R451) -/

/-- Write one event entry. -/
def State.putEvent (s : State) (k r : Nat) (e : Event) : State :=
  ((s.emit k (.event r (s.dev k r) (s.ring k r).phase e)).step1 k r)

/-- The EVLOST event once two entries are free again (R451). -/
def State.putLost (s : State) (k r : Nat) : State :=
  let n := (s.ring k r).lost
  if n ≠ 0 ∧ 2 ≤ s.freeEnt k r then
    (s.putEvent k r ⟨0x32, 255, 6, s.fn k, [n]⟩).updRing k r (fun x => { x with lost := 0 })
  else s

/-- One event and one event ring (R451). -/
def State.offer (s : State) (k r : Nat) (e : Event) : State :=
  if s.takesPart k r = true ∧ s.ringType k r = 2 ∧ (s.reg .HPT_RCFG k [r]).getLsbD e.cls = true then
    let s1 := s.putLost k r
    if s1.freeEnt k r < 2 then (s1.updRing k r (fun x => { x with lost := x.lost + 1 })).incF F.HPT_EVLOST.COUNT k []
    else s1.putEvent k r e
  else s

/-- Pass new events to both ports. -/
def State.spreadEvents (s : State) : State :=
  let l := s.events
  ((({ s with events := [] }).updPort 0 (fun x => { x with evq := x.evq ++ l })).updPort 1 (fun x => { x with evq := x.evq ++ l }))

/-- The event rings of a port at a tick, in the order the events arose. -/
def State.writeEvents (s : State) (k : Nat) : State :=
  let l := (s.port k).evq
  let s1 := (List.range 64).foldl (fun t r => if t.takesPart k r = true ∧ t.ringType k r = 2 then t.putLost k r else t) s
  let s2 := l.foldl (fun t e => (List.range 64).foldl (fun u r => u.offer k r e) t) s1
  s2.updPort k (fun x => { x with evq := [] })

/-! ### Status page and doorbell (R433 to R438) -/

/-- A host address held in two registers. -/
def State.hostAddr (s : State) (lo hi : RegName) (k : Nat) : BitVec 64 := s.reg hi k [] ++ s.reg lo k []

/-- The status page and the MSI-X messages of the step at cycles 1,280 to 1,535 (R437, R438). -/
def State.statusPage (s : State) (k : Nat) : State :=
  let s1 := if s.f F.HPT_CTL.WBEN k [] = 1 then
      let g := (s.port k).sgen + 1
      let auth := s.f F.PKG_AUTH.OWNER 0 [] + 16 * s.f F.PKG_AUTH.PEND 0 []
      (s.emit k (.status (s.hostAddr .HPT_WBBASE_LO .HPT_WBBASE_HI k) (s.fn k) s.pkgState auth g ((List.range 64).map (fun r => (s.dev k r, s.hostIdx k r))))).updPort k
        (fun x => { x with sgen := g })
    else s
  let moved := (List.range 64).filter (fun r => s.ringOn k r && decide (s.dev k r ≠ (s.ring k r).lastDev))
  let vecs := (moved.map (fun r => s.f F.HPT_RCFG.VEC k [r])).eraseDups
  let s2 := vecs.foldl (fun t v => t.msix k v) s1
  moved.foldl (fun t r => t.updRing k r (fun x => { x with lastDev := t.dev k r })) s2

/-- Whether the tick's frame number calls for a doorbell read (R434). -/
def State.doorbellDue (s : State) (k : Nat) : Bool :=
  decide (s.f F.HPT_CTL.DBEN k [] = 1) && decide (s.fn k % max 1 (s.f F.HPT_CTL.DBN k []) = 0)

/-- One slot of the page as read (R434): the host index of the ring's type, when GEN is new. -/
def State.slotIn (s : State) (k : Nat) (x : DbSlot) : State :=
  let r := x.ring.val
  if s.ringOn k r = false ∨ (s.port k).lateRings.contains r = true ∨ x.gen = (s.ring k r).gen then s
  else
    let ty := s.ringType k r
    let i := (if ty = 1 ∨ ty = 2 ∨ ty = 4 then x.ci else x.pi).toNat
    let s1 := s.updRing k r (fun y => { y with gen := x.gen })
    if s.ringN k r ≤ i then s1.raise F.HPT_ERR.DBERR k [] else s1.setF F.HPT_RSTAT.HOST k [r] i

/-- Take commands from one command ring while the frame's allowance and its completion ring allow them (R440). -/
def State.takeCmds (s : State) (k r : Nat) : Nat → State
  | 0 => s
  | n + 1 =>
    let cq := s.f F.HPT_RCFG.CQ k [r]
    if s.waiting k r = 0 ∨ s.f F.HPT_CTL.CMDMAX k [] ≤ (s.port k).cmdTaken ∨ s.takesPart k cq = false ∨ s.freeEnt k cq ≤ (s.ring k cq).reserved then s
    else
      let t := Taken.mk k r (s.dev k r) cq false
      let s1 := (s.updPort k (fun x => { x with taken := x.taken ++ [t], cmdTaken := x.cmdTaken + 1 })).updRing k cq
        (fun x => { x with reserved := x.reserved + 1 })
      State.takeCmds (s1.step1 k r) k r n

/-- The command rings of a port, in ascending r (R440). -/
def State.takeAllCmds (s : State) (k : Nat) : State :=
  (List.range 64).foldl (fun t r => if t.takesPart k r = true ∧ t.ringType k r = 0 then t.takeCmds k r 255 else t) s

/-! ### Playback (R453 to R456) -/

/-- The open flows that name playback ring r of port k, by global number (R454). -/
def State.ringFlows (s : State) (k r : Nat) : List Nat :=
  (s.flA.filter (fun e => s.live (e.1 / 8192) && e.2.isOpen && decide (e.2.src = 4) && decide (e.2.srcId = 64 * k + r))).map Prod.fst

/-- One ring in a frame as the open flows that name it see it (R454 to R456): one that is no enabled playback ring holds no group (R428). -/
def State.playRing (s : State) (k r : Nat) : State :=
  match s.ringFlows k r with
  | [] => if (s.ring k r).under then s.updRing k r (fun x => { x with under := false }) else s
  | g :: more =>
    let s1 := if more.isEmpty then s else s.raise F.HPT_ERR.STREAMBAD k []
    let p := s.flow g
    let n := p.nchan * segsOf (s.fPrime p)
    if s.takesPart k r = false ∨ s.ringType k r ≠ 3 ∨ s.waiting k r < n then
      if (s.ring k r).under then s1
      else (s1.updRing k r (fun x => { x with under := true })).event 0x33 255 6 [64 * k + r, g]
    else
      let s2 := s1.updRing k r (fun x => { x with under := false })
      if (s.que (131072 * (g / 8192) + p.qbase)).bp then s2
      else
        let s3 := (List.range n).foldl (fun t _ => t.step1 k r) s2
        s3.updPort k (fun x => { x with groups := x.groups ++ [⟨r, g, n⟩] })

/-- The playback rings of a port, once in a frame (R455). -/
def State.playRings (s : State) (k : Nat) : State :=
  if (s.port k).streamsDone then s
  else
    let s1 := (List.range 64).foldl (fun t r => t.playRing k r) s
    s1.updPort k (fun x => { x with streamsDone := true })

/-- A doorbell read failed (R436): every index stays as last accepted. -/
def State.doorbellFail (s : State) (k : Nat) : State :=
  (((s.updPort k (fun x => { x with reading := false, newRings := x.lateRings, lateRings := [] })).incF F.HPT_DBFAIL.COUNT k []).raise F.HPT_ERR.DBERR k [])

/-- What follows a doorbell read, good or failed: commands and playback groups are taken (R440, R455). -/
def State.afterDoorbell (s : State) (k : Nat) : State := (s.takeAllCmds k).playRings k

/-- DOORBELL_READ_COMPLETE (R434 to R436, R440, R455, R462). From the first cycle of the guard the read has failed. -/
def execDoorbellReadComplete (port : PortNo) (ok : Bool) (heart : W32) (slots : List DbSlot) (s : State) : Host.Outcome State Fault Refusal :=
  let k := port.val
  if (s.port k).reading = false ∨ s.live k = false then .next s
  else if ok = false ∨ (s.die k).phase = .guard then .next ((s.doorbellFail k).afterDoorbell k)
  else
    let s1 := s.updPort k (fun x => { x with reading := false, heart := heart, heartAge := if heart = x.heart then x.heartAge else 0 })
    let s2 := (slots.foldl (fun t x => t.slotIn k x) s1).updPort k (fun x => { x with newRings := x.lateRings, lateRings := [] })
    .next (s2.afterDoorbell k)

/-- DOORBELL_READ_TIMEOUT (R436): the first cycle of the guard fails a read that has not completed; here one that it has passed over (log entry 182). -/
def execDoorbellReadTimeout (port : PortNo) (s : State) : Host.Outcome State Fault Refusal :=
  if (s.port port.val).reading = false ∨ s.live port.val = false ∨ (s.die port.val).phase ≠ .guard then .next s
  else .next ((s.doorbellFail port.val).afterDoorbell port.val)

/-- A container read as a sample of a format (R453): L16 in [15:0], L24 in [23:0], a slot in [31:0]; a BF mantissa (R7). -/
def containerIn (fmt : Nat) (c : W32) : Int :=
  if fmt = 0 then (c.setWidth 16).toInt else if fmt = 1 then (c.setWidth 24).toInt else c.toInt

/-- One playback entry made into a block of its flow (R318, R320, R455). -/
def playBlock (fmt tag fn chan seg : Nat) (cs : List W32) : List W18 :=
  let w0 : W18 := (cs.getD 0 0).setWidth 18
  let count := w0.toNat % 4096
  let body := (List.range count).map (fun i => cs.getD (4 + i) 0)
  if fmt = 3 then mkBlock ((w0.extractLsb' 12 6).toInt) (body.map (fun c => c.setWidth 18)) tag fn chan seg 0 0
  else
    let (e, ms) := toBlock (body.map (fun c => sampleW fmt (containerIn fmt c)))
    mkBlock e ms tag fn chan seg 0 0

/-- PLAYBACK_READ_COMPLETE (R453, R455): the group is checked and its blocks land. -/
def execPlaybackReadComplete (port : PortNo) (ring : Fin 64) (group : List (List W32)) (s : State) : Host.Outcome State Fault Refusal :=
  let k := port.val
  match (s.port k).groups.find? (fun x => decide (x.ring = ring.val)) with
  | none => .next s
  | some gr =>
    if s.live k = false then .next s
    else
      let s1 := s.updPort k (fun x => { x with groups := x.groups.erase gr })
      let g := gr.flow
      let d := g / 8192
      let p := s.flow g
      if s.live d = false ∨ p.isOpen = false then .next s1
      else
        let f := s.fPrime p
        let sg := segsOf f
        let bad (i : Nat) (cs : List W32) : Bool :=
          let w3 : W18 := (cs.getD 3 0).setWidth 18
          decide ((cs.getD 0 0).toNat % 4096 ≠ f / sg) || decide (w3.toNat / 64 % 64 ≠ i / sg) || decide (w3.toNat / 4096 % 4 ≠ i % sg)
        if group.length ≠ gr.n ∨ (group.mapIdx bad).any id = true then
          .next ((s1.flowDrop (some g) gr.n).raise F.HPT_ERR.STREAMBAD k [])
        else
          let blocks := group.mapIdx (fun i cs => playBlock p.fmt g (s.fn d) (i / sg) (i % sg) cs)
          .next (blocks.foldl (fun t b => t.land d (14 + k) g b) s1)

/-! ### Port reset (R427, R428) -/

/-- The registers of the HPT block that a port reset returns to their reset values: every one but HPT_SMAP. -/
def hptRegs : List (RegName × List (List Nat)) :=
  let one := [[]]
  let all := (List.range 64).map (fun i => [i])
  [(.HPT_CTL, one), (.HPT_STAT, one), (.HPT_ERR, one), (.HPT_DBBASE_LO, one), (.HPT_DBBASE_HI, one), (.HPT_WBBASE_LO, one),
   (.HPT_WBBASE_HI, one), (.HPT_EVLOST, one), (.HPT_DBFAIL, one), (.HPT_CMDCNT, one), (.HPT_APERR, one), (.HPT_RBLO, all), (.HPT_RBHI, all),
   (.HPT_RCFG, all), (.HPT_RSTAT, all), (.HPT_AWLO, all), (.HPT_AWHI, all), (.HPT_AWCFG, all)]

/-- Aperture reads in progress through a port complete with 0, its aperture writes are discarded, and each is counted (R427). -/
def State.dropAperture (s : State) (k : Nat) : State :=
  let mine (pa : Nat) : Bool := decide (pa / 68719476736 = 2) && decide (aperPort pa = k)
  (List.range 8).foldl (fun t d => (List.range 64).foldl (fun u e =>
    let x := u.eng d e
    let hit (w : FarWait) : Bool := mine w.pa && w.fwd.isNone
    let n := ((x.far ++ x.farOld).filter hit).length + (x.sbuf.filter (fun b => mine b.pa)).length
    if n = 0 then u
    else
      let zero (w : FarWait) : FarWait := if hit w then { w with fwd := some [0, 0], waits := false } else w
      ((u.setEng d e { x with far := x.far.map zero, farOld := x.farOld.map zero, sbuf := x.sbuf.filter (fun b => !mine b.pa) }).addF
        F.HPT_APERR.COUNT k [] n).raise F.HPT_ERR.APERR k []) t) s

/-- HOST_PORT_RESET (R427, R428). A frame whose doorbell read it ends takes no group from the port's rings, which are disabled (R455, R456). -/
def execHostPortReset (port : PortNo) (_linkDown : Bool) (s : State) : Host.Outcome State Fault Refusal :=
  let k := port.val
  if s.live k = false then .next s
  else
    let s1 := hptRegs.foldl (fun t (r, l) => l.foldl (fun u i => u.setReg r k i r.desc.reset) t) s
    let quiet (t : Taken) : Taken := if t.port = k then { t with quiet := true } else t
    let kept (p : Nat × Ring) : Option (Nat × Ring) := if p.2.under then some (p.1, { under := true }) else none
    let s2 := s1.updPort k (fun x => ({ inReset := true, taken := x.taken.map quiet, sent := x.sent, evq := x.evq, rings := x.rings.filterMap kept,
                                        streamsDone := x.streamsDone } : Port))
    let s3 := { s2 with pkg := { s2.pkg with waits := s2.pkg.waits.map (fun (w : Wait) => { w with tk := quiet w.tk }),
                                             claims := s2.pkg.claims.filter (fun c => decide (c ≠ k)) } }
    let s4 := s3.setF F.PKG_AUTH.PEND 0 [] (match s3.pkg.claims with | [] => 0 | c :: _ => c + 1)
    let s5 := s4.setF F.HPT_STAT.AUTH k [] (if s.f F.PKG_AUTH.OWNER 0 [] = k + 1 then 1 else 0)
    .next ((if (s.port k).reading then s5.playRings k else s5).dropAperture k)

/-- HOST_LINK_UP (R423): the link reaches L0; HPT_STAT shows speed and width. -/
def execHostLinkUp (port : PortNo) (speed width : BitVec 3) (s : State) : Host.Outcome State Fault Refusal :=
  let k := port.val
  if s.live k = false then .next s
  else
    let s1 := (s.raise F.HPT_STAT.LINKUP k []).setF F.HPT_STAT.SPEED k [] speed.toNat
    .next ((s1.setF F.HPT_STAT.WIDTH k [] width.toNat).updPort k (fun x => { x with inReset := false }))

/-! ### Authority (R460 to R463) -/

/-- A port claims (R461, R463). -/
def State.claim (s : State) (k : Nat) : State :=
  if s.f F.PKG_AUTH.OWNER 0 [] = k + 1 ∨ s.pkg.claims.contains k = true then s
  else
    let l := if k = 0 then 0 :: s.pkg.claims else s.pkg.claims ++ [k]
    ({ s with pkg := { s.pkg with claims := l } }.setF F.PKG_AUTH.PEND 0 [] (l.headD 0 + 1)).event 0x30 255 6 [k]

/-- A port releases authority or withdraws its claim (R461). -/
def State.release (s : State) (k : Nat) : State :=
  if s.pkg.claims.contains k then
    let l := s.pkg.claims.filter (fun c => decide (c ≠ k))
    { s with pkg := { s.pkg with claims := l } }.setF F.PKG_AUTH.PEND 0 [] (match l with | [] => 0 | c :: _ => c + 1)
  else if s.f F.PKG_AUTH.OWNER 0 [] = k + 1 then { s with pkg := { s.pkg with released := true } }
  else s

/-- The new owner, and what PEND shows (R461). -/
def State.own (s : State) (o : Nat) (l : List Nat) : State :=
  let s1 := { s with pkg := { s.pkg with claims := l, released := false } }.setF F.PKG_AUTH.OWNER 0 [] o
  let s2 := s1.setF F.PKG_AUTH.PEND 0 [] (match l with | [] => 0 | c :: _ => c + 1)
  let s3 := (s2.setF F.HPT_STAT.AUTH 0 [] (if o = 1 then 1 else 0)).setF F.HPT_STAT.AUTH 1 [] (if o = 2 then 1 else 0)
  (s3.updPort 0 (fun x => { x with lapsed := false, heartAge := 0 })).updPort 1 (fun x => { x with lapsed := false, heartAge := 0 })

/-- The lease of the holder has run out (R462). -/
def State.leaseOut (s : State) : Bool :=
  let o := s.f F.PKG_AUTH.OWNER 0 []
  let l := s.f F.PKG_AUTHLEASE.LEASE 0 []
  decide (o ≠ 0) && decide (l ≠ 0) && decide (l ≤ (s.port (o - 1)).heartAge)

/-- LEASE_LAPSE (R462): LEASE frames have passed without a change of HEART. The tick that ends them lapses the lease; here one that a tick has passed
over, as where LEASE was made shorter since (log entry 182). -/
def execLeaseLapse (s : State) : Host.Outcome State Fault Refusal :=
  let o := s.f F.PKG_AUTH.OWNER 0 []
  if s.leaseOut = false then .next s
  else .next (s.updPort (o - 1) (fun x => { x with lapsed := true }))

/-- Authority at cycle 0 of a tick (R461 to R463). -/
def State.authTick (s : State) : State :=
  let s0 := (s.updPort 0 (fun x => { x with heartAge := x.heartAge + 1 })).updPort 1 (fun x => { x with heartAge := x.heartAge + 1 })
  let o := s0.f F.PKG_AUTH.OWNER 0 []
  let s1 := if s0.leaseOut then s0.updPort (o - 1) (fun x => { x with lapsed := true }) else s0
  let gone := decide (o = 0) || (s1.port (o - 1)).inReset || (s1.port (o - 1)).lapsed || s1.pkg.released
  match s1.pkg.claims with
  | c :: l => if gone then (s1.own (c + 1) l).event 0x31 255 6 [c + 1] else s1
  | [] => if s1.pkg.released then s1.own 0 [] else s1

end Sys2Proof.Machine
end

