-- ==== Sys2Proof/Machine/Ports.lean ====
section
/-! DEFINITION. Local memory ports: which requests a bank serves in a cycle, what the losers cost, the beats of vector accesses, and program
memory as a bundle reads it (R162, R229, R230, R240 to R248). -/

namespace Sys2Proof.Machine

/-- The local accesses of a bundle: port (0 PMW, 1 L0, 2 L1, 3 V: R241), word, and whether it writes. -/
def fxAccess : Fx → List (Nat × Nat × Bool)
  | .ld p _ l => l.map (fun i => (p, i.1, false))
  | .rd p l => l.map (fun i => (p, i, false))
  | .st p l => l.map (fun i => (p, i.1, true))
  | _ => []

/-! ### Arbitration (R240 to R245) -/

/-- The bank of a local word (R240). -/
def lbank (a : Nat) : Nat := a % 8

/-- Requests of one bank among requests of (port, word). -/
def inLbank (b : Nat) (q : List (Nat × Nat)) : Nat := (q.filter (fun r => decide (lbank r.2 = b))).length

/-- The requests of a cycle, highest first: those served, two to a bank at most, and those that lose (R242, R243). -/
def serve (q : List (Nat × Nat)) : List (Nat × Nat) × List (Nat × Nat) :=
  q.foldl (fun p r => if inLbank (lbank r.2) p.1 < 2 then (p.1 ++ [r], p.2) else (p.1, p.2 ++ [r])) ([], [])

/-- The requests of each of at most `n` cycles after one with requests `q`: the losers are served in the stall cycles that follow (R243). -/
def retries : Nat → List (Nat × Nat) → List (List (Nat × Nat))
  | 0, _ => []
  | n + 1, q => match (serve q).2 with
    | [] => []
    | l => l :: retries n l

/-- The ports that lose in each cycle (R245). -/
def lostPorts (n : Nat) (q : List (Nat × Nat)) : List (List Nat) := (retries n q).map (fun l => (l.map Prod.fst).eraseDups)

/-! ### Vector beats (R229) -/

/-- The V accesses of one effect, in element order. -/
def Fx.vAccess : Fx → List Beat
  | .ld 3 _ l => l.map (fun (a, t) => match t with
      | .lane r i => ⟨a, none, r, i, 0⟩
      | _ => ⟨a, none, 0, 0, 0⟩)
  | .st 3 l => l.map (fun (a, v) => ⟨a, some v, 0, 0, 0⟩)
  | _ => []

/-- The beat of each V access: the number of earlier ones in its bank (R229). -/
def beats : List Beat → List Beat → List (Nat × Beat)
  | _, [] => []
  | seen, b :: l => ((seen.filter (fun c => decide (lbank c.addr = lbank b.addr))).length, b) :: beats (seen ++ [b]) l

/-- Whether an effect is that of a local vector operation, of words or of none (R229). -/
def Fx.isVmem : Fx → Bool
  | .ld 3 _ _ | .st 3 _ => true
  | _ => false

/-- The accesses of beat `n`. -/
def beatOf (n : Nat) (l : List Beat) : List Beat := ((beats [] l).filter (fun p => decide (p.1 = n))).map Prod.snd

/-! ### What a bundle meets -/

/-- The requests of a bundle's cycle: PMW, L0 and L1, then V, which is beat 1 of the bundle before or beat 0 of this one (R229, R241). -/
def Eng.requests (x : Eng) (fx : List Fx) : List (Nat × Nat) :=
  let acc := fx.flatMap fxAccess
  let port (p : Nat) : List (Nat × Nat) := (acc.filter (fun a => decide (a.1 = p))).map (fun a => (p, a.2.1))
  let v := if x.carry.isEmpty then beatOf 0 (fx.flatMap Fx.vAccess) else x.carry
  port 0 ++ port 1 ++ port 2 ++ v.map (fun b => (3, b.addr))

/-- The accesses of beat 1 of the bundle before that are served in the bundle's cycle, and those that lose it (R229, R243). -/
def Eng.carryNow (x : Eng) (fx : List Fx) : List Beat × List Beat :=
  let q := (serve (x.requests fx)).1
  x.carry.partition (fun b => q.contains (3, b.addr))

/-- What a bundle's same-word rules compare: its own accesses (R247), and those of the bundle before in its cycle (R230, R246). -/
def Eng.meets (x : Eng) (fx : List Fx) : List (Nat × Nat × Bool) :=
  fx.flatMap fxAccess ++ (x.carryNow fx).1.map (fun b => (3, b.addr, b.store.isSome))

/-- The engine as the L ports of a bundle see local memory: a store of beat 1 that lost the cycle has not been made yet. -/
def Eng.lview (x : Eng) (fx : List Fx) : Eng := { x with carry := (x.carryNow fx).2 }

/-- A local word as a load through port `p` finds it, in the view of `Eng.lview`. -/
def Eng.lword (x : Eng) (p a : Nat) : Stored :=
  match (if p < 3 then x.carry.find? (fun b => decide (b.addr = a) && b.store.isSome) else none) with
  | some b => b.old
  | none => x.lmem.get 0 a

/-- The same-word conflicts of R246: the later port of each pair of a reader and a writer of one word. -/
def conflicts (acc : List (Nat × Nat × Bool)) : List Nat :=
  acc.flatMap (fun (p, a, w) => if w then [] else
    ((acc.filter (fun (q, b, v) => v && decide (b = a) && decide (q ≠ p))).map (fun (q, _, _) => max p q)))

/-- Whether a read through port `p` meets a write of the same word through another port (R246, R247). -/
def clash (acc : List (Nat × Nat × Bool)) (p a : Nat) : Bool :=
  acc.any (fun (q, b, v) => v && decide (b = a) && decide (q ≠ p))

/-- Whether a local word lies in the range of a transfer. -/
def Xfer.covers (t : Xfer) (a : Nat) : Bool := decide ((a + 65536 - t.loc.toNat) % 65536 < t.len)

/-- Words that a transfer in progress writes (R187). -/
def Eng.fetching (x : Eng) (a : Nat) : Bool :=
  x.xfers.any (fun t => match t.kind with
    | .fetch | .fetchB _ => t.covers a
    | _ => false)

/-- Words that a transfer in progress reads. -/
def Eng.stowing (x : Eng) (a : Nat) : Bool :=
  x.xfers.any (fun t => match t.kind with
    | .stow | .stowB _ => t.covers a
    | _ => false)

/-- The accesses that may meet the FETCH port on their word: one reads and the other writes (R241, R246). -/
def Eng.fetchMeets (x : Eng) (acc : List (Nat × Nat × Bool)) : List (Nat × Nat × Bool) :=
  acc.filter (fun (_, a, w) => if w then x.stowing a else x.fetching a)

/-- Banks whose two places a cycle takes, where a FETCH request loses (R242, R243). -/
def fullBanks (q : List (Nat × Nat)) : List Nat := (List.range 8).filter (fun b => decide (2 ≤ inLbank b q))

/-- The lanes of a vector load of the bundle before whose word the L ports store in this bundle's cycle (R246), which are undefined, or
earlier than their beat, which then reads the word stored. `m` is local memory after the stores of the L ports. -/
def Eng.lanePatch (x : Eng) (fresh : Nat) (fx : List Fx) (m : Store Stored) : List (Nat × Nat × W18) :=
  let acc := fx.flatMap fxAccess
  let hit (b : Beat) : Bool := b.store.isNone && acc.any (fun (p, a, w) => w && decide (p < 3) && decide (a = b.addr))
  ((x.carryNow fx).1.filter hit).mapIdx (fun i b => (b.reg, b.lane, freeBits 18 (fresh + 1920 + i))) ++
    ((x.carryNow fx).2.filter hit).map (fun b => (b.reg, b.lane, data18 (m.get 0 b.addr)))

/-- A lane on its way with its word replaced. -/
def PendW.patch (l : List (Nat × Nat × W18)) (p : PendW) : PendW :=
  match p.wr with
  | .v r ls => if p.left = 3 then { p with wr := .v r (ls.map (fun (i, w) =>
      match l.find? (fun q => decide (q.1 = r ∧ q.2.1 = i)) with
      | some q => (i, q.2.2)
      | none => (i, w))) } else p
  | _ => p

/-- The stores of the bundle before that stay over those of this bundle's L ports (R230, R248). -/
def Eng.keepBeats (x : Eng) (m : Store Stored) : Store Stored :=
  x.carry.foldl (fun m b => match b.store with
    | some v => m.set 0 b.addr (enc18 v)
    | none => m) m

/-! ### Program memory as bundles read it (R162) -/

/-- The place of a bundle in a half (R251). -/
def pmPlace (half : Bool) (pc : Nat) : Nat := (if half then 4096 else 0) + pc

/-- Bundle `pc` of a half as the k-th bundle to issue from now reads it, 1 being the one at hand: the first eight bundles after a PMW read what
was there before it, and every later one what it wrote (R162). -/
def Eng.pmAt (x : Eng) (k : Nat) (half : Bool) (pc : Nat) : BitVec 152 :=
  let i := pmPlace half pc
  match x.pmOld.find? (fun o => decide (o.1 = i ∧ k ≤ o.2.2)) with
  | some (_, b, _) => b
  | none =>
    match (x.pmws.filter (fun p => decide (pmPlace p.half p.addr.toNat = i ∧ 8 < p.age + k))).getLast? with
    | some p => encBundle p.data
    | none => x.pmem.get 0 i

/-- One PMW lands: later bundles read it once eight have issued since its own. -/
def Eng.landPmw (x : Eng) (p : PmwEnt) : Eng :=
  let i := pmPlace p.half p.addr.toNat
  { x with pmem := x.pmem.set 0 i (encBundle p.data),
           pmOld := if p.age < 8 then x.pmOld ++ [(i, x.pmem.get 0 i, 8 - p.age)] else x.pmOld }

/-- The consecutive full cycles of each bank after a bundle with requests `q`, its stall cycles among them; none while no transfer is in progress
(R244). -/
def Eng.runs (x : Eng) (q : List (Nat × Nat)) : Store Nat :=
  if x.xfers.isEmpty then []
  else (q :: retries 32 q).foldl (fun m c => (fullBanks c).foldl (fun k b => k.set 0 b (m.get 0 b + 1)) []) x.fullRun

/-- The engine with the cycles counted that its banks have been full while a transfer was in progress (R244). -/
def Eng.ran (x : Eng) (l : Store Nat) : Eng := { x with fullRun := l }

/-- One more bundle has issued: PMWs grow older, the one that is eight bundles old having landed, the vector accesses of beat 1 stand ready, and
the done bits of transfers of length 0 are set unless their tag is in use again (R162, R183, R229). An IFENCE whose last PMW lands so waits no
more (R163). -/
def Eng.aged (x : Eng) (zs : List Nat) (pm : List PmwEnt) (carry : List Beat) : Eng :=
  let old := (x.pmws.take pm.length).map (fun p => { p with age := p.age + 1 })
  let x1 := (old.filter (fun p => decide (8 ≤ p.age))).foldl Eng.landPmw
    { x with pmOld := (x.pmOld.map (fun o => (o.1, o.2.1, o.2.2 - 1))).filter (fun o => decide (0 < o.2.2)) }
  let done := zs.filter (fun t => !(x.xfers.any (fun y => decide (y.tag = t))))
  let rest := old.filter (fun p => decide (p.age < 8)) ++ x.pmws.drop pm.length
  let dry := x1.fence && rest.isEmpty
  { x1 with pmws := rest, carry := carry, fence := x1.fence && !rest.isEmpty, pmOld := if dry then [] else x1.pmOld
            zdone := x.zdone.drop zs.length, bits := done.foldl (fun m t => m.set false (32 + t) true) x.bits }

end Sys2Proof.Machine
end

