-- ==== Sys2Proof/Machine/Issue.lean ====
section
/-! DEFINITION. Issue of a bundle: syllables gather with their effects, and the bundle closes with its checks, its trap or
its effects, and the choice of the next bundle (R100, R111 to R140, R154 to R156, R246). -/

namespace Sys2Proof.Machine

/-- What an operation sees: the state before its bundle, and where it issues. -/
structure Ctx where
  s : State
  d : Nat
  e : Nat
  x : Eng
  at_ : At

/-- What an operation does. -/
structure OpRes where
  fx : List Fx := []
  traps : List TrapReq := []

/-- What the bundle rules ask of an operation: the slots that define it (R101), whether it is privileged (R109), its kind, and
whether it takes an extension (R169). -/
structure OpInfo where
  slots : List Nat
  priv : Bool := false
  kind : SylKind := .plain
  ext : Bool := false

def classL : List Nat := [0, 1]
def classM : List Nat := [2, 3]
def classX : List Nat := [4, 5]
def classV : List Nat := [6]
def classC : List Nat := [7]

/-- A trap without an address. -/
def Ctx.trap (c : Ctx) (k : Cause) : TrapReq := ⟨k, c.at_.slot.val, none, false, none, []⟩

/-- A trap with EVAH:EVAL. -/
def Ctx.trapAt (c : Ctx) (k : Cause) (v : Nat) (dbl : Bool) : TrapReq :=
  ⟨k, c.at_.slot.val, some (BitVec.ofNat 36 v), dbl, none, []⟩

/-- A free value of this syllable: number `i` of the 128 that its slot may use. -/
def Ctx.free (c : Ctx) (w i : Nat) : BitVec w := freeBits w (c.s.fresh + 128 * c.at_.slot.val + i)

/-! ### Landing of results (R111, R114) -/

/-- Software writes to local bits (R201): 0 to 511 can be cleared, 16 to 511 cannot be set. -/
def writeBit (m : Store Bool) (i : Nat) (v : Bool) : Store Bool :=
  if v = true ∧ 16 ≤ i ∧ i < 512 then m else m.set false i v

/-- One register write. -/
def Eng.put (x : Eng) : Wr → Eng
  | .d i v => { x with d := x.d.set 0 i v }
  | .ac i v => { x with ac := x.ac.set 0 i v }
  | .a i v => { x with a := x.a.set 0 i v }
  | .m i v => { x with m := x.m.set 0 i v }
  | .bs i v => { x with bs := x.bs.set 0 i v }
  | .ln i v => { x with ln := x.ln.set 0 i v }
  | .v i ls => { x with v := ls.foldl (fun m (l, w) => m.set 0 (16 * i + l) w) x.v }
  | .va i ls => { x with va := ls.foldl (fun m (l, w) => m.set 0 (16 * i + l) w) x.va }
  | .fl sh mask v => if sh then { x with flS := (x.flS &&& ~~~mask) ||| v } else { x with fl := (x.fl &&& ~~~mask) ||| v }
  | .flSet sh b => if sh then { x with flS := x.flS ||| b } else { x with fl := x.fl ||| b }
  | .st mask v => { x with st := (x.st &&& ~~~mask) ||| (v &&& mask) }
  | .rc v => { x with rc := v }
  | .scnt v => { x with scnt := v }
  | .bxs v => { x with bxs := v }
  | .vl v => { x with vl := v }
  | .vfi v => { x with vfi := v }
  | .dbk v => { x with dbk := v }
  | .asid v => { x with asid := v }
  | .epc v => { x with epc := v }
  | .epc2 v => { x with epc2 := v }
  | .ecause v => { x with ecause := v }
  | .evah v => { x with evah := v }
  | .eval v => { x with eval := v }
  | .ivec v => { x with ivec := v, vecBad := x.vecBad.filter (fun k => decide (k ≠ 0)) }
  | .tvec v => { x with tvec := v, vecBad := x.vecBad.filter (fun k => decide (k ≠ 1)) }
  | .imask v => { x with imask := v, vecBad := x.vecBad.filter (fun k => decide (k ≠ 2)) }
  | .lc n v => { x with loops := x.loops.set n ⟨(v >>> 24).setWidth 12, (v >>> 12).setWidth 12, v.setWidth 12⟩ }
  | .bit i v => { x with bits := writeBit x.bits i v }
  | .hw i => { x with bits := x.bits.set false i true }

/-- Whether a write sets sticky flags, or a bit by hardware: these land after the other writes due for the same bundle (R176, R201). -/
def Wr.sticky : Wr → Bool
  | .flSet _ _ | .hw _ => true
  | _ => false

/-- The writes of a list in order, the sticky sets last. -/
def Eng.putAll (x : Eng) (l : List Wr) : Eng :=
  (l.filter Wr.sticky).foldl Eng.put ((l.filter (fun w => !w.sticky)).foldl Eng.put x)

/-- One more bundle has issued: results fall due (R111). A handler's writes of chained registers are noted (R113). -/
def Eng.tickPw (x : Eng) : Eng :=
  let l : List PendW := x.pw.map (fun p => { p with left := p.left - 1 })
  let due : List Wr := (l.filter (fun (p : PendW) => decide (p.left = 0))).map PendW.wr
  ({ x with pw := l.filter (fun p => decide (0 < p.left)),
            hand := if x.pwf.isEmpty then [] else x.hand ++ due.flatMap Wr.keys }).putAll due

/-! ### The next bundle (R118, R127 to R138) -/

/-- Whether a target lies outside the innermost loop (R131). -/
def Eng.outside (x : Eng) (t : BitVec 12) : Bool :=
  match x.loops with
  | [] => false
  | l :: _ => decide (t < l.start) || decide (l.stop < t)

/-- The restore of RETI, at the first bundle at EPC (R147 to R149). With RDS = 00b the resumed bundles are ordinary ones, also where the
interrupted code was in the delay slots of an untaken branch (DESIGN CHOICE, log entry 146). -/
def Eng.reti (x : Eng) (epc2 : BitVec 14) (target : BitVec 12) : Eng :=
  let st := (x.st &&& 0x3FFFA#18) ||| 0x2#18 ||| (if x.st.getLsbD 5 then 1#18 else 0)
  let rds := epc2.toNat / 4096
  let y := { x with st := st, pc := target, pw := x.pw ++ x.pwf, pwf := [], hand := [], carry := [],
                    br := if rds = 0 then none else some ⟨rds, some (epc2.setWidth 12), x.brSave.getD .call⟩, brSave := none }
  let due := y.pw.filter (fun (p : PendW) => decide (p.left = 0))
  ({ y with pw := y.pw.filter (fun p => decide (0 < p.left)) }).putAll (due.map PendW.wr)

/-- A pop that falls due when a target issues (R131), for the register set in use. -/
def Eng.duePop (x : Eng) : Eng :=
  if x.sh then { x with popS := true } else { x with popU := true }

/-- The engine at its next PC by the delay slots, the repetition or the loop of the bundle. `old` is the loop stack as the bundle saw it, which decides
whether it was a loop END (R111, R119, R127, R134). An entry whose COUNT is 0 ends as one whose COUNT is 1 (DESIGN CHOICE, log entry 141). A late target
ends the overlap of vector beats (R123). -/
def Eng.onward (x : Eng) (old : List LoopEnt) : Eng :=
  match x.br with
  | some ⟨n, t, k⟩ =>
    if 1 < n then { x with pc := x.pc + 1, br := some ⟨n - 1, t, k⟩ }
    else
      let x0 := { x with br := none, gap := false, carry := if x.gap then [] else x.carry }
      match k, t with
      | .reti e2, some a => x0.reti e2 a
      | .br, some a =>
        let y := { x0 with pc := a }
        if x.outside a then y.duePop else y
      | _, some a => { x0 with pc := a }
      | _, none => { x0 with pc := x.pc + 1 }
  | none =>
    match x.rpt with
    | some n => if 1 < n then { x with rpt := some (n - 1) } else { x with rpt := none, pc := x.pc + 1 }
    | none =>
      match old, x.loops with
      | l :: _, z :: ls =>
        if l.stop = x.pc then
          if 1 < l.count.toNat then
            { x with loops := (if z = l then { l with count := l.count - 1 } else z) :: ls, pc := l.start }
          else { x with loops := ls, pc := x.pc + 1 }
        else { x with pc := x.pc + 1 }
      | _, _ => { x with pc := x.pc + 1 }

/-- What an act of the bundle does to its sequencing. The bubble of an IFENCE ends the overlap of vector beats (R163, R229). An RPT of 0 times over a
loop END leaves the entry as it is (DESIGN CHOICE, log entry 142). -/
def Eng.directed (y : Eng) : Act → Eng
  | .jump k t => { y with br := some ⟨2, t, k⟩ }
  | .loop c en st => { y with loops := ⟨c, en, st⟩ :: y.loops }
  | .skip n => { y with pc := n, carry := [] }
  | .ifence => { y with carry := [] }
  | .rpt n => if n = 0 then { y with pc := y.pc + 1 } else { y with rpt := some n }
  | _ => y

/-- Where the next bundle lies, after a bundle with the given acts, whose results have landed; a string operation that goes on issues again (R138). -/
def Eng.advance (x : Eng) (old : List LoopEnt) (acts : List Act) : Eng :=
  if acts.contains .again then x else acts.foldl Eng.directed (x.onward old)

/-! ### Acts on more than registers -/

/-- The history hash of R121. -/
def histHash (l : List (BitVec 12)) : BitVec 6 :=
  let t (i : Nat) : BitVec 6 := (l.getD i 0).setWidth 6
  t 0 ^^^ (t 1).rotateLeft 1 ^^^ (t 2).rotateLeft 2 ^^^ (t 3).rotateLeft 3

/-- A misprediction: at most four wrong-path bundles are fetched, how many being free (R126). -/
def State.wrongPath (s : State) (d e : Nat) : State :=
  let n := freeNat 5 (s.fresh + 1023)
  (s.addF F.ENG_WPF.COUNT d [e] n).addF F.ENG_PMBANK.COUNT d [e] n

/-- Bundles behind the last one that issues are read at F2 and dropped: how many, up to the ten cycles of an entry, is free (R110, R165, R251). -/
def State.fetchedOn (s : State) (d e : Nat) : State := s.addF F.ENG_PMBANK.COUNT d [e] (freeNat 11 (s.fresh + 1019))

/-- A local bit that a bundle's own work sets by hardware: the set lands with the bundle's results and wins over a software clear (R201). -/
def Eng.hwSet (x : Eng) (i : Nat) : Eng := { x with pw := x.pw ++ [⟨1, .hw i, false⟩] }

/-- Set a local bit by hardware (R201); a request is sampled in the cycle at hand where its line is (R144). -/
def Eng.setBit (x : Eng) (i : Nat) : Eng :=
  { x with bits := x.bits.set false i true,
           smp := if i < 16 ∧ x.smpEn.getLsbD i = true then x.smp ||| BitVec.twoPow 16 i else x.smp }

/-- The engine is interruptible in the cycle of its next issue (R144). -/
def Eng.open_ (x : Eng) : Bool := x.st.getLsbD 1 && !x.sh

/-- `y` with what the engine `x` samples in the cycle in which its bundle issues: the lines pending there, and for a repetition those sampled since
the RPT bundle (R136, R144). -/
def Eng.sampled (y x : Eng) : Eng :=
  { y with smp := (if x.open_ then x.ipend else 0) ||| (if x.rpt.isSome then x.smp else 0), smpEn := if x.open_ then x.imask else 0 }

def State.updEng (s : State) (d e : Nat) (f : Eng → Eng) : State := s.setEng d e (f (s.eng d e))

/-- Invalidate L2 entries and the first-level copies of them (R305). -/
def Eng.dropTlb (x : Eng) (l : List Nat) : Eng :=
  let keep (o : Option TlbCopy) : Option TlbCopy := match o with
    | some c => if l.contains c.idx then none else some c
    | none => none
  { x with l2 := l.foldl (fun m i => m.set .zero i { m.get .zero i with v := false }) x.l2,
           itlb := x.itlb.map keep, dtlb := x.dtlb.map keep }

/-- A queue result of latency 8: the handle and Z (R112, R204). -/
def qResult (dst : Nat) (sh : Bool) (h : Option Nat) : List PendW :=
  [⟨8, .d dst (BitVec.ofNat 18 (h.getD 0)), false⟩, ⟨8, .fl sh 0x02#7 (if h.isSome then 0 else 0x02#7), false⟩]

/-- Whether the run holds or allocated a block. -/
def Work.has (w : Work) (h : BitVec 16) : Bool := w.alloc.contains h || w.held.any (fun p => decide (p.1 = h))

/-- Whether an ENQ or REL of the block was already made in this run (R207). -/
def Work.used (w : Work) (h : BitVec 16) : Bool := w.rel.contains h || w.enq.any (fun p => decide (p.1 = h))

/-- ENQ or REL of a value (R207, R323): handle 0 does nothing; a block the run neither holds nor allocated, or a second ENQ or
REL of one, is ignored and counted. -/
def State.useBlock (s : State) (d e : Nat) (v : W18) (f : Work → BitVec 16 → Work) : State :=
  let h := v.toNat
  if s.validH d h = false then s
  else
    let x := s.eng d e
    let b := BitVec.ofNat 16 h
    if x.work.has b && !x.work.used b then s.setEng d e { x with work := f x.work b }
    else s.incF F.KEN_BADOP.COUNT d []

/-- The die that serves a far access: that of the memory word or of the register's window, the package block's and an aperture's being the die
of the port (R26, R30, R33). -/
def State.farDie (s : State) (pa : Nat) : Nat :=
  if pa < 68719476736 then paDie (s.landPa pa)
  else if pa < 137438953472 then 2 * (pa % 68719476736) / 0x100000 - 1
  else aperPort pa

/-- The messages that carry an access of up to 16 words at each PA of the list to another die, with their tokens (R35). -/
def State.accessFor (s : State) (d e : Nat) (pas : List Nat) (reply : Bool) : State × List Nat :=
  pas.foldl (fun (p : State × List Nat) pa =>
    let g := p.1.farDie pa
    if g = d ∨ p.1.live g = false then p
    else
      let x := p.1.eng d e
      ((p.1.setEng d e { x with tokN := x.tokN + 1, toks := x.toks ++ [x.tokN] }).spineSend d g (.access e x.tokN reply), p.2 ++ [x.tokN])) (s, [])

/-- The accesses to another die that are still out, of those with these tokens, that die running (R35). -/
def Eng.out (x : Eng) (live : Bool) (ks : List Nat) : Bool := live && ks.any (fun k => x.toks.contains k)

/-- The accesses of a transfer: one for each 16 words, or for each element (R35, R182, R231). -/
def Xfer.parts (t : Xfer) : List Nat :=
  match t.kind with
  | .gather _ => t.elems.map Prod.snd
  | .scatter => t.elems.map Prod.fst
  | .fetchB _ | .stowB _ => []
  | _ => (List.range ((t.len + 15) / 16)).map (fun i => t.pa + 16 * i)

/-- Accesses that stay on their die: shared bits (R208). -/
def FarKind.own : FarKind → Bool
  | .sbit _ _ _ => true
  | _ => false

/-- The other effects of a bundle. -/
def State.act1 (s : State) (d e : Nat) : Act → State
  | .indirect t =>
    let x := s.eng d e
    let i := (x.pc.setWidth 6 ^^^ histHash x.hist).toNat
    let hit := x.itab.get none i = some t ∧ x.itabBad.contains i = false
    let y := { x with itab := x.itab.set none i (some t), itabBad := x.itabBad.filter (fun k => decide (k ≠ i)), hist := t :: x.hist.take 3 }
    if hit then s.setEng d e y
    else ((s.setEng d e { y with gap := true }).incF F.ENG_MISP.IND d [e]).wrongPath d e
  | .pushRet t => s.updEng d e (fun x => { x with rstack := ((t, false) :: x.rstack).take 8 })
  | .popRet t =>
    let x := s.eng d e
    let y := { x with rstack := x.rstack.tail }
    if x.rstack.head? = some (t, false) then s.setEng d e y
    else ((s.setEng d e { y with gap := true }).incF F.ENG_MISP.RET d [e]).wrongPath d e
  | .strVal v => s.updEng d e (fun x => { x with strV := v })
  | .far w =>
    let (s1, ks) := if w.fwd.isSome || w.kind.own then (s, []) else s.accessFor d e [w.pa] true
    s1.updEng d e (fun x => { x with far := x.far ++ [{ w with upTo := x.sbN, toks := ks, host := s.aperHost w.pa }] })
  | .store b =>
    if (s.eng d e).sbuf.length < 8 then
      let (s1, ks) := s.accessFor d e [b.pa] false
      s1.updEng d e (fun x => { x with sbuf := x.sbuf ++ [{ b with seq := x.sbN, toks := ks, host := s.aperHost b.pa }], sbN := x.sbN + 1 })
    else s.updEng d e (fun x => x.hwSet 41)
  | .xfer t =>
    let s0 := s.updEng d e (fun x => { x with bits := x.bits.set false (32 + t.tag) false })
    if t.len = 0 then s0.updEng d e (fun x => { x with zdone := x.zdone ++ [t.tag] })
    else
      let (s1, ks) := s0.accessFor d e t.parts true
      s1.updEng d e (fun x => { x with xfers := x.xfers ++ [{ t with toks := ks }] })
  | .enq h q => s.useBlock d e h (fun w b => { w with enq := w.enq ++ [(b, q)] })
  | .rel h => s.useBlock d e h (fun w b => { w with rel := w.rel ++ [b] })
  | .deq dst q sh =>
    let x := s.eng d e
    let (s1, r) := if x.run = .idle then (s, none) else s.dequeue d q (s.portQueue q)
    s1.updEng d e (fun y => { y with
      pw := y.pw ++ qResult dst sh r
      work := (match r with | some h => { y.work with held := y.work.held ++ [(BitVec.ofNat 16 h, q)] } | none => y.work) })
  | .alloc dst sh =>
    let x := s.eng d e
    let r := if x.run = .idle then none else s.pickFree d
    let s1 := match r with
      | some h => (s.useFree 1).toState d h ⟨.tent, 0, false, 0, false, false, false⟩
      | none => s
    s1.updEng d e (fun y => { y with
      pw := y.pw ++ qResult dst sh r
      work := (match r with | some h => { y.work with alloc := y.work.alloc ++ [BitVec.ofNat 16 h] } | none => y.work) })
  | .tlbw i t bad => s.updEng d e (fun x =>
      let y := { x with l2 := x.l2.set .zero i t }
      if bad then y.hwSet 43 else y)
  | .bitSet i => s.updEng d e (fun x => x.hwSet i)
  | .dropIdx l => s.updEng d e (fun x => x.dropTlb l)
  | .l2Bad l => s.updEng d e (fun x => x.mendL2 l)
  | .tlbsync => s.updEng d e (fun x => { x with itlb := [], dtlb := [], epoch := x.epoch + 1 })
  | .healVec k => s.updEng d e (fun x => { x with vecBad := x.vecBad.filter (fun i => decide (i ≠ k)) })
  | .wcinv => s.updEng d e (fun x => { x with walk := [] })
  | .itlbRefill c => s.updEng d e (fun x => { x with itlb := placeCopy c 8 (freeNat 8 (s.fresh + 1021)) x.itlb })
  | .dtlbRefill c => s.updEng d e (fun x => { x with dtlb := refillD x.dtlb c s.fresh })
  | .pmw p => s.updEng d e (fun x => { x with pmws := x.pmws ++ [p] })
  | .ifence => (s.updEng d e (fun x =>
      { x with fence := !x.pmws.isEmpty, pmOld := if x.pmws.isEmpty then [] else x.pmOld })).fetchedOn d e
  | .fend => (s.updEng d e (fun x => { x with fend := true })).fetchedOn d e
  | .stall n => s.addF F.ENG_STALL.CYCLES d [e] n
  | .beats n => (s.addF F.ENG_STALL.CYCLES d [e] n).addF F.ENG_LCF.COUNT d [e, 2] n
  | .skip _ => s.fetchedOn d e
  | .jump _ _ | .loop _ _ _ | .rpt _ | .again => s

/-! ### Closing a bundle -/

/-- A word as loaded into its destination. -/
def LdDst.wr (t : LdDst) (v : W18) : Wr :=
  match t with
  | .d i => .d i v
  | .a i => .a i (v.setWidth 16)
  | .m i => .m i (v.setWidth 16)
  | .lane r l => .v r [(l, v)]

/-- The value number `k` that a load returns: a free value where the word is being written (R187, R246). -/
def loadVal (x : Eng) (fresh : Nat) (acc : List (Nat × Nat × Bool)) (p k a : Nat) : W18 :=
  if clash acc p a || x.fetching a then freeBits 18 (fresh + 128 * (p + 3) + k) else data18 (x.lword p a)

/-- Whether a local word that is read shows an error (R368). -/
def loadBad (x : Eng) (acc : List (Nat × Nat × Bool)) (p a : Nat) : Bool :=
  !(clash acc p a || x.fetching a) && !ok18 (x.lword p a)

/-- The first local word in error that a bundle reads. -/
def firstBadWord (x : Eng) (acc : List (Nat × Nat × Bool)) : Option Nat :=
  (acc.find? (fun (p, a, w) => !w && loadBad x acc p a)).map (fun (_, a, _) => a)

/-- The loads of one access, as results. -/
def loadWrs (x : Eng) (fresh : Nat) (acc : List (Nat × Nat × Bool)) (p lat : Nat) : Nat → List (Nat × LdDst) → List PendW
  | _, [] => []
  | k, (a, t) :: l => ⟨lat, t.wr (loadVal x fresh acc p k a), false⟩ :: loadWrs x fresh acc p lat (k + 1) l

/-- A fold into BXS: its latency and count. -/
def Fx.foldOf : Fx → Option (Nat × Nat)
  | .fold l n => some (l, n)
  | _ => none

/-- The register results of one effect. -/
def Fx.results (x : Eng) (fresh : Nat) (acc : List (Nat × Nat × Bool)) : Fx → List PendW
  | .wr l w => [⟨l, w, false⟩]
  | .chain l w => [⟨l, w, true⟩]
  | .ld p l items => loadWrs x fresh acc p l 0 items
  | _ => []

/-- The BXS results of a bundle: every fold of it is made once, into the value that BXR leaves if it is there (R196, R227). -/
def bxsResults (x : Eng) (fx : List Fx) : List PendW :=
  let base := if fx.contains .bxr then 17 else x.chainBXS.toNat
  let folds := fx.filterMap Fx.foldOf
  let upTo (l : Nat) : Nat := (folds.filter (fun p => decide (p.1 ≤ l))).foldl (fun m p => min m p.2) base
  let early := if fx.contains .bxr || folds.any (fun p => decide (p.1 = 1)) then [PendW.mk 1 (.bxs (BitVec.ofNat 5 (upTo 1))) true] else []
  let late := if folds.any (fun p => decide (p.1 = 2)) then [PendW.mk 2 (.bxs (BitVec.ofNat 5 (upTo 2))) true] else []
  early ++ late

/-- The register results of a bundle, in slot order: `lo` are the effects of slots 0 to 6, which hold every fold into BXS, and `hi` those of
slot 7 (R114, R196). -/
def fxResults (x : Eng) (fresh : Nat) (acc : List (Nat × Nat × Bool)) (lo hi : List Fx) : List PendW :=
  lo.flatMap (Fx.results x fresh acc) ++ bxsResults x (lo ++ hi) ++ hi.flatMap (Fx.results x fresh acc)

/-- The D registers that an effect writes at +1. -/
def Fx.dOut : Fx → Option Nat
  | .wr 1 (.d i _) | .chain 1 (.d i _) => some i
  | _ => none

/-- A far read of a syllable, with what it must not write over: the D registers that higher slots of its bundle write at +1 (R114). -/
def Fx.farUnder (hi : List Nat) (pc : BitVec 12) (br : Option Branch) : Fx → Fx
  | .act (.far w) => .act (.far { w with beaten := hi, pc := pc, br := br })
  | f => f

/-- The effects of syllables in slot order, with the syllables of higher slots of their bundle, `above`. -/
def bundleFx (x : Eng) (above : List Syl) : List Syl → List Fx
  | [] => []
  | y :: l => y.fx.map (Fx.farUnder (((l ++ above).flatMap Syl.fx).filterMap Fx.dOut) x.pc x.br) ++ bundleFx x above l

/-- The bundle of a PMW, a word of it free where the same bundle stores it (R211, R246). -/
def pmwFix (x : Eng) (fresh : Nat) (acc : List (Nat × Nat × Bool)) : Act → Act
  | .pmw p => .pmw { p with data := mkBundle ((List.range 8).map (fun i => loadVal x fresh acc 0 i (p.src + i))) }
  | a => a

/-- The act of one effect. -/
def Fx.actOf (x : Eng) (fresh : Nat) (acc : List (Nat × Nat × Bool)) : Fx → Option Act
  | .act a => some (pmwFix x fresh acc a)
  | _ => none

/-- The stores of one effect through port `p`. -/
def Fx.storeAt (p : Nat) (m : Store Stored) : Fx → Store Stored
  | .st q items => if q = p then items.foldl (fun m (a, v) => m.set 0 a (enc18 v)) m else m
  | _ => m

/-- Transfers whose local range the engine uses. -/
def XferKind.hasRange : XferKind → Bool
  | .gather _ | .scatter => false
  | _ => true

/-- Transfers that read local memory. -/
def XferKind.isStow : XferKind → Bool
  | .stow | .stowB _ => true
  | _ => false

/-- Stores to local words of a transfer in progress (R187). -/
def Eng.mark (x : Eng) (l : List Nat) : Eng :=
  { x with xfers := x.xfers.map (fun t =>
      if t.kind.hasRange then { t with dirty := t.dirty ++ l.filter (fun a => decide ((a + 65536 - t.loc.toNat) % 65536 < t.len)) }
      else t) }

/-- A store to a local word that a STOW has moved, whose done bit is still 0, leaves the value transferred undefined (R187). -/
def State.staleStows (s : State) (d e : Nat) (l : List Nat) : State :=
  ((s.eng d e).xfers.filter (fun t => t.moved && t.kind.isStow)).foldl (fun u t =>
    let base := match t.kind with
      | .stowB h => u.blkPa d h.toNat
      | _ => t.pa
    (l.filter t.covers).foldl (fun v a => (v.putWord (base + (a + 65536 - t.loc.toNat) % 65536) (enc18 (freeBits 18 v.fresh))).useFree 1) u) s

/-- The local words that one effect stores to. -/
def Fx.stored : Fx → List Nat
  | .st _ items => items.map Prod.fst
  | _ => []

/-- The local words that a bundle stores to. -/
def fxStored (fx : List Fx) : List Nat := fx.flatMap Fx.stored

/-- The engine as its bundle leaves it, before the results fall due: the bundle is gone, its stores are made and its results
are on their way. -/
def Eng.retire (x : Eng) (m : Store Stored) (l : List PendW) : Eng :=
  { x with lmem := m, pw := x.pw ++ l, bundle := [], div := none }

/-- The lanes on their way with the words of `l` replaced. -/
def Eng.patched (x : Eng) (l : List (Nat × Nat × W18)) : Eng := { x with pw := x.pw.map (PendW.patch l) }

/-- A bank conflict on one word sets ST.BZ (R106, R246). -/
def Eng.setBz (x : Eng) : Eng := { x with st := x.st ||| 0x8#18 }

/-- The engine with one more syllable in its bundle. -/
def Eng.gather (x : Eng) (l : List Syl) : Eng := { x with bundle := l }

/-- The counts of a bundle's lost requests (R229, R242 to R246): each cycle of a losing port in ENG_LCF and ENG_STALL, beat 0 waiting behind beat 1,
and FETCH, whose own cycles no rule gives: it may or may not lose in each cycle with a full bank, and may overtake an engine request where the bank has
been full for fifteen cycles (R244). -/
def State.portLosses (s : State) (d e : Nat) (x : Eng) (fx : List Fx) : State :=
  let q := x.requests fx
  let cyc := lostPorts 32 q
  let s1 := cyc.foldl (fun t ps => (ps.foldl (fun u p => u.incF F.ENG_LCF.COUNT d [e, p - 1]) t).addF F.ENG_STALL.CYCLES d [e] 1) s
  let late := !x.carry.isEmpty && fx.any Fx.isVmem
  let s2 := if late then (s1.addF F.ENG_STALL.CYCLES d [e] 1).incF F.ENG_LCF.COUNT d [e, 2] else s1
  if x.xfers.isEmpty then s2
  else
    let full := (q :: retries 32 q).filter (fun c => !(fullBanks c).isEmpty)
    let lost := (full.mapIdx (fun i _ => freeNat 2 (s.fresh + 1860 + i))).sum
    ((fullBanks q).filter (fun b => decide (15 ≤ x.fullRun.get 0 b))).foldl (fun t b =>
      match ((serve q).1.filter (fun r => decide (lbank r.2 = b ∧ 0 < r.1))).getLast? with
      | some r => if freeNat 2 (s.fresh + 1901 + b) = 1 then (t.incF F.ENG_LCF.COUNT d [e, r.1 - 1]).addF F.ENG_STALL.CYCLES d [e] 1 else t
      | none => t) (s2.addF F.ENG_LCF.COUNT d [e, 3] lost)

/-- The same-word conflicts of a bundle (R246): one count of the later port for each; a meeting with FETCH, the latest port, may or may not fall in
the cycle. -/
def Eng.wordConflicts (x : Eng) (fresh : Nat) (acc : List (Nat × Nat × Bool)) : List Nat :=
  conflicts acc ++ ((x.fetchMeets acc).mapIdx (fun i _ => i)).filterMap (fun i => if freeNat 2 (fresh + 1600 + i) = 1 then some 4 else none)

/-- The vector accesses of a bundle that wait for the next cycle (R229), with what their words held before them. Beats beyond the second are served in
stall cycles before the next bundle's cycle (DESIGN CHOICE, log entry 169), and of two elements that write one word the higher index remains whichever
their beats (R230). -/
def carryOf (x : Eng) (fx : List Fx) : List Beat :=
  let v := fx.flatMap Fx.vAccess
  let m := (beatOf 0 v).foldl (fun m b => match b.store with
    | some w => m.set 0 b.addr (enc18 w)
    | none => m) (fx.foldl (Fx.storeAt 2) (fx.foldl (Fx.storeAt 1) x.lmem))
  (beatOf 1 v).map (fun b => { b with old := m.get 0 b.addr,
                                      store := b.store.bind (fun _ => ((v.filter (fun c => decide (c.addr = b.addr))).getLast?.bind Beat.store)) })

/-- Local memory after a bundle: its stores, over which those of the bundle before stay that were still to be made (R230, R248). -/
def Eng.stores (x : Eng) (fx : List Fx) : Store Stored :=
  fx.foldl (Fx.storeAt 3) (x.keepBeats (fx.foldl (Fx.storeAt 2) (fx.foldl (Fx.storeAt 1) x.lmem)))

/-- The effects of a bundle whose checks all passed, its results one bundle nearer, and the next PC. A conflict sets BZ first, and an MTS to ST of
the same bundle wins over it (DESIGN CHOICE, log entry 144). -/
def State.applyFx (s : State) (d e : Nat) (syls : List Syl) : State :=
  let x := s.eng d e
  let c := syls.filter (fun y => decide (7 ≤ y.slot))
  let lo := bundleFx x c (syls.filter (fun y => decide (y.slot < 7)))
  let hi := bundleFx x [] c
  let fx := lo ++ hi
  let v := x.lview fx
  let acc := x.meets fx
  let acts := fx.filterMap (Fx.actOf v s.fresh acc)
  let lost := x.wordConflicts s.fresh acc
  let patch := x.lanePatch s.fresh fx (fx.foldl (Fx.storeAt 2) (fx.foldl (Fx.storeAt 1) x.lmem))
  let x1 := ((x.patched patch).retire (x.stores fx) (fxResults v s.fresh acc lo hi)).sampled x
  let x2 := if lost.isEmpty then x1 else x1.setBz
  let s1 := (lost.foldl (fun t p => t.incF F.ENG_LCF.COUNT d [e, p - 1]) (s.setEng d e x2)).portLosses d e x fx
  let s2 := acts.foldl (fun t a => t.act1 d e a) s1
  let s3 := s2.staleStows d e (fxStored fx)
  (s3.updEng d e (fun y => (((y.mark (fxStored fx)).tickPw.aged x.zdone x.pmws (carryOf x fx)).ran (x.runs (x.requests fx))).advance x.loops acts)).useFree 4096

/-- Completion of a DIV whose stall has ended, and a pop that falls due as a target issues (R131, R141). -/
def State.settle (s : State) (d e : Nat) : State :=
  let x := s.eng d e
  let s1 := match x.div with
    | some l => (s.applyFx d e l).addF F.ENG_STALL.CYCLES d [e] 18
    | none => s
  s1.updEng d e (fun y =>
    if y.sh = false ∧ y.popU = true then { y with popU := false, loops := y.loops.tail }
    else if y.sh = true ∧ y.popS = true then { y with popS := false, loops := y.loops.tail } else y)

def SylKind.isCtl : SylKind → Bool
  | .ctl => true
  | _ => false

/-- Kinds that a delay slot must not hold (R119). -/
def SylKind.noDelay : SylKind → Bool
  | .ctl | .loop | .rpt | .fend => true
  | _ => false

/-- DIV or a string operation that is not alone (R117, R139). -/
def notAlone (l : List Syl) : Option Nat :=
  if (l.filter (fun y => !decide (y.kind = .nop))).length ≤ 1 then none
  else (l.find? (fun y => decide (y.kind = .div ∨ y.kind = .str))).map Syl.slot

/-- An illegal delay slot or loop END (R119, R130). -/
def illSeq (x : Eng) (l : List Syl) (free : Nat) : Option Nat :=
  let ctl := (l.find? (fun y => y.kind.isCtl)).map Syl.slot
  let dly := x.br.isSome
  let stop := match x.loops with | t :: _ => decide (t.stop = x.pc) | [] => false
  if dly then
    match (l.find? (fun y => y.kind.noDelay)).map Syl.slot with
    | some i => some i
    | none => if stop then some free else none
  else if stop then (match ctl with | some i => some i | none => if x.rpt.isSome then some free else none)
  else none

/-- The first trap of a cause, by slot. -/
def ofCause (k : Cause) (l : List TrapReq) : Option TrapReq := l.find? (fun t => decide (t.cause = k))

/-- Causes reported before every execution cause (R156). -/
def TrapReq.decode (t : TrapReq) : Bool := decide (t.cause = .resop ∨ t.cause = .priv ∨ t.cause = .illbun ∨ t.cause = .illseq)

/-- The trap a bundle takes, if any (R156, R287), and what a good instruction lookup refills. -/
def State.pickTrap (s : State) (d e : Nat) (l : List Syl) : Option TrapReq × List Act :=
  let x := s.eng d e
  let ts := l.flatMap Syl.traps
  let va := 68719472640 + x.pc.toNat
  match ofCause .resop ts with
  | some t => (some t, [])
  | none =>
  match ofCause .priv ts with
  | some t => (some t, [])
  | none =>
  match (notAlone l).map (fun i => (⟨.illbun, i, none, false, none, []⟩ : TrapReq)) <|> ofCause .illbun ts with
  | some t => (some t, [])
  | none =>
  match illSeq x l (freeNat 8 (s.fresh + 1020)) with
  | some i => (some ⟨.illseq, i, none, false, none, []⟩, [])
  | none =>
    let exec : Option TrapReq := ts.find? (fun (t : TrapReq) => !t.decode)
    if x.user then
      match x.lookI va with
      | none => (some ⟨.itlbmiss, 0, some (BitVec.ofNat 36 va), false, none, []⟩, [.l2Bad x.l2Errs])
      | some k =>
        if k.ent.ent.x && k.ent.ent.u then (exec, k.acts)
        else (some ⟨.xprot, 0, some (BitVec.ofNat 36 va), false, none, []⟩, k.acts)
    else (exec, [])

/-- Insert a syllable in slot order. -/
def insertSyl (y : Syl) : List Syl → List Syl
  | [] => [y]
  | z :: l => if y.slot < z.slot then y :: z :: l else z :: insertSyl y l

/-- The eight syllables of the bundle at the PC of the active half, as fetched (R157). -/
def Eng.fetched (x : Eng) : List W18 :=
  let b := dataBundle (x.pmAt 1 x.half x.pc.toNat)
  (List.range 8).map (syllable b)

/-- The address of the directory double that an effect reads from memory, where no buffered store serves it whole. -/
def Fx.walkPa : Fx → Option Nat
  | .act (.far w) => match w.kind, w.fwd with
    | .walk _ _ _ _, none => if w.pa < 68719476736 then some w.pa else none
    | _, _ => none
  | _ => none

/-- The PA of a directory word in error that a TWK of the bundle reads, a word that a good buffered store is about to write being none (R301, R311). -/
def State.walkBad (s : State) (d e : Nat) (l : List Syl) : Option Nat :=
  (l.flatMap Syl.fx).findSome? (fun f => match f.walkPa with
    | some pa =>
      let p := s.landPa pa
      (s.readWords p 2).2.2.find? (fun a => !((s.eng d e).sbuf.any (fun b => !b.bad && decide (b.pa ≤ a ∧ a < b.pa + b.words.length))))
    | none => none)

/-- WALKERR (R154, R155, R158, R301) of the TWK in the bundle at `pc`, `br` being the control transfer under way there. -/
def State.walkTrap (s : State) (d e pa : Nat) (pc : BitVec 12) (br : Option Branch) (fetched : List W18) : State :=
  let x := s.eng d e
  let s1 := (s.readWords (pa / 2 * 2) 2).1
  if x.sh then
    ((s1.noteTrap d e .walkerr pc.toNat true).event 0x19 d 3 [globalEng d e, Cause.walkerr.code]).detect d e 6 (.shared pa)
  else (((s1.countErr d e).colErrAt pa).trap d e ⟨.walkerr, 7, none, false, none, []⟩ pc pc br br.isSome fetched).fetchedOn d e

/-- Whether the close of a bundle meets a check of R368 that reads no memory: a residue error of its slots. -/
def residueBad (l : List Syl) : Bool := l.any (fun y => decide (y.err = some .residue))

/-- A detected error at the close of a bundle: bundles behind it were fetched too. -/
def State.failBundle (s : State) (d e k : Nat) (w : ErrWhere) : State := ((s.fetchedOn d e).useFree 4096).detect d e k w

/-- The bundle closes with a trap (R154): what its request keeps stays done, and a SYSC bundle executes its other slots (R155). A SYSC of a handler
is a double trap also in the second delay slot of RETI (R158). -/
def State.trapBundle (s : State) (d e : Nat) (l : List Syl) (t : TrapReq) (fetched : List W18) : State :=
  let x := s.eng d e
  let fx := l.flatMap Syl.fx
  match t.cause with
  | .sysc =>
    match firstBadWord (x.lview fx) (x.meets fx) with
    | some a => s.failBundle d e 3 (.local a)
    | none =>
      if residueBad l then s.failBundle d e 2 .plain
      else
        let s1 := (s.applyFx d e l).updEng d e (fun y => if x.sh then { y with st := y.st ||| 4 } else y)
        let y := s1.eng d e
        (s1.trap d e t x.pc y.pc y.br x.br.isSome fetched).fetchedOn d e
  | _ =>
    let s1 := t.acts.foldl (fun u a => u.act1 d e a) s
    ((s1.useFree 4096).trap d e t x.pc x.pc x.br x.br.isSome fetched).fetchedOn d e

/-- The bundle closes without a trap: errors in the local words it reads, then residues, then a directory word, then its effects. -/
def State.runBundle (s : State) (d e : Nat) (l : List Syl) (fetched : List W18) : State :=
  let x := s.eng d e
  let fx := l.flatMap Syl.fx
  match firstBadWord (x.lview fx) (x.meets fx) with
  | some a => s.failBundle d e 3 (.local a)
  | none =>
    if residueBad l then s.failBundle d e 2 .plain
    else match s.walkBad d e l with
    | some pa => (s.useFree 4096).walkTrap d e pa x.pc x.br fetched
    | none =>
      if l.any (fun y => decide (y.kind = .div)) then s.setEng d e (({ x with bundle := [], div := some l } : Eng).sampled x)
      else s.applyFx d e l

/-- Close the bundle, one program-memory read (R251): detected errors at issue, then traps, then local words in error, then its effects. -/
def State.closeBundle (s : State) (d e : Nat) (fetched : List W18) : State :=
  let x := s.eng d e
  let l := x.bundle
  let pc := x.pc.toNat
  let s0 := s.incF F.ENG_PMBANK.COUNT d [e]
  if okBundle (x.pmAt 1 x.half pc) = false then s0.failBundle d e 0 (.bundle pc)
  else if l.any (fun y => decide (y.err = some .parity)) then s0.failBundle d e 1 .plain
  else
    let (t, ref) := s0.pickTrap d e l
    let s1 := ref.foldl (fun u a => u.act1 d e a) s0
    match t with
    | some t => s1.trapBundle d e l t fetched
    | none => s1.runBundle d e l fetched

/-! ### The shared issue of every engine operation -/

/-- Whether an engine issues bundles: its die runs the work phase, it is powered, a run is in progress, and nothing holds
its pipeline (R57, R115, R160, R163). -/
def State.issues (s : State) (d e : Nat) : Bool :=
  let x := s.eng d e
  s.live d && decide ((s.die d).phase = .work) && decide (s.f F.ENG_STAT.PWR d [e] = 1) && decide (x.run ≠ .none) && !x.fend
    && x.far.isEmpty && (x.farOld.isEmpty || x.sh) && !x.fence

/-- Issue one syllable (R100 to R102, R109, R170), and close the bundle when it is the last. `syls` are the bundle's
syllables where the command brings them, else those of program memory serve (R157). -/
def issueSyls (at_ : At) (info : OpInfo) (syls : Option (List W18)) (f : Ctx → OpRes) (s : State) :
    Host.Outcome State Fault Refusal :=
  let d := at_.die.val
  let e := at_.eng.val
  if s.issues d e = false then .fault .engineNotIssuing
  else if (s.eng d e).bundle.any (fun y => decide (y.slot = at_.slot.val)) then .fault .slotTaken
  else
    let s1 := if (s.eng d e).bundle.isEmpty then s.settle d e else s
    let x := s1.eng d e
    let c : Ctx := ⟨s1, d, e, x, at_⟩
    let bad := !info.slots.contains at_.slot.val || (at_.ext.isSome && !info.ext)
    let r := f c
    let traps := if bad then [c.trap .resop] else (if info.priv && x.user then [c.trap .priv] else []) ++ r.traps
    let syl : Syl := ⟨at_.slot.val, info.kind, r.fx, traps, at_.err⟩
    let s2 := s1.setEng d e (x.gather (insertSyl syl x.bundle))
    .next (if at_.last then s2.closeBundle d e (syls.getD x.fetched) else s2)

/-- Issue one syllable of an operation. -/
def issueOp (at_ : At) (info : OpInfo) (f : Ctx → OpRes) (s : State) : Host.Outcome State Fault Refusal :=
  issueSyls at_ info none f s

end Sys2Proof.Machine
end

