-- ==== Sys2Proof/Machine/Operands.lean ====
section
/-! DEFINITION. Every operand form of the engine: immediates with their extension (R169), local addresses (R177, R178),
double registers (R168), vector lanes (R217) and their free values (R187, R234). -/

namespace Sys2Proof.Machine

/-- A signed immediate, extended by XT when one donates (R169). -/
def Ctx.simm (c : Ctx) {k : Nat} (imm : BitVec k) : Int :=
  match c.at_.ext with
  | some e => (e ++ imm).toInt
  | none => imm.toInt

/-- An unsigned immediate, extended by XT when one donates (R169). -/
def Ctx.uimm (c : Ctx) {k : Nat} (imm : BitVec k) : Nat :=
  match c.at_.ext with
  | some e => (e ++ imm).toNat
  | none => imm.toNat

/-- D(i) of the set in use. -/
def Ctx.rd (c : Ctx) (i : BitVec 4) : W18 := c.x.rd i.toNat

/-- A word result of the set in use. -/
def Ctx.wd (c : Ctx) (lat : Nat) (i : Nat) (v : W18) : Fx := .wr lat (.d (physD c.x.sh i) v)

def Ctx.wa (c : Ctx) (n : Nat) (v : BitVec 16) : Fx := .wr 1 (.a (physA c.x.sh n) v)

/-- The local-memory port of the issuing slot (R241). -/
def Ctx.port (c : Ctx) : Nat := if c.at_.slot.val = 6 then 3 else c.at_.slot.val + 1

/-- The direct mode's address (R177). -/
def Ctx.direct (c : Ctx) (imm : BitVec 8) : Nat :=
  match c.at_.ext with
  | some e => (e ++ imm).toNat % 65536
  | none => c.x.dbk.toNat * 256 + imm.toNat

/-- The indexed mode's address (R177). -/
def Ctx.indexed (c : Ctx) (n : BitVec 3) (imm : BitVec 6) : Nat :=
  ((c.x.ra n.toNat).toNat + c.uimm imm % 65536) % 65536

/-- An moved by `delta` (R177): circular when LNn is not 0, except in the shadow set for n at or above 4 (R104); the free value
`fr` outside the range of R178. -/
def Ctx.stepOr (c : Ctx) (n : Nat) (delta : Int) (fr : BitVec 16) : BitVec 16 :=
  let a := (c.x.ra n).toNat
  let len := (c.x.ln.get 0 n).toNat
  let base := (c.x.bs.get 0 n).toNat
  if len ≠ 0 ∧ ¬(c.x.sh = true ∧ 4 ≤ n) then
    if base ≤ a ∧ a < base + len ∧ delta.natAbs ≤ len then
      BitVec.ofInt 16 (base + ((a : Int) - base + delta).emod len)
    else fr
  else BitVec.ofInt 16 (a + delta)

/-- The new An after an update by `delta`. -/
def Ctx.step (c : Ctx) (n : Nat) (delta : Int) : BitVec 16 := c.stepOr n delta (c.free 16 (120 + n))

/-- The post-modify of An by a mode of R177, for accesses of `k` words; `none` where the mode is reserved. -/
def Ctx.postMod (c : Ctx) (n mode : BitVec 3) (k : Int) : Option (List Fx) :=
  let i := n.toNat
  match mode.toNat with
  | 0 => some [c.wa i (c.step i 0)]
  | 1 => some [c.wa i (c.step i k)]
  | 2 => some [c.wa i (c.step i (-k))]
  | 3 => some [c.wa i (c.step i (c.x.rm i).toInt)]
  | 4 => some [c.wa i (c.step i (-(c.x.rm i).toInt))]
  | 5 => some [c.wa i (rev16 (rev16 (c.x.ra i) + rev16 (c.x.rm i)))]
  | _ => none

/-- A user store into a region that the running entry declares traps (R87). -/
def Ctx.constHit (c : Ctx) (addrs : List Nat) : List TrapReq :=
  match c.x.run with
  | .folio i _ =>
    if c.x.user && addrs.any (fun a => (c.s.regionOf c.d c.e i a).isSome) then [c.trap .constwr] else []
  | _ => []

/-- Whether a D register can be the low register of a pair (R168). -/
def evenD (d : BitVec 4) : Bool := !d.getLsbD 0

/-- The reserved forms of R168. -/
def Ctx.resv (c : Ctx) (bad : Bool) : List TrapReq := if bad then [c.trap .resop] else []

/-- VL as a count of lanes (R217). -/
def Ctx.vl (c : Ctx) : Nat := min c.x.vl.toNat 16

/-- A lane that a gather in progress writes is undefined to a read (R234). -/
def Eng.gathering (x : Eng) (r i : Nat) : Bool :=
  x.xfers.any (fun t => match t.kind with
    | .gather vd => decide (vd = r) && t.elems.any (fun p => decide (p.1 = i))
    | _ => false)

/-- A lane of a V register as an operation reads it. -/
def Ctx.lane (c : Ctx) (r : Nat) (i : Nat) : W18 :=
  if c.x.gathering r i then freeBits 18 (c.s.fresh + 1024 + 16 * r + i) else c.x.v.get 0 (16 * r + i)

/-- A lane of a VA register, under R111. -/
def Ctx.laneA (c : Ctx) (r i : Nat) : W54 := c.x.va.get 0 (16 * r + i)

/-- The lanes that a vector operation acts on (R217). -/
def Ctx.lanes (c : Ctx) : List Nat := List.range c.vl

end Sys2Proof.Machine
end

