-- ==== Sys2Proof/Machine/EngFar.lean ====
section
/-! DEFINITION. Far transfers, far loads and far stores of the L class (R182 to R189, R296, R310 to R313). -/

namespace Sys2Proof.Machine

/-- The result of a checked far access: the operation, or the trap of R296. -/
def Ctx.far (c : Ctx) (r : FarReq) (f : FarOk → OpRes) : OpRes :=
  match c.s.farCheck c.d c.e r with
  | .inl ok => let o := f ok
               { o with fx := o.fx ++ ok.acts.map Fx.act }
  | .inr b => { traps := [{ c.trapAt b.cause b.va r.double with acts := b.acts }] }

/-- The VA in DDv. -/
def Ctx.va (c : Ctx) (v : BitVec 3) : Nat := (c.x.rdd v.toNat).toNat

/-- A transfer length D(dl)[15:0] (R182). -/
def Ctx.len (c : Ctx) (dl : BitVec 3) : Nat := ((c.x.rd dl.toNat).setWidth 16).toNat

/-- The words of a local range, wrapping (R182). -/
def localRange (a : BitVec 16) (n : Nat) : List Nat := (List.range n).map (fun i => (a.toNat + i) % 65536)

/-- Whether a local range overlaps a constant region that the running entry declares, in user mode (R185). A range of length 0 is taken as its first
word alone (R183). -/
def Ctx.overConst (c : Ctx) (a len : Nat) : List TrapReq :=
  let n := max len 1
  match c.x.run with
  | .folio i _ =>
    let hit := (List.range 8).any (fun j =>
      (c.s.act .ENG_FLB c.d [c.e, i]).getLsbD j &&
        (let lo := c.s.fa F.ENG_CMA.LSTART c.d [c.e, j]
         let ln := c.s.fa F.ENG_CMA.LLEN c.d [c.e, j]
         decide (0 < ln ∧ ((lo + 65536 - a) % 65536 < n ∨ (a + 65536 - lo) % 65536 < ln))))
    if c.x.user && hit then [c.trap .constwr] else []
  | _ => []

/-- A transfer between package and local memory (R182 to R185). -/
def Ctx.transfer (c : Ctx) (k : XferKind) (pa : Nat) (n tag : BitVec 3) (len : Nat) : Fx :=
  .act (.xfer { tag := tag.toNat, kind := k, pa := pa, loc := c.x.ra n.toNat, len := len, elems := [], epoch := c.x.epoch, dirty := [], toks := [] })

/-- FETCH and STOW: the range as one far access (R183, R184). -/
def Ctx.rangeReq (c : Ctx) (v dl : BitVec 3) (write : Bool) : FarReq :=
  ⟨c.va v, (c.va v + (c.len dl - 1)) % 68719476736, write, false, true, true⟩

/-- FETCH DDv, An, Ddl, tag (R182). Of CONSTWR and a cause of R296 in one operation, the latter is taken (DESIGN CHOICE, log entry 154). -/
def execFetch (at_ : At) (v n dl tag : BitVec 3) (s : State) : Host.Outcome State Fault Refusal :=
  issueOp at_ { slots := classL } (fun c =>
    let r := c.far (c.rangeReq v dl false) (fun ok => { fx := [c.transfer .fetch ok.pa n tag (c.len dl)] })
    { r with traps := r.traps ++ c.overConst (c.x.ra n.toNat).toNat (c.len dl) }) s

/-- STOW DDv, An, Ddl, tag (R182). -/
def execStow (at_ : At) (v n dl tag : BitVec 3) (s : State) : Host.Outcome State Fault Refusal :=
  issueOp at_ { slots := classL } (fun c =>
    c.far (c.rangeReq v dl true) (fun ok => { fx := [c.transfer .stow ok.pa n tag (c.len dl)] })) s

/-- The checks of the leaf forms (R184): the running folio owns the leaf, the range lies inside the side, the bank is ON and
its owner admits the quire. There is no VA, and EVAH:EVAL hold the leaf number and the offset for every cause; the spec says so for the first two
checks, and for a bank that is not ON and for OWNER it is a DESIGN CHOICE (log entry 145). -/
def Ctx.leafForm (c : Ctx) (v n dl tag : BitVec 3) (write : Bool) : OpRes :=
  let num := ((c.x.rd (2 * v.toNat + 1)).setWidth 14).toNat
  let ofs := (c.x.rd (2 * v.toNat)).toNat
  let len := c.len dl
  let l := c.s.leaves.get .zero (16384 * c.d + num)
  let own := match c.x.run with
    | .folio i _ => l.v && decide (l.eng = c.e ∧ l.entry = i)
    | _ => false
  let base := if write = l.side then l.recto else l.verso
  let pa := c.s.landPa (bankPa c.d 0 (base + ofs))
  if own = false ∨ l.len < ofs + max len 1 then { traps := [c.trapAt .daddr (num * 262144 + ofs) false] }
  else if c.s.f F.SHM_PWR.PSTAT (paDie pa) [paBank pa] ≠ 0 then { traps := [c.trapAt .daddr (num * 262144 + ofs) false] }
  else if c.s.admits c.d c.e pa = false then { traps := [c.trapAt .owner (num * 262144 + ofs) false] }
  else { fx := [c.transfer (if write then .stow else .fetch) pa n tag len] }

/-- FETCH.LF: from the read side of the leaf (R76, R182). -/
def execFetchLf (at_ : At) (v n dl tag : BitVec 3) (s : State) : Host.Outcome State Fault Refusal :=
  issueOp at_ { slots := classL } (fun c =>
    let r := c.leafForm v n dl tag false
    { r with traps := r.traps ++ c.overConst (c.x.ra n.toNat).toNat (c.len dl) }) s

/-- STOW.LF: into the write side of the leaf; IDLEOUT in the idle folio (R76, R182, R184). -/
def execStowLf (at_ : At) (v n dl tag : BitVec 3) (s : State) : Host.Outcome State Fault Refusal :=
  issueOp at_ { slots := classL } (fun c =>
    if c.x.run = .idle then { traps := [c.trap .idleout] } else c.leafForm v n dl tag true) s

/-- The checks of the block forms (R184): Dd is a block that the running folio holds or allocated, and its bank is ON. -/
def Ctx.blockForm (c : Ctx) (d : BitVec 4) (n tag : BitVec 3) (k : BitVec 16 → XferKind) : OpRes :=
  let h := (c.rd d).toNat
  let pa := c.s.blkPa c.d h
  let bad : TrapReq := c.trapAt .daddr ((c.free 18 0).toNat * 262144 + h) false
  if c.s.validH c.d h = false ∨ c.x.work.has (BitVec.ofNat 16 h) = false ∨ c.x.run = .idle then { traps := [bad] }
  else if c.s.f F.SHM_PWR.PSTAT c.d [paBank pa] ≠ 0 then { traps := [bad] }
  else { fx := [c.transfer (k (BitVec.ofNat 16 h)) pa n tag 128] }

/-- FETCH.B Dd, An, tag (R182). -/
def execFetchB (at_ : At) (d : BitVec 4) (n tag : BitVec 3) (s : State) : Host.Outcome State Fault Refusal :=
  issueOp at_ { slots := classL } (fun c =>
    let r := c.blockForm d n tag .fetchB
    { r with traps := r.traps ++ c.overConst (c.x.ra n.toNat).toNat 128 }) s

/-- STOW.B Dd, An, tag (R182). -/
def execStowB (at_ : At) (d : BitVec 4) (n tag : BitVec 3) (s : State) : Host.Outcome State Fault Refusal :=
  issueOp at_ { slots := classL } (fun c => c.blockForm d n tag .stowB) s

/-- Whether a buffered store covers one of `n` words at `pa`. -/
def SbEnt.overlaps (b : SbEnt) (pa n : Nat) : Bool := decide (b.pa < pa + n ∧ pa < b.pa + b.words.length)

/-- The youngest buffered store that overlaps a load (R311). -/
def Eng.youngest (x : Eng) (pa n : Nat) : Option SbEnt := (x.sbuf.filter (fun b => b.overlaps pa n)).getLast?

/-- A far load of `n` words (R311, R313): forwarded, or waiting for the stores it must not pass. -/
def Ctx.farLoad (c : Ctx) (v : BitVec 3) (n : Nat) (k : FarKind) : OpRes :=
  c.far ⟨c.va v, c.va v, false, decide (n = 2), false, false⟩ (fun ok =>
    let y := c.x.youngest ok.pa n
    let fwd := match y with
      | some b => if !ok.side && decide (b.pa = ok.pa ∧ b.words.length = n) && !b.bad then some b.words else none
      | none => none
    { fx := [.act (.far { kind := k, pa := ok.pa, sh := c.x.sh, fwd := fwd, waits := ok.side, epoch := c.x.epoch, upTo := 0, toks := [] })] })

/-- LDF Dd, DDv (R182). -/
def execLdf (at_ : At) (d : BitVec 4) (v : BitVec 3) (s : State) : Host.Outcome State Fault Refusal :=
  issueOp at_ { slots := classL, kind := .far } (fun c => c.farLoad v 1 (.word (physD c.x.sh d.toNat))) s

/-- LDF.D DDd, DDv (R182). -/
def execLdfD (at_ : At) (d : BitVec 4) (v : BitVec 3) (s : State) : Host.Outcome State Fault Refusal :=
  issueOp at_ { slots := classL, kind := .far } (fun c =>
    let r := c.farLoad v 2 (.double (physD c.x.sh d.toNat))
    { r with traps := c.resv (!evenD d) ++ r.traps }) s

/-- A far store of words (R310): posted to the store buffer. -/
def Ctx.farStore (c : Ctx) (v : BitVec 3) (ws : List W18) : OpRes :=
  c.far ⟨c.va v, c.va v, true, decide (ws.length = 2), false, false⟩
    (fun ok => { fx := [.act (.store { pa := ok.pa, words := ws, bad := false, epoch := c.x.epoch, seq := 0, toks := [] })] })

/-- STF DDv, Dd (R310). -/
def execStf (at_ : At) (d : BitVec 4) (v : BitVec 3) (s : State) : Host.Outcome State Fault Refusal :=
  issueOp at_ { slots := classL } (fun c => c.farStore v [c.rd d]) s

/-- STF.D DDv, DDd (R310). -/
def execStfD (at_ : At) (d : BitVec 4) (v : BitVec 3) (s : State) : Host.Outcome State Fault Refusal :=
  issueOp at_ { slots := classL } (fun c =>
    let r := c.farStore v [c.rd d, c.rd (d + 1)]
    { r with traps := c.resv (!evenD d) ++ r.traps }) s

end Sys2Proof.Machine
end

