-- ==== Sys2Proof/Machine/EngSeq.lean ====
section
/-! DEFINITION. The folio sequencer and the events of an engine: starts, replays, constant regions, commits, interrupt entry,
transfers and program-memory writes that land (R68 to R81, R145 to R151, R160, R161, R182 to R187, R234, R373, R619). -/

namespace Sys2Proof.Machine

/-! ### Starts (R70, R107) -/

/-- A register file whose first `n` registers hold free values (R70). -/
def freeFile {w : Nat} (n base : Nat) (m : Store (BitVec w)) : Store (BitVec w) :=
  (List.range n).foldl (fun m i => m.set 0 i (freeBits w (base + i))) m

/-- The state at the start of a run (R70, R107, R125): what the sequencer sets, an empty return stack, and free values in every other register but
the shadow copies, IVEC, TVEC and IMASK. -/
def Eng.start (x : Eng) (fresh : Nat) (pc : BitVec 12) (asid : BitVec 8) (idle : Bool) (run : Run) : Eng :=
  { x.stopRun with
    run := run, pc := pc, asid := asid, st := if idle then 3 else 2, smpEn := x.imask
    fl := 0, rc := 0, scnt := 0, vl := 0, vfi := 0, loops := [], rstack := [], pmOld := []
    d := freeFile 16 fresh x.d, ac := freeFile 8 (fresh + 16) x.ac, a := freeFile 8 (fresh + 24) x.a, m := freeFile 8 (fresh + 32) x.m
    bs := freeFile 8 (fresh + 40) x.bs, ln := freeFile 8 (fresh + 48) x.ln
    v := freeFile 256 (fresh + 64) x.v, va := freeFile 64 (fresh + 320) x.va
    bxs := freeBits 5 (fresh + 400), dbk := freeBits 8 (fresh + 401), epc := freeBits 12 (fresh + 402)
    epc2 := freeBits 14 (fresh + 403), ecause := freeBits 18 (fresh + 404) &&& 0x7FF#18
    evah := freeBits 18 (fresh + 405), eval := freeBits 18 (fresh + 406) }

/-- A spare has taken the place of this engine (R385). -/
def State.takenOver (s : State) (d e : Nat) : Bool :=
  (List.range 16).any (fun i => decide (s.f F.DIE_TAKE.V d [i] = 1) && decide (s.f F.DIE_TAKE.DONE d [i] = 1) &&
    decide (s.f F.DIE_TAKE.SUSP d [i] = e))

/-- The engine has its self-test slot (R550). -/
def State.selfTesting (s : State) (d e : Nat) : Bool :=
  match (s.die d).selfSlot.get none (e / 8) with
  | some (i, _) => decide (i = e)
  | none => false

/-- Whether the sequencer of an engine may start a run: the work phase, powered, nothing running, no load waiting, its work not
taken over (R57, R75, R385). -/
def State.canStart (s : State) (d e : Nat) : Bool :=
  let x := s.eng d e
  (!s.takenOver d e || s.selfTesting d e) &&
  s.live d && decide ((s.die d).phase = .work) && decide (s.f F.ENG_STAT.PWR d [e] = 1) && decide (x.run = .none) && x.consts.isEmpty

/-- The lowest-numbered pending line. -/
def Eng.line (x : Eng) : Option Nat := (List.range 16).find? (fun i => x.ipend.getLsbD i)

/-- Entry to the handler of line `i` (R145 to R149): EPC is the bundle that would have issued next, and bundles behind the last one were fetched. -/
def State.takeLine (s : State) (d e i : Nat) : State :=
  let y := s.eng d e
  let z := { y.enter y.pc (BitVec.ofNat 12 (y.ivec.toNat / 16 * 16 + 16 * i)) y.br with vecBad := y.vecBad.filter (fun k => decide (k = 1)) }
  (s.setEng d e z).fetchedOn d e

/-- A request that is pending when a run starts is taken before its first bundle (R146). -/
def State.takePending (s : State) (d e : Nat) : State :=
  match (s.eng d e).line with
  | some i => s.takeLine d e i
  | none => s

/-- The run of list entry `i`; a replay is a new run (R371), with a budget of its own (R73). -/
def State.startEntry (s : State) (d e i : Nat) (again : Bool) : State :=
  let pc := BitVec.ofNat 12 (s.fa F.ENG_FLA.PC d [e, i])
  let asid := BitVec.ofNat 8 (s.fa F.ENG_FLB.ASID d [e, i])
  let x := s.eng d e
  let y := { x.start s.fresh pc asid false (.folio i again) with budgetHit := false }
  let y1 := if again then { y with redo := none } else y
  ((((s.setEng d e y1).setF F.ENG_FSTAT.CUR d [e] i).setF F.ENG_FSTAT.SEQ d [e] (if again then 2 else 1)).takePending d e).useFree 2048

/-- FOLIO_START (R68 to R70): the next entry of the active list starts. The list of an engine whose place a spare has taken does not run, in its self-test
slot either (R385, R550). -/
def execFolioStart (die : DieNo) (e : EngNo) (s : State) : Host.Outcome State Fault Refusal :=
  let d := die.val
  let x := s.eng d e.val
  if s.canStart d e.val = false ∨ s.takenOver d e.val = true ∨ x.redo ≠ none ∨ 16 ≤ x.next ∨ x.listDone = true ∨ s.fa F.ENG_FLA.V d [e.val, x.next] = 0 then
    .next s
  else .next (s.startEntry d e.val x.next false)

/-- FOLIO_REPLAY (R84, R369): the aborted entry starts again. -/
def execFolioReplay (die : DieNo) (e : EngNo) (s : State) : Host.Outcome State Fault Refusal :=
  match (s.eng die.val e.val).redo with
  | none => .next s
  | some i => if s.canStart die.val e.val = false then .next s else .next (s.startEntry die.val e.val i true)

/-- IDLE_FOLIO_START (R68, R72, R107, R284, R550). -/
def execIdleFolioStart (die : DieNo) (e : EngNo) (s : State) : Host.Outcome State Fault Refusal :=
  let d := die.val
  let x := s.eng d e.val
  let ended := decide (16 ≤ x.next) || decide (s.fa F.ENG_FLA.V d [e.val, x.next] = 0) || s.takenOver d e.val
  if s.canStart d e.val = false ∨ x.redo ≠ none ∨ ended = false ∨ x.listDone = true ∨
      (s.fa F.ENG_IDLE.EN d [e.val] = 0 ∧ s.selfTesting d e.val = false) then
    .next s
  else
    let y := x.start s.fresh (BitVec.ofNat 12 (s.fa F.ENG_IDLE.PC d [e.val])) 0 true .idle
    .next ((((s.setEng d e.val y).setF F.ENG_FSTAT.SEQ d [e.val] 3).takePending d e.val).useFree 2048)

/-- BUDGET_EXCEEDED (R73): the run goes on. -/
def execBudgetExceeded (die : DieNo) (e : EngNo) (s : State) : Host.Outcome State Fault Refusal :=
  let x := s.eng die.val e.val
  match x.run with
  | .folio i _ =>
    if s.fa F.ENG_FLA.BUDGET die.val [e.val, i] = 0 ∨ x.budgetHit = true then .next s
    else .next ((s.setEng die.val e.val { x with budgetHit := true }).raise F.ENG_FEV.BUDGET die.val [e.val])
  | _ => .next s

/-! ### Constant regions (R75, R373, R619) -/

/-- The words of a region whose source is in error, by groups of eight words, one group a cycle (R75, R372). -/
def badGroups (pa : Nat) (bad : List Nat) : Nat := ((bad.map (fun a => (a - pa) / 8)).eraseDups).length

/-- Write local words from `a`, wrapping. -/
def Eng.storeL (x : Eng) (a : Nat) (ws : List Stored) : Eng :=
  { x with lmem := (ws.mapIdx (fun i w => ((a + i) % 65536, w))).foldl (fun m (k, w) => m.set 0 k w) x.lmem }

/-- Whether a word of a region's source may be read: the owner of its bank admits the engine's quire, whose fetch unit asks,
and the bank is ON (R255, R262). -/
def State.constOpen (s : State) (d e pa : Nat) : Bool :=
  !paShared pa || (s.admits d e pa && decide (s.f F.SHM_PWR.PSTAT (paDie pa) [paBank pa] = 0))

/-- A refused request of a quire's fetch unit to bank `b` (R256). -/
def State.violate (s : State) (d e b : Nat) : State :=
  (((s.raise F.SHM_STAT.VIOL d []).incF F.SHM_VIOL.COUNT d []).setF F.SHM_VIOL.MASTER d [] (e / 8)).setF F.SHM_VIOL.BANK d [] b

/-- CONSTANT_REGION_LOAD (R75, R256, R259, R373, R619): region j of the active map is loaded from its source. The source lies in at
most two banks: its first `n0` words, and the rest. -/
def execConstantRegionLoad (die : DieNo) (e : EngNo) (j : Fin 8) (s : State) : Host.Outcome State Fault Refusal :=
  let d := die.val
  let x := s.eng d e.val
  let len := s.fa F.ENG_CMA.LLEN d [e.val, j.val]
  let pa := bankPa d 0 (s.fa F.ENG_CMB.SRC d [e.val, j.val])
  let n0 := min len (1048576 - pa % 1048576)
  let waits := (decide (0 < n0) && s.mustWait d e.val pa) || (decide (n0 < len) && s.mustWait d e.val (pa + n0))
  if s.live d = false ∨ (s.die d).phase ≠ .work ∨ x.consts.contains j.val = false ∨ x.run ≠ .none ∨ waits = true then .next s
  else
    let shut0 := decide (0 < n0) && !s.constOpen d e.val pa
    let shut1 := decide (n0 < len) && !s.constOpen d e.val (pa + n0)
    let v0 := if shut0 then s.violate d e.val (paBank pa) else s
    let v := if shut1 then v0.violate d e.val (paBank (pa + n0)) else v0
    let lo := if shut0 then n0 else 0
    let hi := if shut1 then n0 else len
    let (s1, ws, bad) := v.readWords (pa + lo) (hi - lo)
    let stored := ws.mapIdx (fun i w => if bad.contains (pa + lo + i) then bad18 w else enc18 w)
    let y := (s1.eng d e.val).storeL (s.fa F.ENG_CMA.LSTART d [e.val, j.val] + lo) stored
    let y1 := { y with consts := y.consts.filter (fun k => decide (k ≠ j.val)),
                       badSrc := y.badSrc.filter (fun p => decide (p.1 ≠ j.val)) ++ bad.map (fun a => (j.val, a)),
                       badRegs := if bad.isEmpty then y.badRegs.filter (fun k => decide (k ≠ j.val)) else y.badRegs ++ [j.val] }
    let s2 := s1.setEng d e.val y1
    match bad with
    | [] => .next s2
    | b :: _ =>
      let last := bad.getLastD b
      let again := bad.any (fun a => x.badSrc.contains (j.val, a))
      let s3 := bad.foldl State.colErrAt ((List.range (badGroups pa bad)).foldl (fun t _ => t.countErr d e.val) s2)
      let s4 := (s3.setReg .DIE_BADPA_LO d [] (BitVec.ofNat 32 last)).setF F.DIE_BADPA_HI.PA_HI d [] (last / 4294967296)
      let s5 := s4.raise F.DIE_EV.PERSIST d []
      match y1.redo, again with
      | none, _ | _, false => .next s5
      | some i, true =>
        -- The reload of R373 met the source error again: no replay (R377, R619).
        let s6 := (s5.incF F.DIE_ERRCNT.COUNT d [5]).event 3 d 0 [globalEng d e.val, i, last % 4294967296, last / 4294967296]
        let s7 := s6.updEng d e.val (fun z => { z with redo := none, next := i + 1, consts := [] })
        .next (if s7.moreToRun d e.val then s7 else s7.rest d e.val)

/-! ### FEND (R81, R160, R207) -/

/-- One committed enqueue (R81, R346, R391): to the pending tail of an own-die queue, or TRANSIT toward another die, freed at once where that die is
declared lost. -/
def State.commitEnq (s : State) (d : Nat) (h : BitVec 16) (g : Nat) : State :=
  let dst := g / 131072
  if dst = d then
    if s.queOpen g then s.pend d g h.toNat else (s.dropCount d 2).freeBlk d h.toNat
  else if (s.f F.DIE_LOST.MASK d []).testBit dst then (s.dropCount d 7).freeBlk d h.toNat
  else
    let s1 := s.toState d h.toNat ⟨.transit, 0, false, g, false, false, false⟩
    s1.setDie d { s1.die d with outbound := (s1.die d).outbound ++ [(h, (s.die d).ticks)] }

/-- The commit of a run's work (R81, R207). -/
def State.commitWork (s : State) (d : Nat) (w : Work) : State :=
  let s1 := w.held.foldl (fun t (h, g) => t.leave g h.toNat) s
  let s2 := w.enq.foldl (fun t (h, g) => t.commitEnq d h g) s1
  let unused := ((w.held.map Prod.fst) ++ w.alloc).filter (fun h => !w.enq.any (fun p => decide (p.1 = h)))
  unused.foldl (fun t h => t.freeBlk d h.toNat) s2

/-- Mark the leaves of an entry to turn (R77, R81). -/
def State.markLeaves (s : State) (d e entry : Nat) : State :=
  { s with leaves := s.leaves.foldl (fun m (k, l) =>
      if k / 16384 = d ∧ l.v = true ∧ l.eng = e ∧ l.entry = entry then m.set .zero k { l with turn := true } else m) s.leaves }

/-- Whether everything that FEND waits for has landed (R160). -/
def Eng.landed (x : Eng) : Bool := x.sbuf.isEmpty && x.xfers.isEmpty && x.far.isEmpty && x.farOld.isEmpty && x.pmws.isEmpty

/-- FEND_COMMIT (R81, R92, R160). -/
def execFendCommit (die : DieNo) (e : EngNo) (s : State) : Host.Outcome State Fault Refusal :=
  let d := die.val
  let x := s.eng d e.val
  match x.run with
  | .folio i _ =>
    if x.fend = false ∨ x.landed = false ∨ s.live d = false then .next s
    else
      let s1 := s.setEng d e.val { x.stopRun with next := i + 1, fended := x.fended ++ [i] }
      let s2 := (s1.commitWork d x.work).markLeaves d e.val i
      .next (if s2.moreToRun d e.val || decide ((s2.die d).phase ≠ .work) then s2 else s2.rest d e.val)
  | _ => .next s

/-! ### Interrupts (R143 to R149) -/

/-- The lowest line sampled in the cycle of the last issue, that of a repeat's last repetition standing for its whole span (R136, R144). -/
def Eng.asked (x : Eng) : Option Nat := (List.range 16).find? (fun i => x.smp.getLsbD i)

/-- INTERRUPT_ENTRY (R144 to R150): the lowest line sampled enters its handler. `spent` is how much of a DIV's 18-cycle stall has
passed: below 18 the DIV is abandoned (R142). While FEND waits no bundle of the run issues any more (R160), and no request is taken (DESIGN
CHOICE, log entry 147). -/
def execInterruptEntry (die : DieNo) (e : EngNo) (spent : Nat) (s : State) : Host.Outcome State Fault Refusal :=
  let d := die.val
  let x := s.eng d e.val
  let ok := s.live d && decide ((s.die d).phase = .work) && decide (x.run ≠ .none) && !x.fend && x.bundle.isEmpty && x.rpt.isNone
  match x.asked with
  | none => .next s
  | some i =>
    if ok = false then .next s
    else
      let s1 := if x.div.isSome then
          (if spent < 18 then (s.setEng d e.val { x with div := none }).addF F.ENG_STALL.CYCLES d [e.val] spent
           else s.settle d e.val)
        else s
      .next ((s1.takeLine d e.val i).useFree 2048)

/-! ### Transfers (R182 to R187, R231 to R235, R260, R378 to R380) -/

/-- The PAs that a transfer has still to touch. -/
def Xfer.pas (t : Xfer) : List Nat :=
  if t.moved then [] else match t.kind with
  | .fetch | .stow => [t.pa]
  | .gather _ => t.elems.map Prod.snd
  | .scatter => t.elems.map Prod.fst
  | _ => []

/-- What one finished transfer does, and the detected error it meets: its place in R368 and where. -/
def State.moveXfer (s : State) (d e : Nat) (t : Xfer) : State × Option (Nat × ErrWhere) :=
  let x := s.eng d e
  let at_ (i : Nat) : Nat := (t.loc.toNat + i) % 65536
  let free (i : Nat) : W18 := freeBits 18 (s.fresh + i)
  let fill (ws : List W18) : List Stored :=
    ws.mapIdx (fun i w => if t.dirty.contains (at_ i) && decide (freeNat 2 (s.fresh + i) = 0) then x.lmem.get 0 (at_ i) else enc18 w)
  let toLocal (u : State) (ws : List W18) : State :=
    let v := (u.useFree t.len).staleStows d e ((List.range t.len).map at_)
    v.setEng d e (((v.eng d e).storeL t.loc.toNat (fill ws)).mark ((List.range t.len).map at_))
  let given : List (Nat × W18 × Bool) := (List.range t.len).map (fun i =>
    let v := x.lmem.get 0 (at_ i)
    if t.dirty.contains (at_ i) || x.fetching (at_ i) then (i, free i, true) else (i, data18 v, ok18 v))
  let fromLocal (pa : Nat) : State × Option (Nat × ErrWhere) :=
    let bad := (given.filter (fun p => !p.2.2)).map (fun p => ErrWhere.local (at_ p.1))
    (((given.foldl (fun u (i, w, ok) => if ok then u.putWord (pa + i) (enc18 w) else u) s).useFree t.len |> fun u =>
      (bad.drop 1).foldl (fun u w => u.noteColumn d e w) u), bad.head?.map (fun w => (4, w)))
  match t.kind with
    | .fetch =>
      let (s1, ws, bad) := s.readWords t.pa t.len
      match bad with
      | [] => (toLocal s1 ws, none)
      | b :: more => (toLocal (more.foldl State.colErrAt s1) ((List.range t.len).map free), some (6, .shared b))
    | .fetchB h =>
      let (ws, n, miss) := s.blockView d h.toNat
      let s1 := s.noteConceal d h.toNat n miss
      let s2 := if n = 0 then s1 else
        (ws.mapIdx (fun i w => (i, w))).foldl (fun u (i, w) =>
          if i = 3 ∨ ok18 (s.word (s.blkPa d h.toNat + i)) = false then u.setWord (s.blkPa d h.toNat + i) (enc18 w) else u) s1
      (toLocal s2 ws, none)
    | .stow => let r := fromLocal t.pa; (r.1.mirror t.pa t.len, r.2)
    | .stowB h => fromLocal (s.blkPa d h.toNat)
    | .gather vd =>
      t.elems.foldl (fun (u, err) (lane, pa) =>
        let (u1, w, ok) := u.readWord pa
        let (u2, v) := u1.hotRead pa w
        if ok || u.hotWord pa then (u2.updEng d e (fun y => y.put (.v vd [(lane, v)])), err)
        else match err with
          | none => (u2, some (6, .shared pa))
          | some _ => (u2.colErrAt pa, err)) (s, none)
    | .scatter => (t.elems.foldl (fun u (pa, w) => (u.putFar pa (BitVec.ofNat 18 w)).mirror pa 1) s, none)

/-- Whether a far access issued before the TLBSYNC numbered `k` is still in progress (R210). -/
def Eng.waitsFor (x : Eng) (k : Nat) (l : List Xfer) : Bool :=
  let far (w : FarWait) : Bool := decide (w.epoch < k) && (match w.kind with
    | .sbit _ _ _ => false
    | _ => true)
  l.any (fun t => !t.moved && decide (t.epoch < k)) || x.sbuf.any (fun b => decide (b.epoch < k)) || x.far.any far || x.farOld.any far

/-- Whether a transfer may complete: its messages are back and in their turn, every far access issued before a TLBSYNC older than it is over, and no
handover holds it (R35, R37, R210, R259). -/
def State.xferReady (s : State) (d e : Nat) (t : Xfer) : Bool :=
  let x := s.eng d e
  !t.moved && !x.waitsFor t.epoch x.xfers && !(t.parts.any (fun pa => x.out (s.live (s.farDie pa)) t.toks)) && s.inTurn d e t.toks && !(t.pas.any (s.mustWait d e))

/-- The transfers of a tag move their words one after another, at most `n` of them, in issue order, as far as each is ready. -/
def State.xferAll (s : State) (d e tag : Nat) : Nat → State × Option (Nat × ErrWhere)
  | 0 => (s, none)
  | n + 1 =>
    match (s.eng d e).xfers.find? (fun t => decide (t.tag = tag) && s.xferReady d e t) with
    | none => (s, none)
    | some t =>
      let r := (s.updEng d e (fun x => { x with xfers := x.xfers.map (fun z => if z = t then { t with moved := true } else z) })).moveXfer d e t
      let q := State.xferAll r.1 d e tag n
      (q.1, r.2 <|> q.2)

/-- Done bit 32 + tag is set when every transfer of the tag has moved; till then their words and lanes stay those of transfers in progress (R183,
R187, R234). -/
def Eng.tagDone (x : Eng) (tag : Nat) : Eng :=
  if x.xfers.any (fun t => decide (t.tag = tag) && !t.moved) then x
  else ({ x with xfers := x.xfers.filter (fun t => decide (t.tag ≠ tag)) }).setBit (32 + tag)

/-- TRANSFER_COMPLETE: the transfers in progress under a tag move their words, and done bit 32 + tag is set when none of them is left (R183, R234). -/
def execTransferComplete (die : DieNo) (e : EngNo) (tag : Fin 8) (s : State) : Host.Outcome State Fault Refusal :=
  let d := die.val
  let x := s.eng d e.val
  if x.xfers.any (fun t => decide (t.tag = tag.val) && s.xferReady d e.val t) = false ∨ s.live d = false then .next s
  else
    let r := s.xferAll d e.val tag.val x.xfers.length
    let s1 := r.1.updEng d e.val (fun y => y.tagDone tag.val)
    .next (match r.2 with
      | none => s1
      | some (k, w) => s1.detect d e.val k w)

/-- PMW_LAND: the oldest program-memory write lands with its check bits (R161 to R163); the last one an IFENCE waits for lets the fetch go on. -/
def execPmwLand (die : DieNo) (e : EngNo) (s : State) : Host.Outcome State Fault Refusal :=
  let x := s.eng die.val e.val
  match x.pmws with
  | [] => .next s
  | p :: rest =>
    let y := { x.landPmw p with pmws := rest }
    .next (s.setEng die.val e.val (if x.fence && rest.isEmpty then { y with fence := false, pmOld := [] } else y))

end Sys2Proof.Machine
end

