-- ==== Sys2Proof/Machine/Mem.lean ====
section
/-! DEFINITION. Bank ownership, bank power, twin pairs, engine power and column repair (R249, R250, R255 to R281). -/

namespace Sys2Proof.Machine

/-! ### Engine power (R249, R250) -/

/-- Whether a write of EN := 0 is refused (R250). -/
def State.enBusy (s : State) (d e : Nat) : Bool :=
  (List.range 16).any (fun i => decide (s.fa F.ENG_FLA.V d [e, i] = 1)) || decide (s.fa F.ENG_IDLE.EN d [e] = 1) ||
  (List.range 16).any (fun i => decide (s.f F.DIE_TAKE.V d [i] = 1) && decide (s.f F.DIE_TAKE.DONE d [i] = 0) &&
    (decide (s.f F.DIE_TAKE.SUSP d [i] = e) || decide (s.f F.DIE_TAKE.SPARE d [i] = e))) ||
  decide (s.f F.PKG_SWAP.ARMED 0 [] = 1)

/-- An engine at wake: cleared, its program-memory halves keeping their roles; it runs its list from the next tick. -/
def Eng.woken (x : Eng) : Eng := { half := x.half, listDone := true, next := 16 }

/-- Power-off and the start of clearing at a tick (R249). -/
def State.powerTick (s : State) (d e : Nat) : State :=
  let x := s.eng d e
  if s.f F.ENG_CTL.EN d [e] = 0 then
    if s.f F.ENG_STAT.PWR d [e] = 1 ∨ x.waking = true then (s.setEng d e { half := x.half }).setF F.ENG_STAT.PWR d [e] 0 else s
  else if s.f F.ENG_STAT.PWR d [e] = 0 ∧ x.waking = false then s.setEng d e { x.woken with waking := true } else s

/-- ENGINE_CLEAR_END (R249). -/
def execEngineClearEnd (die : DieNo) (e : EngNo) (s : State) : Host.Outcome State Fault Refusal :=
  let x := s.eng die.val e.val
  if x.waking = false ∨ s.live die.val = false then .next s
  else .next ((s.setEng die.val e.val x.woken).raise F.ENG_STAT.PWR die.val [e.val])

/-! ### Handover of a bank (R259 to R261) -/

/-- Whether a PA lies in bank b of die d. -/
def inBank (d b pa : Nat) : Bool := decide (pa / 1048576 = d * 8192 + b)

/-- The requests of an engine to a bank that are outstanding: transfers, stores and far reads. -/
def Eng.uses (x : Eng) (d b : Nat) : Bool :=
  x.xfers.any (fun t => t.pas.any (inBank d b)) || x.sbuf.any (fun e => inBank d b e.pa) ||
  (x.far ++ x.farOld).any (fun w => inBank d b w.pa)

/-- Engines that the old owner admits and that still have requests to the bank (R259). -/
def State.draining (s : State) (d b : Nat) : List (Nat × Nat) :=
  match (s.die d).handovers.get none b with
  | none => []
  | some h =>
    s.liveDies.flatMap (fun i => (List.range 64).filterMap (fun e =>
      if ownerAdmits h.old d i e = true ∧ (s.eng i e).uses d b = true then some (i, e) else none))

/-- A bank of the active kennel pool (R322). -/
def State.inPool (s : State) (d b : Nat) : Bool :=
  decide (s.fa F.KEN_POOL.BASE d [] ≤ b ∧ b < s.fa F.KEN_POOL.BASE d [] + s.fa F.KEN_POOL.NBANK d [])

/-- A write of SHM_OWN[b].OWNER := o (R259, R261). -/
def State.writeOwn (s : State) (d b o : Nat) : State :=
  let cur := s.f F.SHM_OWN.OWNER d [b]
  if s.f F.SHM_OWN.PEND d [b] = 1 then s.raise F.SHM_STAT.OWNBUSY d []
  else if o = cur then s
  else if (s.inPool d b = true ∧ o ≠ 8) ∨ (s.f F.SHM_TWIN.EN d [b] = 1 ∧ o ≠ 11) then s.raise F.SHM_STAT.OWNBUSY d []
  else
    let s1 := (s.setF F.SHM_OWN.OWNER d [b] o).raise F.SHM_OWN.PEND d [b]
    s1.setDie d { s1.die d with handovers := (s1.die d).handovers.set none b (some ⟨cur⟩) }

/-- The end of a handover: PEND returns to 0 (R259). -/
def State.endHandover (s : State) (d b : Nat) : State :=
  let s1 := (s.setF F.SHM_OWN.PEND d [b] 0).raise F.SHM_STAT.OWNEV d []
  s1.setDie d { s1.die d with handovers := (s1.die d).handovers.set none b none }

/-- HANDOVER_DRAIN_END (R259). -/
def execHandoverDrainEnd (die : DieNo) (bank : Fin 64) (s : State) : Host.Outcome State Fault Refusal :=
  if s.live die.val = false ∨ s.f F.SHM_OWN.PEND die.val [bank.val] = 0 ∨ s.draining die.val bank.val ≠ [] then .next s
  else .next (s.endHandover die.val bank.val)

/-- The elements of a transfer that lie outside a bank; none of a range that lies in it. -/
def Xfer.outside (t : Xfer) (d b : Nat) : Option Xfer :=
  let left := match t.kind with
    | .gather _ => t.elems.filter (fun p => !inBank d b p.2)
    | .scatter => t.elems.filter (fun p => !inBank d b p.1)
    | _ => []
  if left.isEmpty then none else some { t with elems := left }

/-- An engine's requests to a bank are abandoned (R260): words not moved stay, the done bits of transfers with nothing left are set, and local bit 42
is set. The elements of a gather or scatter in other banks go on. No word that the bank still owed has been moved by then (DESIGN CHOICE, log entry
45). -/
def Eng.abandon (x : Eng) (d b : Nat) (fr : W18) : Eng :=
  let hit (t : Xfer) : Bool := t.pas.any (inBank d b)
  let keep := x.xfers.filterMap (fun t => if hit t then t.outside d b else some t)
  let free (w : FarWait) : FarWait := if inBank d b w.pa then { w with fwd := some [fr, fr], waits := false } else w
  let y := { x with xfers := keep, sbuf := x.sbuf.filter (fun e => !inBank d b e.pa), far := x.far.map free, farOld := x.farOld.map free }
  (((x.xfers.filter hit).map Xfer.tag).foldl Eng.tagDone y).setBit 42

/-- HANDOVER_TIMEOUT (R260). -/
def execHandoverTimeout (die : DieNo) (bank : Fin 64) (s : State) : Host.Outcome State Fault Refusal :=
  let d := die.val
  if s.live d = false ∨ s.f F.SHM_OWN.PEND d [bank.val] = 0 then .next s
  else
    let s1 := (s.draining d bank.val).foldl (fun t (i, e) =>
      (t.updEng i e (fun x => x.abandon d bank.val (freeBits 18 t.fresh))).useFree 1) s
    .next (s1.endHandover d bank.val)

/-! ### Bank power (R262 to R264) -/

/-- A write of SHM_PWR[b].PREQ (R262 to R264): 0 ON, 1 RETAIN, 2 OFF. -/
def State.writePwr (s : State) (d b req : Nat) : State :=
  let st := s.f F.SHM_PWR.PSTAT d [b]
  let fromOff := decide (st = 2) || (decide (st = 3) && decide ((s.die d).waking.get none b = some true))
  let set (t : State) (k : Nat) (w : Option Bool) : State :=
    let u := (t.setF F.SHM_PWR.PREQ d [b] req).setF F.SHM_PWR.PSTAT d [b] k
    u.setDie d { u.die d with waking := (u.die d).waking.set none b w }
  if req = 0 then
    if st = 1 then set s 3 (some false) else if st = 2 then set s 3 (some true) else s.setF F.SHM_PWR.PREQ d [b] 0
  else if s.f F.SHM_OWN.OWNER d [b] ≠ 15 ∨ s.f F.SHM_OWN.PEND d [b] = 1 ∨ s.f F.SHM_TWIN.EN d [b] = 1 ∨ (req = 1 ∧ fromOff = true) then
    s.raise F.SHM_STAT.PWRBUSY d []
  else if req = 1 then set s 1 none
  else set (s.setBank (bankPa d b 0) 1048576 []) 2 none

/-- BANK_WAKE_END (R264). -/
def execBankWakeEnd (die : DieNo) (bank : Fin 64) (s : State) : Host.Outcome State Fault Refusal :=
  let d := die.val
  if s.live d = false ∨ s.f F.SHM_PWR.PSTAT d [bank.val] ≠ 3 then .next s
  else
    let off := (s.die d).waking.get none bank.val = some true
    let s1 := (s.setF F.SHM_PWR.PSTAT d [bank.val] 0).setDie d { s.die d with waking := (s.die d).waking.set none bank.val none }
    .next (if off then (s1.setBank (bankPa d bank.val 0) 1048576 []).raise F.SHM_STAT.CLREV d [] else s1)

/-! ### Twin pairs (R265 to R269) -/

/-- The other bank that a twin entry names. -/
def State.twinOf (s : State) (d b : Nat) : Nat × Nat := (s.f F.SHM_TWIN.DIE d [b], s.f F.SHM_TWIN.BANK d [b])

/-- A pair is no longer formed. -/
def State.unform (s : State) (d b : Nat) : State :=
  let one (t : State) (i j : Nat) : State :=
    ((t.setF F.SHM_TWIN.FORMED i [j] 0).setF F.SHM_TWIN.SYNC i [j] 0).setF F.SHM_TWIN.HOME i [j] 0
  if s.formed d b then
    let (i, j) := s.twinOf d b
    one (one s d b) i j
  else s

/-- Form the pair of a bank when every condition of R265 holds. -/
def State.form (s : State) (d b : Nat) : State :=
  let (i, j) := s.twinOf d b
  let ok (d b : Nat) : Bool := decide (s.f F.SHM_TWIN.EN d [b] = 1) && decide (s.f F.SHM_OWN.OWNER d [b] = 11) &&
    decide (s.f F.SHM_TWIN.SOLO d [b] = 0)
  if i ≠ d ∧ s.live i = true ∧ ok d b = true ∧ ok i j = true ∧ s.twinOf i j = (d, b) then
    let s1 := (s.raise F.SHM_TWIN.FORMED d [b]).raise F.SHM_TWIN.FORMED i [j]
    if d < i then s1.raise F.SHM_TWIN.HOME d [b] else s1.raise F.SHM_TWIN.HOME i [j]
  else s

/-- A write of SHM_TWIN[b]: EN, DIE and BANK (R265, R269). -/
def State.writeTwin (s : State) (d b en td tb : Nat) : State :=
  if en = 1 ∧ s.f F.SHM_OWN.OWNER d [b] ≠ 11 then s.raise F.SHM_STAT.OWNBUSY d []
  else if en = s.f F.SHM_TWIN.EN d [b] ∧ (td, tb) = s.twinOf d b then s
  else
    let s1 := s.unform d b
    let s2 := ((s1.setF F.SHM_TWIN.EN d [b] en).setF F.SHM_TWIN.DIE d [b] td).setF F.SHM_TWIN.BANK d [b] tb
    if en = 0 then
      let solo := decide (s.f F.SHM_TWIN.SOLO d [b] = 1)
      (s2.setF F.SHM_TWIN.SOLO d [b] 0).setDie d { s2.die d with wasSolo := if solo then b :: (s2.die d).wasSolo else (s2.die d).wasSolo }
    else s2.form d b

/-- TWIN_COPY_END (R262, R266, R269): the home bank, or the bank that was SOLO, has been copied into the other. The copy reaches only banks that
are ON. -/
def execTwinCopyEnd (die : DieNo) (bank : Fin 64) (s : State) : Host.Outcome State Fault Refusal :=
  let d := die.val
  let b := bank.val
  let (i, j) := s.twinOf d b
  if s.live d = false ∨ s.formed d b = false ∨ s.f F.SHM_TWIN.SYNC d [b] = 1 ∨ s.bankOn d b = false ∨ s.bankOn i j = false then .next s
  else
    let fromHere := (s.die d).wasSolo.contains b || (!(s.die i).wasSolo.contains j && decide (s.f F.SHM_TWIN.HOME d [b] = 1))
    let lo := bankPa d b 0
    let lo2 := bankPa i j 0
    let s1 := if fromHere then s.setBank lo2 1048576 (s.bankWords lo 1048576 lo2) else s.setBank lo 1048576 (s.bankWords lo2 1048576 lo)
    let s2 := (s1.raise F.SHM_TWIN.SYNC d [b]).raise F.SHM_TWIN.SYNC i [j]
    let s3 := s2.setDie d { s2.die d with wasSolo := (s2.die d).wasSolo.filter (fun k => decide (k ≠ b)) }
    .next (s3.setDie i { s3.die i with wasSolo := (s3.die i).wasSolo.filter (fun k => decide (k ≠ j)) })

/-- TWIN_READ_RETURN (R268): the twin's word repairs the faulty one, or TWINBAD is set. -/
def execTwinReadReturn (die : DieNo) (bank : Fin 64) (word : BitVec 20) (s : State) : Host.Outcome State Fault Refusal :=
  let pa := bankPa die.val bank.val word.toNat
  if s.live die.val = false ∨ s.f F.SHM_TWIN.EN die.val [bank.val] = 0 ∨ ok18 (s.word pa) = true then .next s
  else .next (s.readWord pa).1

/-! ### Column repair (R276 to R280) -/

/-- Spare columns of an array (R276). -/
def sparesOf (kind : Nat) : Nat := if kind = 1 ∨ kind = 2 then 4 else 2

/-- The spares of an array that a repair record uses. -/
def State.usedSpares (s : State) (d kind unit : Nat) : List Nat :=
  (List.range 16).flatMap (fun i =>
    (if s.f F.REP_SOFT.V d [i] = 1 ∧ s.f F.REP_SOFT.KIND d [i] = kind ∧ s.f F.REP_SOFT.UNIT d [i] = unit then [s.f F.REP_SOFT.SPARE d [i]] else []) ++
    (if s.f F.REP_FIELD.V d [i] = 1 ∧ s.f F.REP_FIELD.KIND d [i] = kind ∧ s.f F.REP_FIELD.UNIT d [i] = unit then [s.f F.REP_FIELD.SPARE d [i]] else []))

/-- Soft entries in use (R281). -/
def State.softN (s : State) (d : Nat) : Nat := ((List.range 16).filter (fun i => decide (s.f F.REP_SOFT.V d [i] = 1))).length

/-- A word of an array that the maintenance path rewrites after a repair (R279): good, restored from its twin, or marked. -/
def State.remake (s : State) (pa : Nat) : State :=
  if s.reaches pa = false then s
  else
    let (s1, w, ok) := s.fixWord pa
    if ok then s1 else s1.setWord pa (bad18 w)

/-- The words of a repaired array are made whole (R279). -/
def State.afterRepair (s : State) (d kind unit : Nat) : State :=
  if kind = 0 then
    let e := unit / 8
    s.updEng d e (fun x => { x with consts := (List.range 8).filter (fun j => decide (s.fa F.ENG_CMA.LLEN d [e, j] ≠ 0)) })
  else if kind = 1 then s.suspect d (unit / 2)
  else if kind = 3 then ((s.die d).qbad.filter (fun p => decide (p.1 = unit))).foldl (fun t p => t.mendRow d p.1 p.2) s
  else
    let inArray (pa : Nat) : Bool := decide (paDie pa = d) &&
      (if kind = 2 then paShared pa && decide (paBank pa = unit / 8) && decide (pa % 8 = unit % 8)
       else decide (kind = 4) && paMailbox pa)
    ((s.shm.map Prod.fst).filter inArray).foldl (fun t pa => t.remake pa) s

/-- Install one soft repair (R277, R278). -/
def State.softRepair (s : State) (d : Nat) (e : ColErr) : State :=
  let used := s.usedSpares d e.kind e.unit
  match (List.range (sparesOf e.kind)).find? (fun k => !used.contains k), (List.range 16).find? (fun i => decide (s.f F.REP_SOFT.V d [i] = 0)) with
  | some k, some i =>
    let v : W32 := BitVec.ofNat 32 (2147483648 + e.kind * 268435456 + e.unit * 524288 + e.col * 256 + k)
    let s1 := (s.setReg .REP_SOFT d [i] v).raise F.REP_EV.SOFT d []
    (s1.setF F.REP_STAT.SOFTN d [] (s1.softN d)).afterRepair d e.kind e.unit
  | _, _ => s.raise F.REP_EV.FULL d []

/-- Errors of the window at the column of `e`, by row (R277). -/
def defect (thr win fn : Nat) (l : List ColErr) (e : ColErr) : Bool :=
  let same := l.filter (fun x => decide (x.kind = e.kind ∧ x.unit = e.unit ∧ x.col = e.col ∧ fn < x.frame + win))
  decide (thr ≤ ((same.map ColErr.row).eraseDups).length)

/-- At cycle 0 of a tick the declared column defects are repaired (R277). -/
def State.repairTick (s : State) (d : Nat) : State :=
  let fn := s.fn d
  let win := s.f F.REP_CTL.CDWIN d []
  let l := (s.die d).colErrs.filter (fun e => decide (fn < e.frame + win + 1))
  let bad := l.filter (defect (s.f F.REP_CTL.CDTHR d []) (win + 1) fn l)
  let cols := (bad.map (fun e => (e.kind, e.unit, e.col))).eraseDups
  let s1 := s.setDie d { s.die d with colErrs := l.filter (fun e => !cols.contains (e.kind, e.unit, e.col)) }
  cols.foldl (fun t (k, u, c) => t.softRepair d ⟨k, u, 0, c, 0⟩) s1

end Sys2Proof.Machine
end

