-- ==== Sys2Proof/Machine/Recover.lean ====
section
/-! DEFINITION. Spares and takeover, the loss of a die, scrubbing and fuse programming (R280, R335, R382 to R394). -/

namespace Sys2Proof.Machine

/-! ### Spares (R383, R387) -/

/-- An engine has no list of its own: the list ends at its first entry with V = 0 (R68, R383). -/
def State.noList (s : State) (d e : Nat) : Bool := decide (s.fa F.ENG_FLA.V d [e, 0] = 0)

/-- Entry i is in an engine's list of the active or the shadow copy: no entry up to it has V = 0 (R68). -/
def State.inList (s : State) (d e i : Nat) : Bool :=
  (List.range (i + 1)).all (fun j => decide (s.fa F.ENG_FLA.V d [e, j] = 1)) || (List.range (i + 1)).all (fun j => decide (s.f F.ENG_FLA.V d [e, j] = 1))

/-- Engines that can serve as a spare. -/
def State.spares (s : State) (d : Nat) : List Nat :=
  (List.range 64).filter (fun e => decide (s.f F.ENG_CTL.SPARE d [e] = 1) && decide (s.f F.ENG_STAT.PWR d [e] = 1) &&
    decide (s.f F.ENG_STAT.SUSPECT d [e] = 0) && s.noList d e &&
    !(List.range 16).any (fun i => decide (s.f F.DIE_TAKE.V d [i] = 1) && decide (s.f F.DIE_TAKE.DONE d [i] = 0) &&
      decide (s.f F.DIE_TAKE.SPARE d [i] = e)))

/-- Whether every bank of a run of words of this die is an ARC bank. -/
def State.arcRun (s : State) (d a n : Nat) : Bool :=
  n = 0 || (List.range ((a + n - 1) / 1048576 + 1 - a / 1048576)).all (fun i => decide (s.f F.SHM_OWN.OWNER d [a / 1048576 + i] = 11))

/-- Whether an engine's leaves and constant sources all lie in ARC banks (R383). -/
def State.arcOnly (s : State) (d e : Nat) : Bool :=
  s.leaves.all (fun (k, l) => !(decide (k / 16384 = d) && l.v && decide (l.eng = e) && s.inList d e l.entry) ||
    (s.arcRun d l.recto l.len && s.arcRun d l.verso l.len)) &&
  (List.range 8).all (fun j => s.arcRun d (s.fa F.ENG_CMB.SRC d [e, j]) (s.fa F.ENG_CMA.LLEN d [e, j]) &&
    s.arcRun d (s.f F.ENG_CMB.SRC d [e, j]) (s.f F.ENG_CMA.LLEN d [e, j]))

/-- The spare for a suspect (R383). -/
def State.spareFor (s : State) (d e : Nat) : Option Nat :=
  let l := s.spares d
  (l.find? (fun x => decide (x / 8 = e / 8))) <|> (if s.arcOnly d e then l.head? else none)

/-- Choose a spare for one suspect, or note that none qualifies (R383, R387). -/
def State.chooseSpare (s : State) (d e : Nat) : State :=
  match s.spareFor d e, (List.range 16).find? (fun i => decide (s.f F.DIE_TAKE.V d [i] = 0)) with
  | some p, some i =>
    let s1 := (s.setReg .DIE_TAKE d [i] (BitVec.ofNat 32 (2147483648 + e * 256 + p))).raise F.DIE_EV.TAKEOVER d []
    s1.setDie d { s1.die d with suspects := (s1.die d).suspects.filter (fun x => decide (x ≠ e)),
                                takeAge := (s1.die d).takeAge.set 0 i 1 }
  | _, _ =>
    let s1 := s.raise F.DIE_EV.SPARENONE d []
    if (s.die d).spareNone.contains e then s1
    else (s1.event 7 d 0 [globalEng d e]).setDie d { s1.die d with spareNone := e :: (s1.die d).spareNone }

/-- The choice at a tick, for every waiting suspect in ascending order (R383). -/
def State.chooseSpares (s : State) (d : Nat) : State :=
  ((List.range 64).filter (fun e => (s.die d).suspects.contains e)).foldl (fun t e => t.chooseSpare d e) s

/-! ### Takeover (R384, R385) -/

/-- Copy one RWS register, both copies, from one engine's index to another's. -/
def State.copyReg (s : State) (r : RegName) (d : Nat) (a b : List Nat) : State :=
  (s.setReg r d b (s.reg r d a)).setAct r d b (s.act r d a)

/-- Every register that R384 copies. -/
def State.copyRegs (s : State) (d a b : Nat) : State :=
  let s1 := (s.copyReg .ENG_IDLE d [a] [b]).copyReg .DIE_PMSRC d [a] [b]
  let s2 := (List.range 16).foldl (fun t i => (t.copyReg .ENG_FLA d [a, i] [b, i]).copyReg .ENG_FLB d [a, i] [b, i]) s1
  (List.range 8).foldl (fun t j => (t.copyReg .ENG_CMA d [a, j] [b, j]).copyReg .ENG_CMB d [a, j] [b, j]) s2

/-- Reload the bundles of an engine that show a check error; PMBAD where one cannot be (R384). -/
def State.healPm (s : State) (d e : Nat) : State :=
  let bad := ((s.eng d e).pmem.filter (fun p => !okBundle p.2)).map Prod.fst
  bad.foldl (fun t i =>
    let half := decide (4096 ≤ i)
    (t.mendBundle d e half (half == (t.eng d e).half) (i % 4096)).1) s

/-- The constant regions in use in the active map. -/
def State.usedRegions (s : State) (d e : Nat) : List Nat :=
  (List.range 8).filter (fun j => decide (s.fa F.ENG_CMA.LLEN d [e, j] ≠ 0))

/-- The spare of record i takes the suspect's place (R384, R385). -/
def State.takeover (s : State) (d i : Nat) : State :=
  let a := s.f F.DIE_TAKE.SUSP d [i]
  let b := s.f F.DIE_TAKE.SPARE d [i]
  let s1 := (s.healPm d a).copyRegs d a b
  let x := s1.eng d a
  let s2 := s1.updEng d b (fun y => { y with pmem := x.pmem, pmws := x.pmws, half := x.half, l2 := x.l2, ivec := x.ivec, tvec := x.tvec, imask := x.imask,
                                             consts := s1.usedRegions d b })
  let s3 := { s2 with leaves := s2.leaves.map (fun (p : Nat × Leaf) =>
    (p.1, if p.1 / 16384 = d ∧ p.2.v = true ∧ p.2.eng = a then { p.2 with eng := b } else p.2)) }
  let s4 := ((s3.setF F.ENG_CTL.SPARE d [a] 0).setF F.ENG_FSTAT.SEQ d [a] 5).setF F.DIE_TAKE.DONE d [i] 1
  let s5 := s4.updEng d a (fun y => { y with listDone := true, next := 16 })
  (s5.setDie d { s5.die d with takeAge := (s5.die d).takeAge.set 0 i 0 }).event 6 d 0 [globalEng d a, globalEng d b]

/-- Whether a record's takeover falls due at the coming tick. -/
def State.takeDue (s : State) (d i : Nat) : Bool :=
  decide (s.f F.DIE_TAKE.V d [i] = 1) && decide (s.f F.DIE_TAKE.DONE d [i] = 0) && decide ((s.die d).takeAge.get 0 i ≠ 0)

/-- TAKEOVER (R385): the tick after the choice makes it, before its other work; here a record that a tick has passed over (log entry 182). -/
def execTakeover (die : DieNo) (i : Fin 16) (s : State) : Host.Outcome State Fault Refusal :=
  if s.live die.val = false ∨ s.takeDue die.val i.val = false ∨ (s.die die.val).takeAge.get 0 i.val < 2 then .next s
  else .next (s.takeover die.val i.val)

/-- The takeovers that fall due at a tick and have not been made. -/
def State.takeovers (s : State) (d : Nat) : State :=
  (List.range 16).foldl (fun t i => if t.takeDue d i then t.takeover d i else t) s

/-- The spare that took the place of engine e, if any did (R385). -/
def State.stands (s : State) (d e : Nat) : Option Nat :=
  ((List.range 16).find? (fun i => decide (s.f F.DIE_TAKE.V d [i] = 1) && decide (s.f F.DIE_TAKE.DONE d [i] = 1) &&
    decide (s.f F.DIE_TAKE.SUSP d [i] = e))).map (fun i => s.f F.DIE_TAKE.SPARE d [i])

/-- The engine that holds the work of engine e after at most `n` takeovers one behind another. -/
def State.heir (s : State) (d : Nat) : Nat → Nat → Nat
  | 0, e => e
  | n + 1, e => match s.stands d e with
    | some p => State.heir s d n p
    | none => e

/-- A hardware source sets an interrupt bit of an engine, or of the spare that took its place (R143, R385). -/
def State.interrupt (s : State) (d e line : Nat) : State := s.updEng d (s.heir d 16 e) (fun x => x.setBit line)

/-! ### Release (R388) -/

/-- DIE_RELEASE takes effect at a tick. -/
def State.releaseTick (s : State) (d : Nat) : State :=
  if s.f F.DIE_RELEASE.GO d [] = 0 then s
  else
    let s0 := s.setF F.DIE_RELEASE.GO d [] 0
    let e := s.f F.DIE_RELEASE.ENG d []
    if s.f F.ENG_STAT.SUSPECT d [e] = 0 then s0
    else
      let s1 := (s0.setF F.ENG_STAT.SUSPECT d [e] 0).updEng d e (fun x => { x with errFrames := [] })
      let s2 := s1.setDie d { s1.die d with suspects := (s1.die d).suspects.filter (fun x => decide (x ≠ e)),
                                            spareNone := (s1.die d).spareNone.filter (fun x => decide (x ≠ e)) }
      match (List.range 16).find? (fun i => decide (s.f F.DIE_TAKE.V d [i] = 1) && decide (s.f F.DIE_TAKE.SUSP d [i] = e)) with
      | none => s2
      | some i =>
        let s3 := s2.setReg .DIE_TAKE d [i] 0
        let s4 := s3.setDie d { s3.die d with takeAge := (s3.die d).takeAge.set 0 i 0 }
        if s.f F.DIE_TAKE.DONE d [i] = 1 then
          let s5 := (List.range 16).foldl (fun t k => (t.setF F.ENG_FLA.V d [e, k] 0).setFa F.ENG_FLA.V d [e, k] 0) s4
          (s5.setF F.ENG_IDLE.EN d [e] 0).setFa F.ENG_IDLE.EN d [e] 0
        else s4

/-! ### The loss of a die (R335, R389 to R391) -/

/-- Blocks in TRANSIT toward a lost die become FREE (R335). -/
def State.freeToward (s : State) (d gone : Nat) : State :=
  let x := s.die d
  let mine := x.outbound.filter (fun p => decide ((s.blk d p.1.toNat).dst / 131072 = gone))
  let s1 := s.setDie d { x with outbound := x.outbound.filter (fun p => !decide ((s.blk d p.1.toNat).dst / 131072 = gone)) }
  mine.foldl (fun t p => (t.dropCount d 7).freeBlk d p.1.toNat) s1

/-- A surviving bank of a pair becomes SOLO (R269). -/
def State.soloBanks (s : State) (d gone : Nat) : State :=
  (List.range 64).foldl (fun t b =>
    if t.f F.SHM_TWIN.EN d [b] = 1 ∧ t.f F.SHM_TWIN.DIE d [b] = gone ∧ t.formed d b = true then
      (((((t.raise F.SHM_TWIN.SOLO d [b]).setF F.SHM_TWIN.SYNC d [b] 0).setF F.SHM_TWIN.FORMED d [b] 0).setF F.SHM_TWIN.HOME d [b] 0)).raise
        F.SHM_STAT.SOLOEV d []
    else t) s

/-- What one surviving die does on a declaration (R391). -/
def State.declare (s : State) (d gone : Nat) : State :=
  let s1 := (s.setReg .DIE_LOST d [] (s.reg .DIE_LOST d [] ||| BitVec.twoPow 32 gone)).raise F.DIE_EV.LOST d []
  let s2 := (((s1.event 0x20 d 2 [gone]).freeToward d gone).raise F.KEN_CRED.FROZEN d [gone]).soloBanks d gone
  (flowKeys d s2.flA).foldl (fun t g =>
    let p := t.flow g
    if p.isOpen = true ∧ p.crit = true ∧ p.twin / 8192 = gone then t.event 0x12 d 1 [g, p.twin] else t) s2

/-- Whether die i has received no presence message of die d in this commit phase and the one before, or received its FAULT message before the
last tick (R390). -/
def State.misses (s : State) (i d : Nat) : Bool := (decide (1 ≤ (s.die i).missed.get 0 d) && !(s.die i).heard.contains d) || (s.die i).faultDue.contains d

/-- Die g runs and a split of the ring keeps it and die i apart: die i does not declare it lost (R67, R391). -/
def State.apart (s : State) (i g : Nat) : Bool := s.live g && (s.cutOff g i || s.cutOff i g)

/-- DIE_LOSS_DECLARATION (R67, R390, R391): the surviving dies that miss it declare the die lost at one tick. -/
def execDieLossDeclaration (lost : DieNo) (s : State) : Host.Outcome State Fault Refusal :=
  let g := lost.val
  let l := s.liveDies.filter (fun i => decide (i ≠ g) && decide ((s.die i).phase = .work) && !(s.reg .DIE_LOST i []).getLsbD g && s.misses i g &&
    !s.apart i g)
  if s.populated g = false then .fault .noSuchObject
  else .next ((l.foldl (fun t i => t.declare i g) s).setLone)

/-! ### Scrubbing (R393, R394) -/

/-- The scrubber meets an error in a shared word (R394). -/
def State.scrubShared (s : State) (d b w : Nat) : State :=
  let pa := bankPa d b w
  let s1 := s.incF F.DIE_ERRCNT.COUNT d [6]
  let other (t0 : State) : State :=
    let t := t0.colErrAt pa
    let u := ((t.setReg .DIE_BADPA_LO d [] (BitVec.ofNat 32 pa)).setF F.DIE_BADPA_HI.PA_HI d [] (pa / 4294967296)).raise F.DIE_EV.SCRUBERR d []
    u.event 8 d 0 [0, 0, pa % 4294967296, pa / 4294967296]
  if s.inPool d b then
    let h := (b - s.fa F.KEN_POOL.BASE d []) * 8192 + w / 128
    if (s.blk d h).st = .free then (s1.colErrAt pa).mendWord pa (enc18 0) else s1.colErrAt pa
  else if s.f F.SHM_TWIN.EN d [b] = 1 then
    let (s2, _, ok) := s1.readWord pa
    if ok then s2 else other s2
  else other s1

/-- One copy of a shared-bit group in error is rewritten from the other (R274). -/
def BitGroup.heal (g : BitGroup) : BitGroup :=
  if ok16 g.c0 then (if ok16 g.c1 then g else ⟨g.c0, g.c0⟩) else if ok16 g.c1 then ⟨g.c1, g.c1⟩ else g

/-! ### Fuse programming (R280) -/

/-- The soft entries of finished programming are cleared at the next tick (R280). -/
def State.fuseTick (s : State) (d : Nat) : State :=
  let s1 := (s.die d).progDone.foldl (fun t (i, v) => if t.reg .REP_SOFT d [i] = v then t.setReg .REP_SOFT d [i] 0 else t) s
  (s1.setF F.REP_STAT.SOFTN d [] (s1.softN d)).setDie d { s1.die d with progDone := [] }

end Sys2Proof.Machine
end

