-- ==== Sys2Proof/Machine/Swap.lean ====
section
/-! DEFINITION. The configuration swap: shadow copy, arming, check values, votes, the decision, the exchange, and the handover
from Early Service (R324 to R326, R334, R403 to R422). -/

namespace Sys2Proof.Machine

/-! ### CRC-32C (R409) -/

/-- One bit of CRC-32C, reflected. -/
def crcBit (c : W32) : W32 := if c.getLsbD 0 then (c >>> 1) ^^^ 0x82F63B78#32 else c >>> 1

/-- One byte. -/
def crcByte (c : W32) (b : Nat) : W32 :=
  crcBit (crcBit (crcBit (crcBit (crcBit (crcBit (crcBit (crcBit (c ^^^ BitVec.ofNat 32 (b % 256)))))))))

/-- Bytes of a value, little-endian. -/
def leBytes (n x : Nat) : List Nat := (List.range n).map (fun i => x / 256 ^ i % 256)

def crcBytes (c : W32) (l : List Nat) : W32 := l.foldl crcByte c

/-! ### Banked registers (R9, R403) -/

/-- The bits of a register's RWS fields. -/
def RegName.rwsMask (r : RegName) : W32 :=
  r.desc.fields.foldl (fun m f => if f.ty = .rws then setField m f.hi f.lo (2 ^ (f.hi + 1 - f.lo) - 1) else m) 0

/-- The registers of a die window with RWS fields that some write has changed, shadow or active. -/
def State.bankedLocs (s : State) (d : Nat) : List (RegName × List Nat) :=
  (s.regs.filterMap (fun e =>
    if e.1 / 0x100000 = d + 1 then
      match locate e.1 with
      | some l => if l.reg.banked then some (l.reg, l.idx) else none
      | none => none
    else none)).eraseDups

/-- Exchange the RWS fields of one register with its active copy. -/
def State.swapReg (s : State) (d : Nat) (r : RegName) (idx : List Nat) : State :=
  let m := r.rwsMask
  let a := s.act r d idx
  let b := s.reg r d idx
  (s.setReg r d idx ((b &&& ~~~m) ||| (a &&& m))).setAct r d idx ((a &&& ~~~m) ||| (b &&& m))

/-- Copy the active RWS fields of one register to its shadow copy (R405). -/
def State.copyUp (s : State) (d : Nat) (r : RegName) (idx : List Nat) : State :=
  let m := r.rwsMask
  s.setReg r d idx ((s.reg r d idx &&& ~~~m) ||| (s.act r d idx &&& m))

/-- Registers that belong to one engine: FLIST and DIE_PMSRC (R403, R418). -/
def engineOf (r : RegName) (idx : List Nat) : Option Nat :=
  match r with
  | .ENG_IDLE | .ENG_FLA | .ENG_FLB | .ENG_CMA | .ENG_CMB | .DIE_PMSRC => idx.head?
  | _ => none

/-- The Early Service engines (R570). -/
def earlyEng (d e : Nat) : Bool := decide (d < 2) && decide (56 ≤ e ∧ e < 60)

/-! ### The shadow copy (R405) -/

/-- The shadow set of one die becomes equal to the active set. -/
def State.copyDie (s : State) (d : Nat) : State :=
  let s1 := (s.bankedLocs d).foldl (fun t (r, i) => t.copyUp d r i) s
  let s2 := (List.range 64).foldl (fun t e => t.updEng d e (fun x =>
    let (lo, hi) : Nat × Nat := if x.half then (4096, 0) else (0, 4096)
    let act := (x.pmem.filter (fun p => decide (lo ≤ p.1 ∧ p.1 < lo + 4096))).map (fun p => (p.1 - lo + hi, p.2))
    { x with pmem := act.foldl (fun m p => m.set 0 p.1 p.2) (x.pmem.filter (fun p => decide (lo ≤ p.1 ∧ p.1 < lo + 4096))) })) s1
  { s2 with flS := takeDie 8192 d s2.flS s2.flA, qpS := takeDie 131072 d s2.qpS s2.qpA }.raise F.DIE_SWAP.SHDIRTY d []

/-- The copy at the first tick of a round (R405): it starts where COPY asks for it, on every die that runs, and has ended by the second tick after. A
write to a shadow set while COPYRUN = 1 so lands after the copy (DEDUCED, log entry 63). TCK_FRAME is held once (R97). -/
def State.copyStart (s : State) : State :=
  if s.f F.PKG_SWAPCTL.COPY 0 [] = 1 then
    let t := ((s.setF F.PKG_SWAPCTL.COPY 0 [] 0).raise F.PKG_SWAP.COPYRUN 0 []).copyUp 0 .TCK_FRAME []
    let u := s.liveDies.foldl State.copyDie t
    { u with pkg := { u.pkg with copying := 1 } }
  else if s.pkg.copying = 0 then s
  else if s.pkg.copying = 1 then { s with pkg := { s.pkg with copying := 2 } }
  else let t := s.setF F.PKG_SWAP.COPYRUN 0 [] 0; { t with pkg := { t.pkg with copying := 0 } }

/-- SHADOW_COPY_END (R405): the copy has ended on every die. -/
def execShadowCopyEnd (s : State) : Host.Outcome State Fault Refusal :=
  if s.f F.PKG_SWAP.COPYRUN 0 [] = 0 then .next s
  else let t := s.setF F.PKG_SWAP.COPYRUN 0 [] 0; .next { t with pkg := { t.pkg with copying := 0 } }

/-! ### Check values (R409) -/

/-- The index lists of an array. -/
def idxLists : List (Nat × Nat) → List (List Nat)
  | [] => [[]]
  | (n, _) :: ds => (List.range n).flatMap (fun i => (idxLists ds).map (i :: ·))

/-- Every register of a die window with RWS fields, in ascending address, with indices. -/
def bankedRegs (d : Nat) : List (RegName × List Nat) :=
  let all := (List.range 13).flatMap (fun b => (blockRegs b).filter (fun r => r.banked && (decide (r.desc.blk ≠ .fd01) || decide (d < 2))))
  (all.flatMap (fun r => (idxLists r.desc.dims).map (fun i => (r, i)))).mergeSort (fun a b => decide (a.1.addr d a.2 ≤ b.1.addr d b.2))

/-- The CRC-32C over the shadow set of a die (R409). -/
def State.shadowCrc (s : State) (d : Nat) : W32 :=
  let c0 := (bankedRegs d).foldl (fun c (r, i) => crcBytes c (leBytes 4 (s.reg r d i &&& r.rwsMask).toNat)) 0xFFFFFFFF#32
  let c1 := (List.range 5120).foldl (fun c fid =>
    let p := s.flS.get .zero (8192 * d + fid)
    crcBytes c (leBytes 4 p.c0.toNat ++ leBytes 4 p.c1.toNat ++ leBytes 4 p.c2.toNat ++ leBytes 4 p.c3.toNat)) c0
  let c2 := (List.range 131072).foldl (fun c q =>
    let p := s.qpS.get .zero (131072 * d + q)
    crcBytes c (leBytes 2 p.dlim.toNat ++ leBytes 2 p.alim.toNat ++ [p.policy.toNat, 0])) c1
  let c3 := (List.range 64).foldl (fun c e =>
    let x := s.eng d e
    let base := if x.half then 0 else 4096
    let on := decide (s.f F.ENG_STAT.PWR d [e] = 1)
    (List.range 4096).foldl (fun c i => crcBytes c (leBytes 18 (if on then (dataBundle (x.pmem.get 0 (base + i))).toNat else 0))) c) c2
  c3 ^^^ 0xFFFFFFFF#32

/-- SWAP_CRC (R409): the die's check value is computed within two frames of the arm. -/
def execSwapCrc (die : DieNo) (s : State) : Host.Outcome State Fault Refusal :=
  if s.live die.val = false ∨ (s.die die.val).armT = none then .next s
  else .next ((s.setReg .DIE_SWAPCRC die.val [] (s.shadowCrc die.val)).setDie die.val { s.die die.val with crcDone := true })

/-! ### Votes (R411) -/

/-- The conditions of R74 on a shadow map. -/
def State.mapOk (s : State) (d : Nat) : Bool :=
  (List.range 64).all (fun e => (List.range 8).all (fun j =>
    let a := s.f F.ENG_CMA.LSTART d [e, j]
    let n := s.f F.ENG_CMA.LLEN d [e, j]
    decide (a % 8 = 0) && decide (n % 8 = 0) && decide (a + n ≤ 65536)))

/-- The conditions of R402 on a shadow DIE_PMSRC with V = 1. -/
def State.pmsrcOk (s : State) (d : Nat) : Bool :=
  (List.range 64).all (fun e =>
    let a := s.f F.DIE_PMSRC.SRC d [e]
    decide (s.f F.DIE_PMSRC.V d [e] = 0) || (decide (a % 8 = 0) && decide (a / 1048576 = (a + 32767) / 1048576)))

/-- Every block of the banks that a shrink removes is FREE. -/
def State.drained (s : State) (d : Nat) : Bool :=
  s.blks.all (fun e => !(decide (e.1 / 65536 = d) && decide (8192 * s.f F.KEN_POOL.NBANK d [] ≤ e.1 % 65536) &&
    decide (e.1 % 65536 < s.slots d) && decide (e.2.st ≠ .free)))

/-- KEN_STAT.DRAIN (R325): a shrink is armed and not every block of its banks is FREE. -/
def State.drain_ (s : State) (d : Nat) : Bool :=
  decide (s.f F.PKG_SWAP.ARMED 0 [] = 1) && decide (s.f F.KEN_POOL.NBANK d [] < s.fa F.KEN_POOL.NBANK d []) && !s.drained d

/-- R324 and R325. -/
def State.poolOk (s : State) (d : Nat) : Bool :=
  let b := s.f F.KEN_POOL.BASE d []
  let n := s.f F.KEN_POOL.NBANK d []
  let b0 := s.fa F.KEN_POOL.BASE d []
  let n0 := s.fa F.KEN_POOL.NBANK d []
  let free (k : Nat) : Bool := decide (s.f F.SHM_OWN.OWNER d [k] = 15) && decide (s.f F.SHM_OWN.PEND d [k] = 0) &&
    decide (s.f F.SHM_PWR.PSTAT d [k] = 0) && decide (s.f F.SHM_TWIN.EN d [k] = 0)
  decide (b + n ≤ 64) && (decide (n0 = 0) || decide (b = b0)) &&
    ((List.range n).all (fun i => decide (i < n0) || free (b + i))) && s.drained d

/-- R329: no TARGET for the die itself or for an unpopulated die. -/
def State.loanOk (s : State) (d : Nat) : Bool :=
  (List.range 8).all (fun a => decide (s.f F.KEN_LOAN.TARGET d [a] = 0) || (decide (a ≠ d) && s.populated a))

/-- A takeover record names an engine as suspect. -/
def State.named (s : State) (d e : Nat) : Bool :=
  (List.range 16).any (fun i => decide (s.f F.DIE_TAKE.V d [i] = 1) && decide (s.f F.DIE_TAKE.SUSP d [i] = e))

/-- The shadow FLIST of an engine has an entry. -/
def State.shadowList (s : State) (d e : Nat) : Bool := (List.range 16).any (fun i => decide (s.f F.ENG_FLA.V d [e, i] = 1))

/-- The causes of R411 that fail, as DIE_SWAP shows them; CODE_LOAD runs to its end when processed, so CODE never fails. -/
def State.voteCauses (s : State) (d : Nat) (a : Arm) : List (Fld × Bool) :=
  [(F.DIE_SWAP.CRC, !a.rb && !((s.die d).crcDone && decide (s.reg .DIE_SWAPCRC d [] = a.crcs.getD d 0))),
   (F.DIE_SWAP.CODE, false),
   (F.DIE_SWAP.MAP, !s.mapOk d),
   (F.DIE_SWAP.PMSRC, !s.pmsrcOk d),
   (F.DIE_SWAP.POOL, !s.poolOk d || s.drain_ d),
   (F.DIE_SWAP.LOAN, !s.loanOk d),
   (F.DIE_SWAP.SUSP, (List.range 64).any (fun e => s.shadowList d e && decide (s.f F.ENG_STAT.SUSPECT d [e] = 1) && !s.named d e)),
   (F.DIE_SWAP.DIRTY, a.rb && decide (s.f F.DIE_SWAP.SHDIRTY d [] = 1)),
   (F.DIE_SWAP.PWR, (List.range 64).any (fun e => (s.shadowList d e || decide (s.f F.ENG_IDLE.EN d [e] = 1)) &&
      decide (s.f F.ENG_STAT.PWR d [e] = 0)))]

/-- Failed causes as a vote carries them, at their places in DIE_SWAP. -/
def causeMask (cs : List (Fld × Bool)) : BitVec 11 := cs.foldl (fun m (f, b) => if b then m ||| BitVec.twoPow 11 f.lo else m) 0

/-- SWAP_VOTE (R411): in frame T − 1 the die votes, in both directions to every die. -/
def execSwapVote (die : DieNo) (s : State) : Host.Outcome State Fault Refusal :=
  let d := die.val
  let x := s.die d
  match s.pkg.arm, x.armT with
  | some a, some t =>
    if s.live d = false ∨ x.phase ≠ .work ∨ (s.fn d + 1) % 281474976710656 ≠ t ∨ x.voted = true then .next s
    else
      let cs := s.voteCauses d a
      let ready := !cs.any Prod.snd
      let s1 := cs.foldl (fun u (f, b) => u.setF f d [] b.toNat) s
      let s2 := s1.setF F.DIE_SWAP.READY d [] ready.toNat
      let s3 := s2.setDie d { s2.die d with voted := true, votes := (s2.die d).votes ++ [(d, causeMask cs)] }
      .next (s3.spineFlood d (.vote (causeMask cs)))
  | _, _ => .next s

/-! ### The decision (R412 to R415) -/

/-- The decision of a master from the votes it holds (R412). -/
def State.decide_ (s : State) (d : Nat) : Decision :=
  let x := s.die d
  let need := (List.range 8).filter (fun i => s.populated i && !(s.reg .DIE_LOST d []).getLsbD i)
  let no := need.filter (fun i => x.votes.any (fun v => decide (v.1 = i ∧ v.2 ≠ 0)))
  let none_ := need.filter (fun i => !x.votes.any (fun v => decide (v.1 = i)))
  let mask (l : List Nat) : BitVec 8 := l.foldl (fun m i => m ||| BitVec.twoPow 8 i) 0
  let go := no.isEmpty && none_.isEmpty
  ⟨go, mask no, mask none_, if go then 1 else 2⟩

/-- A message to the neighbour in one direction (R412). -/
def State.sendNext (s : State) (d : Nat) (dir : Dir) (b : MsgBody) : State :=
  let peer := s.next d dir
  if s.live peer = false then s
  else
    let n := (s.die d).seqTx.get 0 peer
    let s1 := s.setDie d { s.die d with seqTx := (s.die d).seqTx.set 0 peer (n + 1) }
    s1.enqueueSeg d (if s1.segUp d dir then dir else dir.flip) false ⟨d, peer, n, b⟩

/-- The master's decision at its guard in frame T − 1 (R412). -/
def State.swapDecision (s : State) (d : Nat) : State :=
  let x := s.die d
  match x.armT with
  | none => s
  | some t =>
    if (s.fn d + 1) % 281474976710656 ≠ t ∨ s.f F.TCK_STAT.MASTER d [] ≠ d ∨ x.decision ≠ none then s
    else
      let c := s.decide_ d
      let s1 := s.setDie d { x with decision := some c }
      (s1.sendNext d .up (.decision c .up)).sendNext d .dn (.decision c .dn)

/-- SWAP_DECISION_RECEIVE (R412): the first copy is held and forwarded once, away from where it came. -/
def execSwapDecisionReceive (die : DieNo) (s : State) : Host.Outcome State Fault Refusal :=
  let d := die.val
  match takeMsg (fun b => match b with | .decision .. => true | _ => false) (s.die d).inbox with
  | some (⟨_, _, _, .decision c dir⟩, rest) =>
    if s.live d = false then .next s
    else
      let s1 := s.setDie d { s.die d with inbox := rest }
      if (s.die d).decision = none ∧ (s.die d).armT ≠ none then
        .next ((s1.setDie d { s1.die d with decision := some c }).sendNext d dir (.decision c dir))
      else .next s1
  | _ => .next s

/-! ### The exchange (R326, R334, R403, R413, R418) -/

/-- Unreserved LOANED blocks above a lowered TARGET become FREE (R334); of a credited account only when its die is lost, whose credits the swap
destroys (R335). -/
def State.trimLoans (s : State) (d : Nat) : State :=
  (List.range 80).foldl (fun t a =>
    if credited a && !(decide (a < 8) && (s.reg .DIE_LOST d []).getLsbD a) then t
    else (List.range (t.f F.KEN_LACT.LOANED d [a] - t.fa F.KEN_LOAN.TARGET d [a])).foldl (fun u _ =>
      match u.loanOf d a with
      | some h => u.toState d h .free
      | none => u) t) s

/-- The pool takes its new size (R326): `base` and `n0` are the active values before the exchange. -/
def State.resize (s : State) (d base n0 : Nat) : State :=
  let b := s.fa F.KEN_POOL.BASE d []
  let n := s.fa F.KEN_POOL.NBANK d []
  let s1 := (List.range n0).foldl (fun t i => if i < n then t else t.setF F.SHM_OWN.OWNER d [base + i] 15) s
  let s2 := (List.range n).foldl (fun t i => if i < n0 then t else t.setF F.SHM_OWN.OWNER d [b + i] 8) s1
  let old := s.f F.KEN_BLOCKS.BLOCKS d []
  let new := 8192 * n - 1
  let x := s2.die d
  let s3 := s2.setDie d { x with tally := x.tally.set 0 (x.tally.getD 0 0 + new - old) }
  (s3.setF F.KEN_BLOCKS.BLOCKS d [] new) |> fun t => if n = 0 then t else t.noteMin d

/-- Whether the swap applied now is the handover swap (R418). -/
def State.isHandover (s : State) : Bool := decide (s.pkgState = 2) && decide (s.f F.PKG_SWAP.HANDOVER 0 [] = 0)

/-- Exchange every banked item of one die (R403, R413); at the handover swap those of the Early engines wait (R418). -/
def State.exchange (s : State) (d : Nat) (handover : Bool) : State :=
  let keep (e : Nat) : Bool := handover && earlyEng d e
  let base := s.fa F.KEN_POOL.BASE d []
  let n0 := s.fa F.KEN_POOL.NBANK d []
  let fins := decide (s.reg .FIN_CFG d [] ≠ s.act .FIN_CFG d []) ||
    (List.range 64).any (fun n => decide (s.reg .FIN_NSLOT d [n] ≠ s.act .FIN_NSLOT d [n]))
  let s1 := (s.bankedLocs d).foldl (fun t (r, i) => match engineOf r i with
    | some e => if keep e then t else t.swapReg d r i
    | none => if r.pkgHeld then t else t.swapReg d r i) s
  let s2 := (List.range 64).foldl (fun t e => if keep e then t else t.updEng d e (fun x => { x with half := !x.half })) s1
  let s3 := { s2 with flA := takeDie 8192 d s2.flA s2.flS, flS := takeDie 8192 d s2.flS s2.flA,
                      qpA := takeDie 131072 d s2.qpA s2.qpS, qpS := takeDie 131072 d s2.qpS s2.qpA }
  let s4 := ((s3.resize d base n0).trimLoans d).refill d
  let s5 := s4.setF F.DIE_SWAP.SHDIRTY d [] 0
  if fins then s5.setDie d { s5.die d with ring := { (s5.die d).ring with tgen := (s5.die d).ring.tgen + 1 } } else s5

/-- The Early engines of die d exchange (R418). -/
def State.earlyExchange (s : State) (d : Nat) : State :=
  let t1 := (s.bankedLocs d).foldl (fun u (r, i) => match engineOf r i with
    | some e => if earlyEng d e then u.swapReg d r i else u
    | none => u) s
  let t2 := [56, 57, 58, 59].foldl (fun u e => u.updEng d e (fun x => { x with half := !x.half })) t1
  match s.pkg.early with
  | some e => { t2 with pkg := { t2.pkg with early := some { e with exchanged := d :: e.exchanged } } }
  | none => t2

/-- Ticks since the handover swap as die d counts them. -/
def State.handoverAge (s : State) (d : Nat) : Option Nat :=
  match s.pkg.early with
  | some e => some ((s.fn d + 281474976710656 - e.t) % 281474976710656)
  | none => none

/-- DELAY + XF (R418). -/
def State.xfLen (s : State) : Nat := s.f F.PKG_XF.DELAY 0 [] + s.f F.PKG_XF.FRAMES 0 []

/-- Tick T + DELAY + XF − 1 of die d has come, and its Early engines have not exchanged (R418). -/
def State.earlyDue (s : State) (d : Nat) : Bool :=
  match s.pkg.early, s.handoverAge d with
  | some e, some k => decide (d < 2) && s.live d && !e.exchanged.contains d && decide (s.xfLen ≤ k + 1 ∧ k < 140737488355328)
  | _, _ => false

/-- Tick T + DELAY + XF has come as die d counts it, and the handover has not ended (R418). -/
def State.endDue (s : State) (d : Nat) : Bool :=
  match s.handoverAge d with
  | some k => decide (s.xfLen ≤ k ∧ k < 140737488355328)
  | none => false

/-- HANDOVER_EARLY_EXCHANGE (R418): the tick T + DELAY + XF − 1 of each die makes it; here one that a tick has passed over (log entry 182). -/
def execHandoverEarlyExchange (s : State) : Host.Outcome State Fault Refusal :=
  .next ([0, 1].foldl (fun t d => if s.earlyDue d then t.earlyExchange d else t) s)

/-- PKG_STATE changes, with its event and EARLY_OK (R557, R558, R585). -/
def State.enterState (s : State) (n : Nat) : State :=
  let old := s.pkgState
  let s1 := (s.setF F.PKG_STATE.STATE 0 [] n).setF F.PKG_STATE.EARLYOK 0 [] (if n = 2 ∨ n = 3 ∨ n = 4 then 1 else 0)
  s1.event 0x300 255 7 [n, old]

/-- The handover ends (R418). -/
def State.handoverDone (s : State) : State :=
  let s1 := s.setF F.PKG_SWAP.HANDOVER 0 [] 0
  { s1 with pkg := { s1.pkg with early := none, earlyRegs := [] } }.enterState 3

/-- HANDOVER_END (R418): the tick T + DELAY + XF makes it; here one that a tick has passed over (log entry 182). -/
def execHandoverEnd (s : State) : Host.Outcome State Fault Refusal :=
  .next (if s.endDue (s.liveDies.headD 0) then s.handoverDone else s)

/-- The handover's steps that fall due at a tick of die d; the first tick of the round ends it. -/
def State.handoverTick (s : State) (d : Nat) (first : Bool) : State :=
  let s1 := if s.earlyDue d then s.earlyExchange d else s
  if first && s.endDue d then s1.handoverDone else s1

/-- The decision that a die applies at tick T (R413): held, or from its heel, else ABORT. -/
def State.heldDecision (s : State) (d : Nat) : Decision :=
  let x := s.die d
  match x.decision with
  | some c => c
  | none => match x.heel with
    | some h => h.decision.getD ⟨false, 0, 0, 2⟩
    | none => ⟨false, 0, 0, 2⟩

/-- The swap at cycles 0 to 255 of a die's tick (R413), and the bookkeeping of the package at the first tick of T. -/
def State.swapTick (s : State) (d : Nat) (lead : Bool) : State :=
  match (s.die d).armT with
  | none => s
  | some t =>
    if s.fn d ≠ t then s
    else
      let c := s.heldDecision d
      let hand := s.isHandover || (match s.pkg.early with | some e => decide (e.t = t) | none => false)
      let begin_ := c.go && s.isHandover && lead
      let s0 := if begin_ then
          let u := { s with pkg := { s.pkg with early := some ⟨t, (s.die d).msc, []⟩, earlyRegs := s.regs } }
          u.raise F.PKG_SWAP.HANDOVER 0 []
        else s
      let s1 := if c.go then s0.exchange d hand else s0
      let s2 := if c.go = true ∧ lead = true then s1.swapReg 0 .TCK_FRAME [] else s1
      let x := s2.die d
      let s3 := s2.setDie d { x with armT := none, decision := none, voted := false, votes := [], crcDone := false }
      if lead then
        let s4 := ((s3.setF F.PKG_SWAP.NOTRDY 0 [] c.notReady.toNat).setF F.PKG_SWAP.NOVOTE 0 [] c.noVote.toNat).setF F.PKG_SWAP.OUTCOME 0 [] c.outcome
        let s5 := (s4.setF F.PKG_SWAP.ARMED 0 [] 0).setF F.PKG_SWAP.RB 0 [] 0
        let s6 := s5.incF (if c.go then F.PKG_SWAPN.GOS else F.PKG_SWAPN.ABORTS) 0 []
        { s6 with pkg := { s6.pkg with arm := none } }
      else s3

/-- The completion of SWAP_ARM in the step at cycles 1,280 to 1,535 of tick T (R416). -/
def State.swapComplete (s : State) (t : Nat) : State :=
  let st : Status := if s.f F.PKG_SWAP.OUTCOME 0 [] = 1 then .done else .aborted
  s.finish (fun k => decide (k = .swap)) st (fun _ => s.f F.PKG_SWAP.NOTRDY 0 [] + 256 * s.f F.PKG_SWAP.NOVOTE 0 []) t

/-- Arm a swap (R407, R408). -/
def State.armSwap (s : State) (a : Arm) : State :=
  let s1 := (s.raise F.PKG_SWAP.ARMED 0 []).setF F.PKG_SWAP.RB 0 [] a.rb.toNat
  let s2 := (s1.setReg .PKG_SWAPT_LO 0 [] (BitVec.ofNat 32 a.t)).setF F.PKG_SWAPT_HI.T_HI 0 [] (a.t / 4294967296)
  let s3 := { s2 with pkg := { s2.pkg with arm := some a } }
  s3.liveDies.foldl (fun t d => t.setDie d { t.die d with armT := some a.t, voted := false, votes := [], decision := none, crcDone := false }) s3

/-- Disarm it (R410). -/
def State.disarm (s : State) : State :=
  let s1 := ((s.setF F.PKG_SWAP.ARMED 0 [] 0).setF F.PKG_SWAP.RB 0 [] 0).setF F.PKG_SWAP.OUTCOME 0 [] 3
  let s2 := { s1 with pkg := { s1.pkg with arm := none } }
  (List.range 8).foldl (fun t d => t.setDie d { t.die d with armT := none, voted := false, votes := [], decision := none, crcDone := false }) s2

end Sys2Proof.Machine
end

