-- ==== Sys2Proof/Machine/Test.lean ====
section
/-! DEFINITION. The report queue, the mailbox summary, and the TEST state (R540 to R555). -/

namespace Sys2Proof.Machine

/-! ### Mailboxes (R27, R544, R581) -/

/-- The PA of a mailbox word of FD0 or FD1. -/
def mboxPa (d w : Nat) : Nat := d * 8589934592 + 67108864 + w

/-- A write of the internal side. -/
def State.mboxWrite (s : State) (d w : Nat) (v : W18) : State := s.putMbox (mboxPa d w) (enc18 v)

def State.mboxRead (s : State) (d w : Nat) : W18 := data18 (s.word (mboxPa d w))

/-! ### Records (R540 to R545) -/

/-- A result record (R540). -/
structure Rec where
  kind : Nat
  line : Nat
  status : Nat
  mag : W18
  ph : W18
  dev : W18
  eol : W18
  time : W18
  deriving DecidableEq, Repr

/-- Record j of a block; TIME is bits [15:0] of its word. -/
def recOf (ws : List W18) (j : Nat) : Rec :=
  let w (i : Nat) : W18 := ws.getD (4 + 8 * j + i) 0
  ⟨(w 0).toNat / 16384, (w 0).toNat % 4096, (w 1).toNat / 16384, w 2, w 3, w 5, w 6, w 7 &&& 0xFFFF#18⟩

/-- A record with no reserved KIND or STATUS (R541). -/
def Rec.ok (r : Rec) : Bool := decide (1 ≤ r.kind ∧ r.kind ≤ 3) && decide (r.status ≤ 6)

/-- The LINE event of a record (R543). -/
def State.lineEvent (s : State) (d : Nat) (r : Rec) : State :=
  let dev := (BitVec.ofInt 16 (max (-32768) (min 32767 r.dev.toInt))).toNat
  s.event 0x200 d 5 [r.line, r.status * 16 + r.kind, r.mag.toNat, (BitVec.ofInt 32 r.ph.toInt).toNat, r.eol.toNat % 65536 * 65536 + dev]

/-- The nibble word of a line with its status. -/
def State.setNibble (s : State) (d : Nat) (r : Rec) : State :=
  let w := 0xC00 + r.line / 4
  let sh := 12 - 4 * (r.line % 4)
  let old := (s.mboxRead d w).toNat
  s.mboxWrite d w (BitVec.ofNat 18 (old - old / 2 ^ sh % 16 * 2 ^ sh + r.status * 2 ^ sh))

/-- Lines whose status is not OK. -/
def State.badLines (s : State) (d : Nat) : Nat :=
  (s.shm.filter (fun e => decide (mboxPa d 0xC00 ≤ e.1 ∧ e.1 < mboxPa d 0x1000))).foldl (fun n e =>
    n + ((List.range 4).filter (fun i => decide ((data18 e.2).toNat / 16 ^ i % 16 ≠ 0))).length) 0

/-- The records of one tick applied to the mailbox summary (R544, R545). -/
def State.summary (s : State) (d : Nat) (l : List Rec) : State :=
  match l.getLast? with
  | none => s
  | some r =>
    let s1 := l.foldl (fun t x => t.setNibble d x) s
    let s2 := (s1.mboxWrite d 0x800 (BitVec.ofNat 18 (s1.badLines d))).mboxWrite d 0x801 r.time
    (s2.mboxWrite d 0x802 (s2.mboxRead d 0x802)).mboxWrite d 0x803 (BitVec.ofNat 18 (s.fn d))

/-- One block of the report queue: its records (R541). -/
def State.reportBlock (s : State) (d g h : Nat) : State × List Rec :=
  let (_, _, bad) := s.blockView d h
  let (s1, ws, _) := s.portTake g h
  let n := blkCount ws
  if bad = true ∨ n % 8 ≠ 0 ∨ 120 < n then (s1.incF F.DIE_SUPQ.BAD d [], [])
  else
    let l := (List.range (n / 8)).map (recOf ws)
    (s1.addF F.DIE_SUPQ.BAD d [] (l.filter (fun r => !r.ok)).length, l.filter Rec.ok)

/-- The report queue of a die at the queue-commit step (R541, R542). -/
def State.reportTick (s : State) (d : Nat) : State :=
  let g := 131072 * d + s.fa F.DIE_SUPQ.Q d []
  let fed := match s.flowOf g with
    | some f => decide ((s.flow f).src = 0)
    | none => false
  if s.fa F.DIE_SUPQ.V d [] = 0 ∨ fed = false then s
  else
    let due := (s.que g).com.filter (fun e => !e.held && !e.gone)
    let (s0, l) := due.foldl (fun (p : State × List Rec) e => let q := p.1.reportBlock d g e.h.toNat; (q.1, p.2 ++ q.2)) (s, [])
    let s1 := s0.setQue g (s0.que g).viewed
    let s2 := l.foldl (fun t r => t.lineEvent d r) s1
    let s3 := if s.fa F.DIE_SUPQ.MBX d [] = 1 ∧ d < 2 then s2.summary d l else s2
    match s3.pkg.test with
    | some t => { s3 with pkg := { s3.pkg with test := some { t with sweepBad := t.sweepBad || (t.started && l.any (fun r => decide (r.kind ≠ 1 ∧ r.status ≠ 0))) } } }
    | none => s3

/-! ### Parts of TEST (R546 to R554) -/

/-- A part of the test mask runs. -/
def Test.has (t : Test) (i : Nat) : Bool := t.mask.testBit i

/-- The engines of a quire that SELFTEST takes (R550). -/
def State.selfCands (s : State) (d q : Nat) : List Nat :=
  ((List.range 8).map (fun i => 8 * q + i)).filter (fun e =>
    (decide (s.f F.ENG_CTL.SPARE d [e] = 1) && s.noList d e) || s.takenOver d e)

/-- An engine chosen as a spare whose takeover is not done. -/
def State.chosen (s : State) (d e : Nat) : Bool :=
  (List.range 16).any (fun i => decide (s.f F.DIE_TAKE.V d [i] = 1) && decide (s.f F.DIE_TAKE.DONE d [i] = 0) && decide (s.f F.DIE_TAKE.SPARE d [i] = e))

/-- A fault of a part of the test (bit i). -/
def State.testFault (s : State) (i : Nat) : State :=
  match s.pkg.test with
  | some t => { s with pkg := { s.pkg with test := some { t with fault := t.fault ||| 2 ^ i } } }
  | none => s

/-- The end of an engine's slot (R550, R551). -/
def State.selfEnd (s : State) (d e : Nat) (abandoned : Bool) : State :=
  let v := if abandoned then 4 else if s.f F.DIE_STRES.V d [e] = 1 then s.f F.DIE_STRES.VERDICT d [e] else 3
  let s1 := s.event 0x203 d 5 [globalEng d e, v, s.f F.DIE_STRES.DETAIL d [e]]
  let s2 := if v = 2 ∨ v = 3 ∨ s.f F.ENG_STAT.SUSPECT d [e] = 1 then s1.setF F.ENG_CTL.SPARE d [e] 0 else s1
  let s3 := s2.setDie d { s2.die d with selfSlot := (s2.die d).selfSlot.set none (e / 8) none, selfDone := e :: (s2.die d).selfDone }
  let s4 := if v = 2 ∨ v = 3 then s3.testFault 2 else s3
  if (s4.eng d e).run = .idle then s4.abort d e else s4

/-- SELFTEST_SLOT_END (R550): the tick after the 64th frame ends the slot; here a slot that it has passed over (log entry 182). -/
def execSelftestSlotEnd (die : DieNo) (e : EngNo) (s : State) : Host.Outcome State Fault Refusal :=
  let d := die.val
  match (s.die d).selfSlot.get none (e.val / 8) with
  | some (i, n) => if i ≠ e.val ∨ n < 65 ∨ s.live d = false then .next s else .next (s.selfEnd d e.val false)
  | none => .next s

/-- The next engine of a quire takes its slot: DIE_STRES is cleared and its idle folio may run (R550). -/
def State.selfOpen (s : State) (d q : Nat) : State :=
  match (s.selfCands d q).find? (fun e => !(s.die d).selfDone.contains e && !s.chosen d e) with
  | none => s
  | some e =>
    let s1 := (s.setReg .DIE_STRES d [e] 0).setDie d { s.die d with selfSlot := (s.die d).selfSlot.set none q (some (e, 1)) }
    (s1.updEng d e (fun x => { x with listDone := false, next := if s.takenOver d e then 16 else x.next })).setF F.ENG_FSTAT.SEQ d [e] 0

/-- The slots of one quire at a tick: one slot follows the other without a gap. -/
def State.selfQuire (s : State) (d q : Nat) : State :=
  match (s.die d).selfSlot.get none q with
  | some (e, n) =>
    if s.chosen d e then (s.selfEnd d e true).selfOpen d q
    else if 64 ≤ n then (s.selfEnd d e false).selfOpen d q
    else s.setDie d { s.die d with selfSlot := (s.die d).selfSlot.set none q (some (e, n + 1)) }
  | none => s.selfOpen d q

/-- The slot of a quire when TEST ends: one whose 64 frames are over ends as always; one that is cut short reports nothing, and a spare that has become
suspect or has written FAIL loses SPARE (R551; DESIGN CHOICE for the slot cut short, log entry 186). -/
def State.selfCut (s : State) (d q : Nat) : State :=
  match (s.die d).selfSlot.get none q with
  | none => s
  | some (e, n) =>
    if 64 ≤ n then s.selfEnd d e false
    else
      let s1 := (s.setDie d { s.die d with selfSlot := (s.die d).selfSlot.set none q none }).abort d e
      let fail := decide (s.f F.DIE_STRES.V d [e] = 1 ∧ s.f F.DIE_STRES.VERDICT d [e] = 2)
      if fail || decide (s.f F.ENG_STAT.SUSPECT d [e] = 1) then s1.setF F.ENG_CTL.SPARE d [e] 0 else s1

/-- The test messages of one die in a frame (R552). -/
def State.testSend (s : State) (d : Nat) : State :=
  (s.liveDies.filter (fun i => decide (i ≠ d))).foldl (fun t i =>
    [Dir.up, Dir.dn].foldl (fun u dir => if u.segUp d dir then u.enqueueSeg d dir false ⟨d, i, 0, .test⟩ else u.loseTest d dir) t) s

/-- The tally check against a copy with one count raised (R554): whether it finds the mismatch. -/
def State.tallyFinds (s : State) (d : Nat) : Bool :=
  decide ((s.die d).tally.foldl (fun a n => a + n) 0 + 1 ≠ s.f F.KEN_BLOCKS.BLOCKS d [])

/-- Frames of the parts of a test mask (R546): 4 s, and so on. -/
def State.sweepFrames (s : State) : Nat :=
  match s.fa F.TCK_FRAME.FPER 0 [] with | 0 => 16000 | 1 => 8000 | 2 => 4000 | _ => 2000

/-- TEST begins at its first tick (R546). -/
def State.testBegin (s : State) (t : Test) : State :=
  let s1 := { s with pkg := { s.pkg with test := some { t with started := true } } }
  let one (u : State) (d : Nat) : State :=
    let x := u.die d
    u.setDie d { x with lostUp := 0, lostDn := 0, selfSlot := [], selfDone := [], tallyRun := .none, testSeen := [], testErrs := 0, testPass := false,
                        ring := { x.ring with oneSided := [] } }
  s.liveDies.foldl one ((s1.enterState 4).event 0x201 255 5 [t.mask, (t.endFn % 4294967296)])

/-- TALLY at a die's first tick in TEST (R554): the check of the raised copy, and the audit that follows, from the next tick. -/
def State.tallyBegin (s : State) (d : Nat) : State :=
  match s.pkg.test with
  | none => s
  | some t =>
    if t.started = false ∨ t.begun.contains d = true then s
    else
      let s1 := { s with pkg := { s.pkg with test := some { t with begun := d :: t.begun } } }
      let x := s1.die d
      if t.has 5 = false ∨ x.audit.running = true ∨ x.audit.req = true then s1
      else
        let s2 := s1.setDie d { x with tallyRun := .audit, audit := { x.audit with req := true } }
        if s.tallyFinds d then s2 else s2.testFault 5

/-- One more frame of TEST. -/
def State.testFrame (s : State) (t : Test) : State :=
  let s1 := { s with pkg := { s.pkg with test := some { t with age := t.age + 1 } } }
  let s2 := if t.has 2 then s.liveDies.foldl (fun u d => (List.range 8).foldl (fun v q => v.selfQuire d q) u) s1 else s1
  if t.has 3 then s.liveDies.foldl (fun u d => u.testSend d) s2 else s2

/-- The parts completed at the end (R546, R549, R550, R554). -/
def State.testDone (s : State) (t : Test) : Nat :=
  let l := s.liveDies
  let ok (i : Nat) : Bool := t.has i && (match i with
    | 0 => decide (s.sweepFrames ≤ t.age)
    | 1 => l.all (fun d => (s.die d).testPass)
    | 2 => l.all (fun d => (List.range 8).all (fun q => ((s.die d).selfSlot.get none q).isNone &&
        (s.selfCands d q).all (fun e => (s.die d).selfDone.contains e)))
    | 3 => decide (1000 ≤ t.age)
    | 4 => decide (1000 ≤ t.age)
    | _ => l.all (fun d => (s.die d).tallyRun.ended))
  (List.range 6).foldl (fun m i => if ok i then m + 2 ^ i else m) 0

/-- The results of SPINE, RING and TALLY, and the faults of SWEEP and SCRUB (R549, R552 to R554). -/
def State.testResults (s : State) (t : Test) : State :=
  let l := s.liveDies
  let s0 := if t.has 0 && t.sweepBad then s.testFault 0 else s
  let s1 := if t.has 1 && l.any (fun d => decide ((s.die d).testErrs ≠ 0)) then s0.testFault 1 else s0
  let s3 := if t.has 3 then l.foldl (fun u d =>
      let x := u.die d
      let v := (u.event 0x204 d 5 [d, 0, x.lostUp]).event 0x204 d 5 [d, 1, x.lostDn]
      if x.lostUp + x.lostDn = 0 then v else v.testFault 3) s1 else s1
  let s4 := if t.has 4 then (l.filter (fun d => decide (s.f F.FIN_STAT.RUN d [] = 1))).foldl (fun u d =>
      ((List.range 64).filter (fun n => decide (u.fa F.FIN_NCFG.V d [n] = 1))).foldl (fun v n => [0, 1].foldl (fun w dir =>
        let c := (w.die d).ring.oneSided.get 0 (2 * n + dir)
        let w1 := w.event 0x205 d 5 [d, n, dir, c]
        if c = 0 then w1 else w1.testFault 4) v) u) s3 else s3
  if t.has 5 then
    let bad := (match s4.pkg.test with
      | some x => x.fault.testBit 5
      | none => false) || l.any (fun d => decide ((s4.die d).tallyRun = .failed))
    let s5 := s4.event 0x206 255 5 [(bad || !l.all (fun d => (s4.die d).tallyRun.ended)).toNat]
    if bad then s5.testFault 5 else s5
  else s4

/-- TEST ends at tick `fn` (R546, R547). -/
def State.testEnd (s : State) (t : Test) (fn : Nat) : State :=
  let s0 := s.liveDies.foldl (fun u d => (List.range 8).foldl (fun v q => v.selfCut d q) u) s
  let done := s0.testDone t
  let s1 := s0.testResults t
  let fault := match s1.pkg.test with
    | some x => x.fault
    | none => 0
  let st : Status := if t.abort then .aborted else .done
  let s2 := ({ s1 with pkg := { s1.pkg with test := none } }.enterState 3).event 0x202 255 5 [done, fault, st.code]
  let s3 := ((List.range 2).filter s2.live).foldl (fun u d => u.mboxWrite d 0x802 (BitVec.ofNat 18 fault)) s2
  s3.finish (fun k => decide (k = .test)) st (fun _ => done + fault * 65536) fn

/-- Whether TEST ends at the tick at which FN is `fn`. -/
def Test.ends (t : Test) (fn : Nat) : Bool := t.started && (t.abort || decide (fn = t.endFn))

/-- TEST_END (R546, R547): the tick of the end ends TEST; here a TEST whose last tick has passed without it (log entry 182). -/
def execTestEnd (s : State) : Host.Outcome State Fault Refusal :=
  match s.pkg.test with
  | some t =>
    let fn := s.fn (s.liveDies.headD 0)
    if t.started = true ∧ (fn + 281474976710656 - t.endFn) % 281474976710656 < 140737488355328 then .next (s.testEnd t fn) else .next s
  | none => .next s

/-- TEST at the first tick of a round, of die d. A trigger that comes between TEST_START and its tick ends TEST at that tick, before it has begun: nothing but
the completion is left of it (R547; DESIGN CHOICE, log entry 186). -/
def State.testTick (s : State) (d : Nat) : State :=
  match s.pkg.test with
  | none => s
  | some t =>
    let fn := s.fn d
    if t.started = false ∧ t.abort = true then
      State.finish { s with pkg := { s.pkg with test := none } } (fun k => decide (k = WaitKind.test)) .aborted (fun _ => 0) fn
    else if t.started = false then
      let s1 := s.testBegin t
      match s1.pkg.test with
      | some u => s1.testFrame u
      | none => s1
    else if t.ends fn then s.testEnd t fn
    else s.testFrame t

end Sys2Proof.Machine
end

