-- ==== Sys2Proof/Machine/Panel.lean ====
section
/-! DEFINITION. Panel ports, triggers and the message players of Early Service (R573 to R582). -/

namespace Sys2Proof.Machine

def State.panel (s : State) (k : Nat) : Panel := (s.die k).panel

def State.updPanel (s : State) (k : Nat) (f : Panel → Panel) : State := s.setDie k { s.die k with panel := f (s.die k).panel }

/-- The surviving dies have split into groups that cannot reach each other (R67). -/
def State.split (s : State) : Bool :=
  s.liveDies.any (fun a => s.liveDies.any (fun b => decide (a ≠ b) && s.cutOff a b))

/-- FAULT_N is low (R67, R391, R558). -/
def State.faultLow (s : State) : Bool :=
  decide (s.pkgState = 5) || s.liveDies.any (fun d => decide (s.f F.DIE_LOST.MASK d [] ≠ 0)) || s.split

/-- The status word (R576). -/
def State.panelStatus (s : State) (k : Nat) : W18 :=
  BitVec.ofNat 18 (s.pkgState * 32768 + (if s.f F.PKG_AUTH.OWNER 0 [] = 0 then 0 else 16384) + s.faultLow.toNat * 8192 +
    (s.panel k).lastErr.toNat * 4096 + s.f F.PNL_STAT.WDEXP k [] * 2048 + s.f F.PNL_STAT.IRQ k [] * 1024 + s.f F.PNL_STAT.TRIGCNT k [])

/-- PAR of a payload (R574). -/
def parOf (v : W18) : Nat :=
  (List.range 3).foldl (fun a j => a + ((List.range 6).foldl (fun x i => x + bitNat v (3 * i + j)) 0) % 2 * 2 ^ j) 0

/-- Transfer i with a payload, in either direction: SEQ, PAR and the payload (R574). -/
def packXfer (i : Nat) (v : W18) : BitVec 24 := BitVec.ofNat 3 i ++ BitVec.ofNat 3 (parOf v) ++ v

/-- Transfer i passes: SEQ and PAR are those of its payload (R574, R580). -/
def xferOk (i : Nat) (x : BitVec 24) : Bool := decide (x = packXfer i (x.setWidth 18))

/-- The payloads of MISO changed, transfer by transfer. -/
def mapMiso (f : Nat → W18 → W18) (l : List (BitVec 24)) : List (BitVec 24) := l.mapIdx (fun i x => packXfer i (f i (x.setWidth 18)))

/-- A frame fails (R580). -/
def State.panelErr (s : State) (k : Nat) : State :=
  let s1 := ((s.incF F.PNL_CNT.COUNT k [1]).raise F.PNL_EV.ERR k []).updPanel k (fun p => { p with lastErr := true })
  s1.event 0x305 255 7 [k, s1.f F.PNL_CNT.COUNT k [1]]

/-- The leading transfers that pass, and whether one fails. -/
def goodXfers : Nat → List (BitVec 24) → List W18 × Bool
  | _, [] => ([], false)
  | i, x :: l => if xferOk i x then let (r, bad) := goodXfers (i + 1) l; (x.setWidth 18 :: r, bad) else ([], true)

/-- The body of a frame of a command: what each transfer after the header does, and the words of MISO. -/
abbrev PanelBody := State → Nat → Nat → List W18 → State

/-- One frame on a panel port, from CS_N falling to rising (R573 to R581), whose header carries a command that `mine` admits. -/
def State.panelFrame (s : State) (k : Nat) (frame : List (BitVec 24)) (mine : Nat → Bool) (reply : Bool) (body : PanelBody) :
    Host.Outcome State Fault Refusal :=
  if s.panelOn k = false then .next s
  else
    let st := s.panelStatus k
    let s0 := s.incF F.PNL_CNT.COUNT k [0]
    match goodXfers 0 frame with
    | ([], _) => .next (if frame.isEmpty then s0 else
        (s0.panelErr k).updPanel k (fun p => { p with busy := false, hot := [], miso := frame.mapIdx (fun i _ => packXfer i st) }))
    | (h :: ws, bad) =>
      let cmd := h.toNat / 16384
      if mine cmd = false then .next s
      else
        let addr := h.toNat % 4096
        let miso := packXfer 0 st :: (List.range (frame.length - 1)).map (fun i =>
          packXfer (i + 1) (if reply && decide (i < ws.length) then s.mboxRead k ((addr + i) % 4096) else st))
        let wrong := decide (5 < cmd) || decide (h.toNat / 4096 % 4 ≠ 0)
        let s1 := (s0.updPanel k (fun p => { p with lastErr := false, full := false, busy := false, hot := [], miso := miso }))
        if wrong then .next (s1.panelErr k)
        else
          let s2 := body s1 k addr ws
          .next (if bad then s2.panelErr k else s2)

/-- PANEL_NOP (R575); a reserved command is discarded as R580 gives. -/
def execPanelNop (k : PortNo) (frame : List (BitVec 24)) (s : State) : Host.Outcome State Fault Refusal :=
  s.panelFrame k.val frame (fun c => decide (c = 0) || decide (5 < c)) false (fun t _ _ _ => t)

/-- PANEL_READ (R271, R272, R575): `clash` numbers the transfers whose word the internal side writes in the cycle of the read; what
they return is undefined. -/
def execPanelRead (k : PortNo) (frame : List (BitVec 24)) (clash : List Nat) (s : State) : Host.Outcome State Fault Refusal :=
  s.panelFrame k.val frame (fun c => decide (c = 1)) true (fun t k _ ws =>
    let hits := clash.filter (fun i => decide (1 ≤ i ∧ i ≤ ws.length))
    if hits.isEmpty then t
    else ((t.mboxClash k).useFree (ws.length + 1)).updPanel k (fun p =>
      { p with miso := mapMiso (fun i v => if hits.contains i then freeBits 18 (t.fresh + i) else v) p.miso }))

/-- The words of a WRITE (R271, R575). -/
def State.panelStore (s : State) (k addr : Nat) : List W18 → State
  | [] => s
  | w :: ws =>
    (if addr < 0x800 then s.setWord (mboxPa k addr) (enc18 w) else s.raise F.PNL_EV.WRPROT k []).panelStore k ((addr + 1) % 4096) ws

/-- PANEL_WRITE (R271, R272, R575): `clash` numbers the transfers whose word the internal side reads or writes in the cycle of the write. Its access is
the next one to the word: a read gives an undefined value and flags the conflict, and of two writes the later side's value remains. -/
def execPanelWrite (k : PortNo) (frame : List (BitVec 24)) (clash : List Nat) (s : State) : Host.Outcome State Fault Refusal :=
  s.panelFrame k.val frame (fun c => decide (c = 2)) false (fun t k a ws =>
    let u := t.panelStore k a ws
    let hits := (clash.filter (fun i => decide (1 ≤ i ∧ i ≤ ws.length))).map (fun i => (a + i - 1) % 4096)
    let hot := hits.filter (fun n => decide (n < 0x800))
    if hot.isEmpty then u else u.updPanel k (fun p => { p with hot := hot }))

/-- PANEL_KICK (R575, R579). -/
def execPanelKick (k : PortNo) (frame : List (BitVec 24)) (s : State) : Host.Outcome State Fault Refusal :=
  s.panelFrame k.val frame (fun c => decide (c = 4)) false (fun t k _ _ =>
    (t.setF F.PNL_STAT.WDEXP k [] 0).updPanel k (fun p => { p with sinceKick := 0, kicked := true }))

/-- PANEL_ACK (R575, R581). -/
def execPanelAck (k : PortNo) (frame : List (BitVec 24)) (s : State) : Host.Outcome State Fault Refusal :=
  s.panelFrame k.val frame (fun c => decide (c = 5)) false (fun t k _ _ => t.setF F.PNL_STAT.IRQ k [] 0)

/-! ### Triggers (R577, R578) -/

def Trig.act (t : Trig) : Nat := t.word.toNat / 32768
def Trig.src (t : Trig) : Nat := t.word.toNat / 512 % 64
def Trig.zone (t : Trig) : Nat := t.word.toNat / 8 % 64
def Trig.pri (t : Trig) : Nat := t.word.toNat % 8

/-- A trigger word with a good ACT and SRC (R577). -/
def Trig.ok (t : Trig) : Bool :=
  decide (1 ≤ t.act ∧ t.act ≤ 6) && (decide (3 < t.act) || decide (t.src < 16)) && (decide (t.act ≠ 4 ∧ t.act ≠ 5) || decide (t.src < 48))

/-- One trigger word (R577, R578). The event's P fields hold the 18-bit words zero-extended (DESIGN CHOICE, log entry 174). -/
def State.trigger (s : State) (k : Nat) (late : Bool) (w : W18) : State :=
  let t := Trig.mk k w (BitVec.ofNat 18 (s.fn k))
  if (s.panel k).full then s.incF F.PNL_CNT.COUNT k [3]
  else if t.ok = false then s.incF F.PNL_CNT.COUNT k [3]
  else if 16 ≤ (s.panel k).frame then
    ((s.incF F.PNL_CNT.COUNT k [3]).raise F.PNL_EV.TRIGFULL k []).updPanel k (fun p => { p with full := true })
  else
    let x := s.die k
    let due := x.ticks + (if late then 2 else 1)
    let s1 := s.setDie k { x with trigs := x.trigs ++ [(due, t)] }
    let s2 := (s1.incF F.PNL_CNT.COUNT k [2]).setF F.PNL_STAT.TRIGCNT k [] ((s.f F.PNL_STAT.TRIGCNT k [] + 1) % 256)
    let s3 := (s2.updPanel k (fun p => { p with frame := p.frame + 1 })).event 0x303 255 7 [k, w.toNat, t.fn.toNat]
    if s3.live (1 - k) then s3.spineSend k (1 - k) (.trigger due [t]) else s3

/-- The status words of the transfers after the one that carried word i show TRIGCNT as it is now (R576). -/
def State.showTrig (s : State) (k i : Nat) : State :=
  let n := s.f F.PNL_STAT.TRIGCNT k []
  s.updPanel k (fun p => { p with miso := mapMiso (fun j v => if i + 2 ≤ j then (v &&& 0x3FF00#18) ||| BitVec.ofNat 18 n else v) p.miso })

/-- A trigger command ends TEST (R547). -/
def State.testAbort (s : State) : State :=
  match s.pkg.test with
  | some t => { s with pkg := { s.pkg with test := some { t with abort := true } } }
  | none => s

/-- PANEL_TRIGGER (R577, R578): `late` says that the last bit is captured in the 256 cycles before the tick. -/
def execPanelTrigger (k : PortNo) (frame : List (BitVec 24)) (late : Bool) (s : State) : Host.Outcome State Fault Refusal :=
  s.panelFrame k.val frame (fun c => decide (c = 3)) false (fun t k _ ws => (ws.take 4).zipIdx.foldl (fun u (w, i) => (u.trigger k late w).showTrig k i) t.testAbort)

/-- A port that has received no KICK for WDT frames (R579). -/
def State.kickLapsed (s : State) (k : Nat) : Bool :=
  decide (s.f F.PNL_CTL.WDT k [] ≠ 0) && decide (s.f F.PNL_STAT.WDEXP k [] = 0) && decide (s.f F.PNL_CTL.WDT k [] ≤ (s.panel k).sinceKick)

def State.watchdog (s : State) (k : Nat) : State := ((s.raise F.PNL_STAT.WDEXP k []).raise F.PNL_EV.WDEXP k []).event 0x304 255 7 [k]

/-- PANEL_WATCHDOG_EXPIRE (R579): the tick that ends the WDT frames finds it; here a port that a tick has passed over, as where WDT was
made shorter since (log entry 182). -/
def execPanelWatchdogExpire (k : PortNo) (s : State) : Host.Outcome State Fault Refusal :=
  if s.live k.val = false ∨ s.kickLapsed k.val = false then .next s else .next (s.watchdog k.val)

/-! ### Trigger blocks at a tick (R578, R582) -/

/-- The words of a trigger block: a pair per trigger. -/
def trigBlock (tag fn : Nat) (l : List Trig) (chan flags : Nat) : List W18 :=
  mkBlock 0 (l.flatMap (fun t => [t.word, t.fn])) tag fn chan 0 flags 0

/-- Form a block and enqueue it to a queue of the die (R578). -/
def State.sendTrigs (s : State) (d q : Nat) (l : List Trig) (chan flags : Nat) : State :=
  let g := 131072 * d + q
  match s.pickFree d with
  | none => s.dropCount d 5
  | some h =>
    let tag := (s.flowOf g).getD 0
    let s1 := ((s.useFree 1).toState d h ⟨.tent, 0, false, 0, false, false, false⟩).writeBlk d h (trigBlock tag (s.fn d) l chan flags)
    if s1.queOpen g then s1.pend d g h else (s1.dropCount d 2).freeBlk d h

/-- The trigger queues of a die: the full map's, and the early map's during the handover (R582). -/
def State.trigQueues (s : State) (d : Nat) : List Nat :=
  let q (m : Store W32) : List Nat :=
    let v := m.get 0 (RegName.addr .PNL_TQ d [] + 0x8000)
    if v.getLsbD 31 then [field v 16 0] else []
  if s.pkg.early.isSome then (q s.pkg.earlyRegs ++ q s.regs).eraseDups else q s.regs

/-- The triggers of a die at the queue-commit step (R578, R582). `first` says that the handover swap is applied at this tick. While the other die is lost,
only the words of the die's own port are placed. -/
def State.triggerTick (s : State) (d : Nat) (first : Bool) : State :=
  let x := s.die d
  let here := (x.trigs.filter (fun t => decide (t.1 ≤ x.ticks) && (decide (t.2.port = d) || !s.lost (1 - d)))).map Prod.snd
  let l := here.filter (fun t => decide (t.port = 0)) ++ here.filter (fun t => decide (t.port = 1))
  let s1 := s.setDie d { x with trigs := x.trigs.filter (fun t => decide (x.ticks < t.1)), panel := { x.panel with frame := 0 } }
  let s2 := if first ∧ s.fa F.PNL_TQ.V d [] = 1 then
      s1.sendTrigs d (s.fa F.PNL_TQ.Q d []) x.hist 62 (if x.histMore then 4 else 0) else s1
  let s3 := (s.trigQueues d).foldl (fun t q => t.sendTrigs d q l (l.filter (fun t => decide (t.port = 0))).length 0) s2
  let early := decide (s.pkgState = 2)
  let hist := x.hist ++ l
  s3.setDie d { s3.die d with acts := if early then (s3.die d).acts ++ l else (s3.die d).acts
                              hist := if early then hist.drop (hist.length - 62) else x.hist
                              histMore := x.histMore || (early && decide (62 < hist.length)) }

/-! ### Early Service (R571, R577) -/

/-- The zones that a ZONE field names. -/
def zonesOf (z : Nat) : List Nat := if z = 63 then List.range 63 else [z]

/-- START and LOOP (R577). -/
def Die.play (x : Die) (m : Nat) (zs : List Nat) (p : Nat) (loop : Bool) : Die :=
  let y := x.players.get {} m
  let kept := y.zones.filter (fun e => !zs.contains e.1)
  { x with players := x.players.set {} m { zones := kept ++ zs.map (fun z => (z, p)), pos := if y.zones.isEmpty then 0 else y.pos, loop := loop } }

/-- STOP. -/
def Die.stopMsg (x : Die) (m : Nat) (zs : List Nat) : Die :=
  let y := x.players.get {} m
  let kept := y.zones.filter (fun e => !zs.contains e.1)
  { x with players := x.players.set {} m (if kept.isEmpty then {} else { y with zones := kept }) }

/-- LIVE ON and LIVE OFF. -/
def Die.setLive (x : Die) (i : Nat) (zs : List Nat) (p : Option Nat) : Die :=
  let kept := x.live.filter (fun e => !(decide (e.1 = i) && zs.contains e.2.1))
  { x with live := match p with
      | some v => kept ++ zs.map (fun z => (i, z, v))
      | none => kept }

/-- Early Service acts on one trigger of its block (R577). -/
def Die.apply (x : Die) (t : Trig) : Die :=
  let zs := zonesOf t.zone
  match t.act with
  | 1 => x.play t.src zs t.pri false
  | 2 => x.play t.src zs t.pri true
  | 3 => x.stopMsg t.src zs
  | 4 => x.setLive t.src zs (some t.pri)
  | 5 => x.setLive t.src zs none
  | _ => { x with players := [], live := [] }

/-- A trigger that the Early engines of a die read in this frame: `word` is its pair, word and FN. -/
def State.earlyTrigger (s : State) (d k act : Nat) (word : W36) : Host.Outcome State Fault Refusal :=
  let t := Trig.mk k (word.setWidth 18) ((word >>> 18).setWidth 18)
  if s.live d = false ∨ t.act ≠ act ∨ (s.die d).acts.contains t = false then .next s
  else .next (s.setDie d (({ s.die d with acts := (s.die d).acts.erase t }).apply t))

/-- TRIGGER_START (R577). -/
def execTriggerStart (die : DieNo) (k : PortNo) (word : W36) (s : State) : Host.Outcome State Fault Refusal := s.earlyTrigger die.val k.val 1 word
/-- TRIGGER_LOOP (R577). -/
def execTriggerLoop (die : DieNo) (k : PortNo) (word : W36) (s : State) : Host.Outcome State Fault Refusal := s.earlyTrigger die.val k.val 2 word
/-- TRIGGER_STOP (R577). -/
def execTriggerStop (die : DieNo) (k : PortNo) (word : W36) (s : State) : Host.Outcome State Fault Refusal := s.earlyTrigger die.val k.val 3 word
/-- TRIGGER_LIVE_ON (R577). -/
def execTriggerLiveOn (die : DieNo) (k : PortNo) (word : W36) (s : State) : Host.Outcome State Fault Refusal := s.earlyTrigger die.val k.val 4 word
/-- TRIGGER_LIVE_OFF (R577). -/
def execTriggerLiveOff (die : DieNo) (k : PortNo) (word : W36) (s : State) : Host.Outcome State Fault Refusal := s.earlyTrigger die.val k.val 5 word
/-- TRIGGER_STOP_ALL (R577). -/
def execTriggerStopAll (die : DieNo) (k : PortNo) (word : W36) (s : State) : Host.Outcome State Fault Refusal := s.earlyTrigger die.val k.val 6 word

/-- The length of a message in samples (R571). -/
def State.msgLen (s : State) (d m : Nat) : Nat :=
  let w (i : Nat) : Nat := (data18 (s.word (bankPa d 46 (0x19000 + 4 * m + i)))).toNat
  w 1 * 262144 + w 2

/-- The players move on by one frame at 24 kHz (R569, R577). -/
def State.playersTick (s : State) (d : Nat) : State :=
  let n := match s.fa F.TCK_FRAME.FPER 0 [] with | 0 => 6 | 1 => 12 | 2 => 24 | _ => 48
  let x := s.die d
  let move (p : Nat × Player) : Option (Nat × Player) :=
    let len := s.msgLen d p.1
    let at_ := p.2.pos + n
    if at_ < len then some (p.1, { p.2 with pos := at_ })
    else if p.2.loop = true ∧ len ≠ 0 then some (p.1, { p.2 with pos := at_ % len }) else none
  s.setDie d { x with players := x.players.filterMap move }

/-- A panel port at a tick (R579). -/
def State.panelTick (s : State) (k : Nat) : State :=
  let s1 := s.updPanel k (fun p => { p with sinceKick := if p.kicked then 0 else p.sinceKick + 1, kicked := false })
  if s1.kickLapsed k then s1.watchdog k else s1

end Sys2Proof.Machine
end

