-- ==== Sys2Proof/Machine/Early.lean ====
section
/-! DEFINITION. The matrix of Early Service (R569, R571, R572): which inputs an output carries, their sum, and the crossfade. -/

namespace Sys2Proof.Machine

/-- A word of the Early tables of a die (R571). -/
def State.earlyWord (s : State) (d w : Nat) : Nat := (data18 (s.word (bankPa d 46 w))).toNat

/-- The activations of inputs on a die: input, zone (63 for every zone) and priority (R571, R577). Message m is input 48 + m. -/
def State.activations (s : State) (d : Nat) : List (Nat × Nat × Nat) :=
  let x := s.die d
  (List.range 48).filterMap (fun i =>
      let w := s.earlyWord d (0x10000 + 4 * i + 2)
      if w / 8 % 2 = 1 then some (i, 63, w % 8) else none) ++
    x.live ++ x.players.flatMap (fun p => p.2.zones.map (fun z => (48 + p.1, z.1, z.2)))

/-- The gain value of an input to an output; FFh is off (R571). -/
def State.earlyGain (s : State) (d i o : Nat) : Nat := s.earlyWord d (0x11000 + 512 * i + o) % 256

/-- The inputs that output o carries: those with a gain that are active in its zone at the highest priority present among such inputs (R572). -/
def State.carried (s : State) (d o : Nat) (acts : List (Nat × Nat × Nat)) : List Nat :=
  let z := s.earlyWord d (0x10100 + o) % 64
  if z = 63 then []
  else
    let l := acts.filter (fun a => decide (a.2.1 = z ∨ a.2.1 = 63) && decide (s.earlyGain d a.1 o ≠ 255))
    let top : Nat := l.foldl (fun m a => max m a.2.2) 0
    ((l.filter (fun (a : Nat × Nat × Nat) => decide (a.2.2 = top))).map Prod.fst).eraseDups

/-- Samples at the media rate for one at 24 kHz (R569). -/
def State.ratio24 (s : State) : Nat := s.rate / 24000

/-- The samples of one channel of a flow that the frame reads, as v × 2^32 of R321: those of the blocks at the head of its queue (R94, R569, R571). -/
def State.flowSamples (s : State) (flow chan : Nat) : List Int :=
  let p := s.flow flow
  if p.isOpen = false ∨ p.nchan ≤ chan then []
  else
    let q := s.que (131072 * (flow / 8192) + p.qbase + chan)
    ((q.com.filter (fun e => !e.held && !e.gone)).take (segsOf (s.fPrime p))).flatMap (fun e =>
      let (ws, _, _) := s.blockView (flow / 8192) e.h.toNat
      (List.range (min (blkCount ws) 124)).map (fun i => valueV (ws.getD (4 + i) 0) (blkE ws)))

/-- The flow and the channel of a row of the Input table (from word 1_0000h) or of the Output table (from 1_0300h) (R571). -/
def State.earlyRow (s : State) (d base i : Nat) : Nat × Nat := (s.earlyWord d (base + 4 * i) % 65536, s.earlyWord d (base + 4 * i + 1) % 64)

/-- The live inputs at the end of a tick: what they had becomes past, and the blocks that have joined their queues are the frame's (R569). -/
def State.inputsTick (s : State) (d : Nat) : State :=
  let x := s.die d
  let past := (List.range 48).foldl (fun m i =>
    let l := x.inPast.get [] i ++ x.inNow.get [] i
    m.set [] i (l.drop (l.length - 96))) x.inPast
  let now := (List.range 48).foldl (fun m i =>
    let r := s.earlyRow d 0x10000 i
    m.set [] i (s.flowSamples r.1 r.2)) x.inNow
  s.setDie d { x with inPast := past, inNow := now }

/-- Sample j of the frame of input i: of a live input, its flow's samples decimated (R569, R571); of a message, its sample (R571, R577), and of one that has
stopped, a free value. `fr` numbers the free values of the frame. -/
def State.inputAt (s : State) (d fr i j : Nat) : Int :=
  let x := s.die d
  let p := x.players.get {} (i - 48)
  if i < 48 then (Config.decimate s.ratio24 (x.inPast.get [] i ++ x.inNow.get [] i) j).toInt
  else if p.zones = [] then (freeBits 18 (fr + 64 * j + i)).toInt
  else
    let m := i - 48
    let len := s.msgLen d m
    let at_ := if p.loop ∧ len ≠ 0 then (p.pos + j) % len else p.pos + j
    if len ≤ at_ then 0 else (data18 (s.word (bankPa d 47 (64 * s.earlyWord d (0x19000 + 4 * m) + at_)))).toInt

/-- The greatest integer not above n × 10^(−v / 40), which is a gain of −0.5 × v dB (R571): its 40th power times 10^v is not above that of n. -/
def gainFloor (v n : Nat) : Nat :=
  (List.range 18).foldl (fun m i => let k := m + 2 ^ (17 - i); if k ^ 40 * 10 ^ v ≤ n ^ 40 then k else m) 0

/-- A sample times a gain value (R571, R572); how a product that is no integer is rounded, to one of its neighbours, is not stated. -/
def gainTimes (v : Nat) (x : Int) : Int :=
  let m := gainFloor v x.natAbs
  let exact := decide (m ^ 40 * 10 ^ v = x.natAbs ^ 40)
  let mag : Int := if exact then m else if Config.earlyUp (BitVec.ofNat 8 v) x = decide (0 ≤ x) then m + 1 else m
  if x < 0 then -mag else mag

/-- The sum of a set of inputs at an output, saturated to 18 bits (R572). -/
def State.earlySum (s : State) (d fr o j : Nat) (l : List Nat) : Int :=
  sat18 (l.foldl (fun a i => a + gainTimes (s.earlyGain d i o) (s.inputAt d fr i j)) 0)

/-- One output over the `n` samples of a frame (R572): a change of its inputs starts a linear crossfade over 240 samples from the sum before. The
rounding of a crossfaded sample is free between the two nearest integers (log entry 156). -/
def State.mixOne (s : State) (d fr n o : Nat) (l : List Nat) (m : MixOut) : MixOut :=
  let m1 : MixOut := if l = m.now then m else { m with now := l, was := m.now, pos := 0 }
  let sample (j : Nat) : W18 :=
    let k := min 240 (m1.pos + j + 1)
    let new := s.earlySum d fr o j m1.now
    if 240 ≤ k then BitVec.ofInt 18 new
    else
      let v := s.earlySum d fr o j m1.was * (240 - (k : Int)) + new * k
      let up := if v % 240 = 0 then 0 else freeNat 2 (fr + 16384 + 64 * o + j)
      BitVec.ofInt 18 (v.fdiv 240 + up)
  let row := s.earlyRow d 0x10300 o
  let sent := (List.range n).map sample
  let all := m1.past ++ sent
  { m1 with pos := min 240 (m1.pos + n), sent := sent, flow := row.1, chan := row.2, past := all.drop (all.length - 24)
            media := (List.range (n * s.ratio24)).map (Config.interpolate s.ratio24 all) }

/-- The matrix of a die over the frame that ends (R569, R572): outputs that carry nothing and fade nothing stay silent. Each output's frame at the media rate is
for the flow and the channel of its row; the block that carries it leaves by the ENQ of the Early engines' code. -/
def State.mixTick (s : State) (d : Nat) : State :=
  let n := match s.fa F.TCK_FRAME.FPER 0 [] with | 0 => 6 | 1 => 12 | 2 => 24 | _ => 48
  let acts := s.activations d
  let x := s.die d
  if acts = [] ∧ x.mix = [] then s
  else
    let one (m : Store MixOut) (o : Nat) : Store MixOut :=
      let l := s.carried d o acts
      let old := x.mix.get {} o
      if l = [] ∧ old.now = [] ∧ 240 ≤ old.pos then m.set {} o {} else m.set {} o (s.mixOne d s.fresh n o l old)
    (s.setDie d { x with mix := (List.range 512).foldl one x.mix }).useFree 65536

end Sys2Proof.Machine
end

