-- ==== Sys2Proof/Machine/Link.lean ====
section
/-! DEFINITION. Link ports in Ethernet mode: lanes, the stream table, streams, PTP, MACsec and the slow path (R466 to R484), with
both port maps during the handover (R419, R420). -/

namespace Sys2Proof.Machine

def State.link (s : State) (d k : Nat) : Link := (s.die d).links.get {} k

def State.updLink (s : State) (d k : Nat) (f : Link → Link) : State :=
  s.setDie d { s.die d with links := (s.die d).links.set {} k (f (s.link d k)) }

/-- Raise an event bit of a link port, and its event (R508). -/
def State.lnkEvent (s : State) (x : Fld) (code d k : Nat) (ps : List Nat) : State :=
  (s.raise x d [k]).event code d 4 ((2 * d + k) :: ps)

/-- LNK_CNT[c] (R509). -/
def State.lnkCount (s : State) (d k c n : Nat) : State := s.addF F.LNK_CNT.COUNT d [k, c] n

def State.linkUp (s : State) (d k : Nat) : Bool := decide (s.f F.LNK_STAT.UP d [k] = 1)

/-- The lane runs: EN = 1, or EN was cleared in this frame (R467). -/
def State.laneOn (s : State) (d k : Nat) : Bool := decide (s.f F.LNK_CTL.EN d [k] = 1) || (s.link d k).stopping

/-- The port runs as an ETH port (R466). -/
def State.isEth (s : State) (d k : Nat) : Bool := s.laneOn d k && decide (s.f F.LNK_CTL.MODE d [k] = 0)

/-! ### Port maps (R419, R475, R477) -/

/-- An active entry of the stream table with V = 1 (R475). -/
structure Entry where
  s : Nat
  addr : W32
  udp : Nat
  tx : Bool
  p7 : Bool
  fid : Nat
  ch0 : Nat
  ptime : Nat
  sfmt : Nat
  vidx : Nat
  deriving DecidableEq, Repr

/-- The maps that apply: the full one, and the early one during the handover. -/
def State.maps (s : State) : List Bool := if s.pkg.early.isSome then [true, false] else [false]

/-- The entries of a port's stream table in a map, in ascending order; an unlisted entry has V = 0. -/
def State.entries (s : State) (early : Bool) (d k : Nat) : List Entry :=
  let m := s.mapRegs early
  let base := RegName.addr .LNK_SB d [k, 0] + 0x8000
  m.filterMap (fun (a, b) =>
    if base ≤ a ∧ a < base + 12288 ∧ (a - base) % 12 = 0 ∧ b.getLsbD 15 = true then
      let i := (a - base) / 12
      let c := mapAct m .LNK_SC d [k, i]
      some ⟨i, mapAct m .LNK_SA d [k, i], field b 31 16, b.getLsbD 14, b.getLsbD 13, field b 12 0, field c 31 26, field c 25 24,
        field c 23 22, field c 19 17⟩
    else none)

/-- P in samples (R475). -/
def State.packetLen (s : State) (ptime : Nat) : Nat :=
  if ptime = 0 then s.rate / 8000 else if ptime = 1 then s.rate / 4000 else s.rate / 1000

/-- The other leg of an ST 2022-7 pair (R476). -/
def State.pairOf (s : State) (early : Bool) (d k : Nat) (e : Entry) : Option Entry :=
  if e.p7 then (s.entries early d (1 - k)).find? (fun x => x.p7 && !x.tx && decide (x.addr = e.addr ∧ x.udp = e.udp ∧ x.fid = e.fid ∧ x.ch0 = e.ch0))
  else none

/-- A receive entry that feeds its flow (R473, R475); either leg of a pair may be the flow's source. -/
def State.rxOk (s : State) (early : Bool) (d k : Nat) (e : Entry) : Bool :=
  let fmt := (s.flow (8192 * d + e.fid)).fmt
  (s.ingressOk d e.fid 1 (1024 * k + e.s) || (match s.pairOf early d k e with
    | some x => s.ingressOk d e.fid 1 (1024 * (1 - k) + x.s)
    | none => false)) && decide (fmt < 2) && decide (e.ptime < 3)

/-- The entries of one transmit stream that name a good flow (R473, R477). -/
def State.txStream (s : State) (early : Bool) (d k : Nat) (addr : W32) (udp : Nat) : List Entry :=
  (s.entries early d k).filter (fun e => e.tx && decide (e.addr = addr ∧ e.udp = udp) && s.egressOk d e.fid)

/-- Channels of an entry. -/
def State.entCh (s : State) (d : Nat) (e : Entry) : Nat := (s.flow (8192 * d + e.fid)).nchan

/-- What R477 asks of a stream. -/
def State.txOk (s : State) (d : Nat) (l : List Entry) : Bool :=
  match l with
  | [] => false
  | e :: _ =>
    let n := l.foldl (fun a x => a + s.entCh d x) 0
    let top := l.foldl (fun a x => max a (x.ch0 + s.entCh d x)) 0
    decide (224 ≤ e.addr.toNat / 16777216 ∧ e.addr.toNat / 16777216 < 240) &&
    l.all (fun x => decide (x.ptime = e.ptime ∧ x.sfmt = e.sfmt ∧ x.vidx = e.vidx)) && decide (e.ptime < 3) && decide (e.sfmt < 2) &&
    (List.range top).all (fun c => l.any (fun x => decide (x.ch0 ≤ c ∧ c < x.ch0 + s.entCh d x))) &&
    decide (n = top) && decide (n ≤ 64) && decide (n * s.packetLen e.ptime * (2 + e.sfmt) ≤ 1440)

/-- The transmit streams of a map that send, each as its entries in ascending order. -/
def State.txStreams (s : State) (early : Bool) (d k : Nat) : List (List Entry) :=
  let keys := (((s.entries early d k).filter Entry.tx).map (fun e => (e.addr, e.udp))).eraseDups
  (keys.map (fun (a, u) => s.txStream early d k a u)).filter (s.txOk d)

/-- The entries of the full map with MAPBAD (R473, R477). -/
def State.badEntries (s : State) (d k : Nat) : List Nat :=
  let l := s.entries false d k
  let good := (s.txStreams false d k).flatten
  (l.filter (fun e => if e.tx then !good.contains e else !s.rxOk false d k e)).map Entry.s

/-! ### Values sent (R321, R420) -/

/-- Where an egress index lies in the handover (R420): the early output alone, both with g = n / (XF × F), or the full one alone. -/
inductive Mix where
  | early
  | both (n den : Nat)
  | full
  deriving DecidableEq, Repr

def State.mixAt (s : State) (idx : Nat) : Mix :=
  match s.pkg.early with
  | none => .full
  | some e =>
    let f := s.perFrame
    let q := (idx - e.msc) / f
    let dl := s.f F.PKG_XF.DELAY 0 []
    let xf := s.f F.PKG_XF.FRAMES 0 []
    if idx < e.msc ∨ q < dl then .early
    else if q < dl + xf then .both ((q - dl) * f + (idx - e.msc) % f + 1) (xf * f)
    else .full

/-- The mixed value. -/
def Mix.value (m : Mix) (a b : Int) : Int :=
  match m with
  | .early => a
  | .both n den => (a * ((den : Int) - (n : Int)) + b * (n : Int)).fdiv den
  | .full => b

/-- The v × 2^32 that a channel sends at an index, from its source in the early and in the full map (R420). -/
def State.sendAt (s : State) (d : Nat) (early full : Option (Nat × Nat)) (idx : Nat) : Int :=
  let val (o : Option (Nat × Nat)) : Int := match o with
    | some (fid, c) => s.outAt d fid idx c
    | none => 0
  (s.mixAt idx).value (val early) (val full)

/-- The flow that clamping is counted in. -/
def sourceFlow (early full : Option (Nat × Nat)) : Option Nat := (full <|> early).map Prod.fst

/-! ### MACsec (R481, R482) -/

/-- A key slot holds a key of a type (R583). -/
def State.keyType (s : State) (d slot ty : Nat) : Bool := decide (s.f F.SEC_SLOT.V d [slot] = 1) && decide (s.f F.SEC_SLOT.TYPE d [slot] = ty)

/-- The last PN, and the PN that sets PNWRAP (R482). -/
def lastPn (xpn : Bool) : Nat := if xpn then 2 ^ 64 - 1 else 2 ^ 32 - 1
def wrapPn (xpn : Bool) : Nat := if xpn then 2 ^ 64 - 2 ^ 32 else 2 ^ 32 - 2 ^ 24

/-- LNK_MSPN shows the next PN, or its high half. -/
def State.showPn (s : State) (d k : Nat) : State :=
  let n := (s.link d k).txPn
  s.setReg .LNK_MSPN d [k] (BitVec.ofNat 32 (if s.f F.LNK_MSCTL.XPN d [k] = 1 then n / 4294967296 else n))

/-- The port's MAC address (R509). -/
def State.macOf (s : State) (d k : Nat) : Nat := s.f F.LNK_MACHI.MAC_HI d [k] * 4294967296 + s.f F.LNK_MACLO.MAC_LO d [k]

/-- Protect one frame (R481, R482): `none` when it is not sent, else its SecTAG where it is protected. The SCI is the port's MAC address with port
identifier 0001h. -/
def State.protect (s : State) (d k : Nat) (eapol : Bool) : State × Option (Option SecOut) :=
  if s.f F.LNK_MSCTL.EN d [k] = 0 ∨ eapol = true then (s, some none)
  else
    let l := s.link d k
    let xpn := decide (s.f F.LNK_MSCTL.XPN d [k] = 1)
    if s.keyType d l.sa.key 1 = false ∨ (xpn && !s.keyType d l.sa.salt 2) = true ∨ lastPn xpn ≤ l.txPn then (s.lnkCount d k 6 1, none)
    else
      let s1 := (s.updLink d k (fun x => { x with txPn := x.txPn + 1 })).showPn d k
      (if l.txPn + 1 = wrapPn xpn then s1.lnkEvent F.LNK_EV.PNWRAP 0x105 d k [] else s1,
        some (some ⟨BitVec.ofNat 64 (s.macOf d k * 65536 + 1), l.sa.an, l.txPn⟩))

/-- The low n bytes of a number, most significant first. -/
def beBytes (n x : Nat) : List Byte := (List.range n).map (fun i => BitVec.ofNat 8 (x / 256 ^ (n - 1 - i)))

/-- A sum of 16-bit words, most significant byte first, the last padded with 0. -/
def sum16 : List Byte → Nat
  | [] => 0
  | [a] => 256 * a.toNat
  | a :: b :: l => 256 * a.toNat + b.toNat + sum16 l

/-- The complement of the ones' complement sum of 16-bit words (RFC 768, RFC 791). -/
def onesSum (l : List Byte) : Nat :=
  let n := sum16 l
  65535 - (if n = 0 then 0 else (n - 1) % 65535 + 1)

/-- One bit of the CRC-32 of IEEE 802.3, reflected. -/
def fcsBit (c : W32) : W32 := if c.getLsbD 0 then (c >>> 1) ^^^ 0xEDB88320#32 else c >>> 1

/-- The FCS of a frame (R474; IEEE 802.3), least significant byte first. -/
def fcsOf (l : List Byte) : List Byte :=
  let c := l.foldl (fun c b => (List.range 8).foldl (fun c _ => fcsBit c) (c ^^^ b.setWidth 32)) 0xFFFFFFFF#32
  (beBytes 4 (~~~c).toNat).reverse

/-- A stream packet as an Ethernet frame without FCS (R477). -/
def RtpOut.bytes (p : RtpOut) : List Byte :=
  let rtp := beBytes 1 (p.version * 64) ++ beBytes 1 (p.marker.toNat * 128 + p.pt) ++ beBytes 2 p.seq ++ beBytes 4 p.ts.toNat ++ beBytes 4 p.ssrc.toNat ++ p.payload
  let udp := beBytes 2 p.srcPort ++ beBytes 2 p.dstPort ++ beBytes 2 (rtp.length + 8) ++ beBytes 2 p.udpSum ++ rtp
  let ip (sum : Nat) : List Byte := beBytes 1 0x45 ++ beBytes 1 (p.dscp * 4) ++ beBytes 2 (udp.length + 20) ++ beBytes 2 p.ident.toNat ++
    beBytes 2 (p.df.toNat * 16384) ++ beBytes 1 p.ttl ++ beBytes 1 17 ++ beBytes 2 sum ++ beBytes 4 p.srcIp.toNat ++ beBytes 4 p.dstIp.toNat
  beBytes 6 p.dstMac.toNat ++ beBytes 6 p.srcMac.toNat ++
    (match p.tag with
     | some (pcp, vid) => beBytes 2 0x8100 ++ beBytes 2 (pcp * 8192 + vid)
     | none => []) ++ beBytes 2 0x0800 ++ ip (onesSum (ip 0)) ++ udp

/-- The messageType of IEEE 1588-2019. -/
def PtpKind.code : PtpKind → Nat
  | .sync => 0 | .delayReq => 1 | .pdelayReq => 2 | .pdelayResp => 3 | .followUp => 8 | .delayResp => 9 | .pdelayRespFollowUp => 10 | .other => 11

/-- A message as an Ethernet frame without FCS. A slow-path packet is one as it stands (R484). -/
def LinkMsg.bytes (prof : Nat) : LinkMsg → List Byte
  | .rtp p => p.bytes
  | .slow l => l
  | .ptp m => Config.ptpFrame prof m.kind.code [m.domain, m.source.toNat, m.seqId, m.time, m.reqSource.toNat]

/-- The bytes of a key slot. -/
def State.keyOf (s : State) (d slot : Nat) : List Byte := (s.die d).keys.get [] slot

/-- A frame as it leaves (R474, R481): protected where it has a SecTAG, filled with zero bytes to 60, and its FCS behind it. -/
def State.onWire (s : State) (d k : Nat) (m : LinkMsg) (sec : Option SecOut) : List Byte :=
  let l := m.bytes (s.f F.LNK_PTPCFG.PROF d [k])
  let x := s.link d k
  let xpn := decide (s.f F.LNK_MSCTL.XPN d [k] = 1)
  let p := match sec with
    | some t => Config.macsec xpn t.an t.sci t.pn (s.keyOf d x.sa.key) (if xpn then s.keyOf d x.sa.salt else []) l
    | none => l
  let q := p ++ List.replicate (60 - p.length) 0
  q ++ fcsOf q

/-- Send one frame: counted and recorded, or dropped by MACsec. -/
def State.linkSend (s : State) (d k : Nat) (eapol : Bool) (m : LinkMsg) : State × Bool :=
  match s.protect d k eapol with
  | (s1, none) => (s1, false)
  | (s1, some sec) => ((s1.lnkCount d k 1 1).updLink d k (fun x => { x with sent := x.sent ++ [⟨m, sec, s.onWire d k m sec⟩] }), true)

/-- The receive SA of a frame: 2 × channel + SA, its key slot and its salt slot. -/
def State.rxSa (s : State) (d k : Nat) (t : SecTag) : Option (Nat × Nat × Nat) :=
  (List.range 8).findSome? (fun j =>
    if s.f F.LNK_MSRXCFG.V d [k, j] = 1 ∧
        s.f F.LNK_MSRXHI.SCI_HI d [k, j] * 4294967296 + s.f F.LNK_MSRXLO.SCI_LO d [k, j] = t.sci.toNat then
      if s.f F.LNK_MSRXCFG.AN0 d [k, j] = t.an.toNat then some (2 * j, s.f F.LNK_MSRXCFG.KEY0 d [k, j], s.f F.LNK_MSRXCFG.XSLT0 d [k, j])
      else if s.f F.LNK_MSRXCFG.AN1 d [k, j] = t.an.toNat then some (2 * j + 1, s.f F.LNK_MSRXCFG.KEY1 d [k, j], s.f F.LNK_MSRXCFG.XSLT1 d [k, j])
      else none
    else none)

/-- MACsec checks of a received frame (R482): whether it is accepted, and the state after. -/
def State.verify (s : State) (d k : Nat) (fr : EthFrame) : State × Bool :=
  if s.f F.LNK_MSCTL.EN d [k] = 0 ∨ fr.etherType = 0x888E#16 then (s, true)
  else
    let bad := s.lnkCount d k 6 1
    match fr.sec with
    | none => (bad, false)
    | some t =>
      match s.rxSa d k t with
      | none => (bad, false)
      | some (i, key, salt) =>
        let low := (s.link d k).rxPn.get 1 i
        if s.keyType d key 1 = false ∨ (s.f F.LNK_MSCTL.XPN d [k] = 1 ∧ s.keyType d salt 2 = false) ∨ t.icvOk = false ∨ t.pn.toNat < low then
          (bad, false)
        else
          let n := max low (t.pn.toNat + 1 - s.f F.LNK_MSWIN.WIN d [k])
          (s.updLink d k (fun x => { x with rxPn := x.rxPn.set 1 i n }), true)

/-! ### Slow-path reception (R458, R483) -/

/-- A time in nanoseconds as seconds and nanoseconds (R458). -/
def stamp (t : Int) : BitVec 80 := BitVec.ofInt 48 (t.fdiv 1000000000) ++ BitVec.ofInt 32 (t.fmod 1000000000)

/-- A frame goes to the slow path, with its receive timestamp when it is a PTP event message (R478, R483). -/
def State.slowRx (s : State) (d k : Nat) (fr : EthFrame) (ts : Option (BitVec 80)) : State :=
  let p := s.f F.LNK_SPR.HP d [k]
  let r := s.f F.LNK_SPR.RING d [k]
  if s.f F.LNK_SPR.EN d [k] = 0 ∨ s.live p = false ∨ s.takesPart p r = false ∨ s.ringType p r ≠ 5 ∨ s.waiting p r = 0 then s.lnkCount d k 3 1
  else
    let len := fr.len - 4
    (s.emit p (.slowRx r (s.dev p r) len (2 * d + k) (s.ring p r).phase (decide (fr.cap < len)) ts)).step1 p r

/-! ### Streams received (R475, R476) -/

/-- A signed sample of `n` bytes, big-endian. -/
def beSample (n : Nat) (l : List Byte) : Int :=
  let u : Nat := (l.take n).foldl (fun a b => a * 256 + b.toNat) 0
  if 2 ^ (8 * n - 1) ≤ u then (u : Int) - (2 ^ (8 * n) : Nat) else u

/-- The 64-bit index of a packet's first sample (R475): the value nearest to the current MSC `now`. -/
def packetIndex (now : Nat) (r tsofs : W32) : Int :=
  (now : Int) + (r - tsofs - BitVec.ofNat 32 now).toInt

/-- The indices below this one belong to blocks that are closed (R471). -/
def State.openFrom (s : State) (d : Nat) : Nat := (s.die d).msc + (if (s.die d).phase = .guard then s.perFrame else 0)

/-- One sample placed by its entering index, or discarded as late or early (R471, R475). -/
def State.placeSample (s : State) (d k fid now : Nat) (idx : Int) (chan : Nat) (w : Int) : State :=
  if idx < s.openFrom d ∨ (now + 4096 : Int) < idx then s.lnkCount d k 5 1 else s.takeSample d fid idx.toNat chan w

/-- SEQIN and SEQERR (R347). -/
def State.seqIn (s : State) (g : Nat) (seq : Nat) : State :=
  let x := s.flowState g
  let n := setField x.c4 15 0 ((seq + 1) % 65536)
  if field x.c4 15 0 = seq then s.setFlowState g { x with c4 := n }
  else (s.setFlowState g { x with c4 := n, c7 := setField x.c7 15 0 (min (field x.c7 15 0 + 1) 65535) }).raise F.FLW_EV.SEQEV (g / 8192) []

/-- A packet that feeds one entry. -/
def State.feed (s : State) (d k pos : Nat) (e : Entry) (p : Rtp) : State :=
  let g := 8192 * d + e.fid
  let fl := s.flow g
  let bytes := 2 + fl.fmt
  let len := s.packetLen e.ptime
  let n := p.payload.length / (len * bytes)
  let now := (s.die d).msc + pos
  let i0 : Int := packetIndex now p.ts (s.act .LNK_TSOFS d [k]) + Int.ofNat (s.fa F.LNK_PCFG.ROFS d [k])
  let cells := (List.range len).flatMap (fun i => (List.range fl.nchan).map (fun c => (i, c)))
  (cells.foldl (fun t (i, c) =>
    if n ≤ e.ch0 + c then t
    else t.placeSample d k e.fid now (i0 + Int.ofNat i) c (sampleW fl.fmt (beSample bytes (p.payload.drop ((i * n + e.ch0 + c) * bytes))))) s).seqIn g p.seq.toNat

/-- The key of a pair: the entry of LP0 (R476). -/
def State.pairKey (s : State) (early : Bool) (d k : Nat) (e : Entry) : Option Nat :=
  (s.pairOf early d k e).map (fun x => if k = 0 then e.s else x.s)

/-- A packet at a receive entry (R475, R476). -/
def State.rxEntry (s : State) (early : Bool) (d k pos : Nat) (e : Entry) (p : Rtp) : State :=
  if s.rxOk early d k e = false then s
  else match s.pairKey early d k e with
    | none => s.feed d k pos e p
    | some q =>
      let idx := packetIndex ((s.die d).msc + pos) p.ts (s.act .LNK_TSOFS d [k])
      if (s.link d 0).used.any (fun u => decide (u.1 = q ∧ u.2.1 = p.seq ∧ u.2.2.1 = p.ts)) then s.lnkCount d k 7 1
      else (s.updLink d 0 (fun x => { x with used := x.used ++ [(q, p.seq, p.ts, idx)] })).feed d k pos e p

/-- The receive entries that a datagram matches in a map (R474 rule 3). -/
def State.matching (s : State) (early : Bool) (d k : Nat) (addr : W32) (udp : Nat) (vlan : Option (BitVec 12)) : List Entry :=
  (s.entries early d k).filter (fun e =>
    let v := mapAct (s.mapRegs early) .LNK_VLAN d [k, e.vidx]
    !e.tx && decide (e.addr = addr ∧ e.udp = udp) &&
      decide (vlan = if v.getLsbD 31 then some (v.setWidth 12) else none))

/-! ### PTP (R478 to R480) -/

/-- The servo runs on this port: PTP is the discipline source in force, which a write of SRC changes at the next tick (R63, R479). -/
def State.servoOn (s : State) (d k : Nat) : Bool :=
  decide (s.pkg.src = 2 ∧ s.f F.TCK_CTL.PTPD 0 [] = d ∧ s.f F.TCK_CTL.PTPK 0 [] = k) && decide (s.f F.LNK_PTPCFG.EN d [k] = 1)

/-- The source of discipline is lost (R63). -/
def State.sourceLost (s : State) : State :=
  s.liveDies.foldl (fun t d => (t.raise F.TCK_STAT.HOLDOVER d []).raise F.TCK_STAT.SRCLOST d []) s

/-- The source returns (R63). -/
def State.sourceBack (s : State) : State := s.liveDies.foldl (fun t d => t.setF F.TCK_STAT.HOLDOVER d [] 0) s

/-- Offset from the master and mean path delay (R479; IEEE 1588-2019). -/
def State.ptpShow (s : State) (d k : Nat) : State :=
  let l := s.link d k
  (s.setReg .LNK_PTPOFS d [k] (BitVec.ofInt 32 (l.ms - l.delay))).setReg .LNK_PTPDLY d [k] (BitVec.ofInt 32 l.delay)

/-- A valid Sync with its time: the servo leaves holdover when the source was lost. -/
def State.syncTime (s : State) (d k : Nat) (t1 t2 : Int) : State :=
  let s1 := (s.updLink d k (fun x => { x with ms := t2 - t1, sync := none, lostMaster := false })).ptpShow d k
  if (s.link d k).lostMaster then s1.sourceBack else s1

/-- The PTP unit on a received message (R478 to R480). A response counts when it answers the port's last request. Of a one-step Pdelay_Resp, `time` is
the turnaround that it carries. A Pdelay_Resp carries the receipt time of its request, and the Follow_Up the time at which the response left, a free
value (log entry 184). -/
def State.ptpRx (s : State) (d k : Nat) (m : Ptp) : State :=
  let l := s.link d k
  let prof := s.f F.LNK_PTPCFG.PROF d [k]
  let fromGm := decide (m.source = l.gm)
  let own := Config.portIdentity (2 * d + k)
  let mine := decide (m.reqSource = own ∧ m.seqId.toNat = l.reqSeq)
  if s.servoOn d k = false ∨ m.domain.toNat ≠ s.f F.LNK_PTPCFG.DOMAIN d [k] then s
  else match m.kind with
    | .sync =>
      if fromGm = false then s
      else if m.twoStep then s.updLink d k (fun x => { x with sync := some (m.seqId, m.rxTime) })
      else s.syncTime d k m.time m.rxTime
    | .followUp =>
      match l.sync with
      | some (q, t2) => if fromGm = true ∧ q = m.seqId then s.syncTime d k m.time t2 else s
      | none => s
    | .delayResp =>
      match l.reqTime with
      | some t3 =>
        if prof = 0 ∧ fromGm = true ∧ mine = true then
          (s.updLink d k (fun x => { x with delay := (x.ms + (m.time - t3)).fdiv 2, reqTime := none })).ptpShow d k
        else s
      | none => s
    | .pdelayReq =>
      if prof = 0 then s
      else
        let out (kd : PtpKind) (t : Int) : LinkMsg := .ptp ⟨kd, m.domain.toNat, own, m.seqId.toNat, t, m.source⟩
        let s1 := (s.linkSend d k false (out .pdelayResp m.rxTime)).1
        ((s1.linkSend d k false (out .pdelayRespFollowUp (freeBits 64 s.fresh).toInt)).1).useFree 1
    | .pdelayResp =>
      match l.reqTime with
      | some t1 =>
        if prof = 0 ∨ mine = false then s
        else if m.twoStep then s.updLink d k (fun x => { x with pdT2 := m.time, pdT4 := m.rxTime })
        else (s.updLink d k (fun x => { x with delay := (m.rxTime - t1 - m.time).fdiv 2, reqTime := none })).ptpShow d k
      | none => s
    | .pdelayRespFollowUp =>
      match l.reqTime with
      | some t1 =>
        if prof = 0 ∨ mine = false then s
        else (s.updLink d k (fun x => { x with delay := ((x.pdT4 - t1) - (m.time - x.pdT2)).fdiv 2, reqTime := none })).ptpShow d k
      | none => s
    | .delayReq | .other => s

/-- A PTP event message (R478). -/
def PtpKind.isEvent : PtpKind → Bool
  | .sync | .delayReq | .pdelayReq | .pdelayResp => true
  | _ => false

/-! ### The rows -/

/-- ETH_FRAME_RECEIVE (R474 to R483). -/
def execEthFrameReceive (die : DieNo) (k : PortNo) (fr : EthFrame) (s : State) : Host.Outcome State Fault Refusal :=
  let d := die.val
  let k := k.val
  if s.live d = false then .next s
  else if s.isEth d k = false ∨ s.linkUp d k = false then .next s
  else
    let s0 := s.lnkCount d k 0 1
    if fr.fcsOk = false then .next (s0.lnkCount d k 2 1)
    else if fr.len < 64 ∨ 1522 < fr.len ∨ fr.etherType = 0x8808#16 then .next (s0.lnkCount d k 3 1)
    else
      let (s1, ok) := s0.verify d k fr
      if ok = false then .next s1
      else if fr.etherType = 0x888E#16 then .next (s1.slowRx d k fr none)
      else
        let toPtp := decide (fr.etherType = 0x88F7#16) || (match fr.udp with
          | some (_, p, _) => decide (p = 319#16 ∨ p = 320#16)
          | none => false)
        if toPtp then
          match fr.ptp with
          | some m => .next ((s1.ptpRx d k m).slowRx d k fr (if m.kind.isEvent then some (stamp m.rxTime) else none))
          | none => .next (s1.slowRx d k fr none)
        else
          let hits (early : Bool) : List Entry := match fr.udp with
            | some (a, p, true) => s1.matching early d k a p.toNat fr.vlan
            | _ => []
          if s1.maps.any (fun m => !(hits m).isEmpty) then
            match fr.rtp with
            | some p =>
              if p.odd then .next (s1.lnkCount d k 3 1)
              else .next (s1.maps.foldl (fun t m => ((hits m).filter (fun e => !m || !(hits false).any (fun x => decide (x.fid = e.fid)))).foldl
                (fun u e => u.rxEntry m d k fr.pos e p) t) s1)
            | none => .next (s1.lnkCount d k 3 1)
          else
            if fr.dst.toNat = s.macOf d k ∨ fr.dst.getLsbD 40 = true then .next (s1.slowRx d k fr none)
            else .next (s1.lnkCount d k 3 1)

/-- LINK_UP (R467): block lock without a fault. -/
def execLinkUp (die : DieNo) (k : PortNo) (s : State) : Host.Outcome State Fault Refusal :=
  let d := die.val
  if s.live d = false then .next s
  else if s.f F.LNK_CTL.EN d [k.val] = 0 then .next s
  else .next (((s.setF F.LNK_STAT.LOCFLT d [k.val] 0).setF F.LNK_STAT.REMFLT d [k.val] 0).updLink d k.val (fun x => { x with gained := true }))

/-- UP becomes 0 (R467). -/
def State.linkFall (s : State) (d k : Nat) : State :=
  if s.linkUp d k then (s.setF F.LNK_STAT.UP d [k] 0).lnkEvent F.LNK_EV.DOWNEV 0x101 d k [] else s

/-- LINK_DOWN (R467): a local or remote fault. -/
def execLinkDown (die : DieNo) (k : PortNo) (remote : Bool) (s : State) : Host.Outcome State Fault Refusal :=
  let d := die.val
  if s.live d = false then .next s
  else if s.laneOn d k.val = false then .next s
  else .next (((s.raise (if remote then F.LNK_STAT.REMFLT else F.LNK_STAT.LOCFLT) d [k.val]).updLink d k.val
    (fun x => { x with gained := false })).linkFall d k.val)

/-- The address and UDP port of a stream. -/
def streamKey (l : List Entry) : Option (W32 × Nat) := l.head?.map (fun e => (e.addr, e.udp))

/-- The streams of a port, each as its entries in the full and in the early map, which address and UDP port bring together (R419, R477). -/
def State.streams (s : State) (d k : Nat) : List (List Entry × List Entry) :=
  let full := s.txStreams false d k
  let early := if s.pkg.early.isSome then s.txStreams true d k else []
  full.map (fun l => (l, (early.find? (fun x => decide (streamKey x = streamKey l))).getD [])) ++
    (early.filter (fun x => !full.any (fun l => decide (streamKey x = streamKey l)))).map (fun x => ([], x))

/-- The entry that leads a stream: of the full map where that has it. -/
def streamHead (p : List Entry × List Entry) : Option Entry := p.1.head? <|> p.2.head?

/-- The stream that entry `i` leads, of the full map or of the early map alone. -/
def State.streamOf (s : State) (d k i : Nat) (early : Bool) : List Entry × List Entry :=
  ((s.streams d k).find? (fun p => p.1.isEmpty == early && decide ((streamHead p).map Entry.s = some i))).getD ([], [])

/-- Where the next packet of a stream is kept. -/
def nextKey (e : Entry) : Nat := e.addr.toNat * 65536 + e.udp

/-- The first index of the next packet of the stream that entry `e` leads: at its start, that of the packet whose last sample lies first in the frame. -/
def State.nextIdx (s : State) (d k : Nat) (e : Entry) : Nat :=
  let p := s.packetLen e.ptime
  (s.link d k).next.get ((s.die d).msc / p * p) (nextKey e)

/-- The last sample of a stream's next packet lies in the current frame or before it. -/
def State.packetReady (s : State) (d k : Nat) (e : Entry) : Bool :=
  decide (s.nextIdx d k e + s.packetLen e.ptime ≤ (s.die d).msc + s.perFrame)

/-- No packet of the port leaves before the next one of entry `e`: packets go in the order of their first instants, ties by entry (R477). -/
def State.packetFirst (s : State) (d k : Nat) (e : Entry) : Bool :=
  (s.streams d k).all (fun p => match streamHead p with
    | some x => !s.packetReady d k x || decide (s.nextIdx d k e < s.nextIdx d k x ∨ (s.nextIdx d k e = s.nextIdx d k x ∧ e.s ≤ x.s))
    | none => true)

/-- The flow and channel that feed stream channel c. -/
def chanOf (n : Entry → Nat) (l : List Entry) (c : Nat) : Option (Nat × Nat) :=
  (l.find? (fun e => decide (e.ch0 ≤ c ∧ c < e.ch0 + n e))).map (fun e => (e.fid, c - e.ch0))

/-- SEQOUT (R347). -/
def State.seqOut (s : State) (g seq : Nat) : State :=
  let x := s.flowState g
  s.setFlowState g { x with c4 := setField x.c4 31 16 ((seq + 1) % 65536) }

/-- The checksum of a UDP datagram over IPv4 (R477; RFC 768): the ones' complement of the ones' complement sum, with 0 sent as FFFFh. -/
def udpChecksum (src dst : W32) (port : Nat) (data : List Byte) : Nat :=
  let len := data.length + 8
  let k := onesSum (beBytes 4 src.toNat ++ beBytes 4 dst.toNat ++ [0, 17] ++ beBytes 2 len ++ beBytes 2 port ++ beBytes 2 port ++ beBytes 2 len ++ [0, 0] ++ data)
  if k = 0 then 65535 else k

/-- The samples of a packet as its payload: L16 or L24, big-endian two's complement (R475). -/
def streamPayload (sfmt : Nat) (vs : List Int) : List Byte :=
  vs.flatMap (fun v => let n := 2 + sfmt; beBytes n (BitVec.ofInt (8 * n) v).toNat)

/-- The packet of a stream that entry `e` leads, with first index t (R477). -/
def State.rtpPacket (s : State) (early : Bool) (d k : Nat) (e : Entry) (t seq : Nat) (vs : List Int) : RtpOut :=
  let m := s.mapRegs early
  let v := mapAct m .LNK_VLAN d [k, e.vidx]
  let cfg := mapAct m .LNK_PCFG d [k]
  let src := s.reg .LNK_IP d [k]
  let ts := BitVec.ofNat 32 t + mapAct m .LNK_TSOFS d [k]
  let ssrc := BitVec.ofNat 32 (0x00DA0000 + e.s)
  let pt := field cfg 25 19
  let payload := streamPayload e.sfmt vs
  let rtp := beBytes 1 128 ++ beBytes 1 pt ++ beBytes 2 seq ++ beBytes 4 ts.toNat ++ beBytes 4 ssrc.toNat ++ payload
  { entry := e.s, dstMac := BitVec.ofNat 48 (0x01005E000000 + e.addr.toNat % 8388608)
    srcMac := BitVec.ofNat 48 (s.macOf d k)
    tag := if v.getLsbD 31 then some (field v 15 13, field v 11 0) else none
    dscp := field cfg 31 26, ttl := 64, df := true, srcIp := src, dstIp := e.addr, srcPort := e.udp, dstPort := e.udp
    udpSum := udpChecksum src e.addr e.udp rtp, version := 2, marker := false, pt := pt, seq := seq, ts := ts, ssrc := ssrc, ident := freeBits 16 s.fresh, payload := payload }

/-- STREAM_PACKET_SEND (R419, R470, R472, R477): the next packet of the stream that entry `i` leads, in the early map alone where `early`. `late` says
that the packet could not leave within its window. -/
def execStreamPacketSend (die : DieNo) (k : PortNo) (i : Fin 1024) (early late : Bool) (s : State) : Host.Outcome State Fault Refusal :=
  let d := die.val
  let k := k.val
  let (full, old) := s.streamOf d k i.val early
  match streamHead (full, old) with
  | none => .next s
  | some e =>
    let p := s.packetLen e.ptime
    let t := s.nextIdx d k e
    if s.live d = false ∨ s.isEth d k = false ∨ s.linkUp d k = false ∨ s.packetReady d k e = false ∨ s.packetFirst d k e = false then .next s
    else
      let width (l : List Entry) : Nat := l.foldl (fun a x => a + s.entCh d x) 0
      let src (c : Nat) : Option (Nat × Nat) × Option (Nat × Nat) := (chanOf (s.entCh d) old c, chanOf (s.entCh d) full c)
      let vals := (List.range p).flatMap (fun j => (List.range (max (width full) (width old))).map (fun c =>
        let (a, b) := src c
        ((sourceFlow a b), sendSample e.sfmt (s.sendAt d a b (t + j)))))
      let s1 := vals.foldl (fun u (f, _, sat) => match f, sat with
        | some fid, true => u.satOut (8192 * d + fid) 1
        | _, _ => u) s
      let seq := t / p % 65536
      let s2 := ((if early then old else full).map Entry.fid).eraseDups.foldl (fun u fid => u.seqOut (8192 * d + fid) seq) s1
      let s3 := (s2.updLink d k (fun x => { x with next := x.next.put (nextKey e) (t + p) })).useFree 1
      let (s4, _) := s3.linkSend d k false (.rtp (s.rtpPacket early d k e t seq (vals.map (fun v => v.2.1))))
      .next (if late ∨ t + p < (s.die d).msc then (s4.raise F.LNK_EV.LATE d [k]).lnkCount d k 4 1 else s4)

/-- A request of the servo leaves (R479). -/
def State.ptpAsk (s : State) (d k prof : Nat) (kind : PtpKind) (time : Int) : Host.Outcome State Fault Refusal :=
  if s.live d = false ∨ s.servoOn d k = false ∨ s.f F.LNK_PTPCFG.PROF d [k] ≠ prof ∨ s.linkUp d k = false ∨ s.isEth d k = false then
    .next s
  else
    let q := ((s.link d k).reqSeq + 1) % 65536
    let (s1, sent) := s.linkSend d k false (.ptp ⟨kind, s.f F.LNK_PTPCFG.DOMAIN d [k], Config.portIdentity (2 * d + k), q, 0, 0⟩)
    .next (if sent then s1.updLink d k (fun x => { x with reqTime := some time, reqSeq := q }) else s1)

/-- PTP_DELAY_REQ_SEND (R479), with its transmit timestamp. -/
def execPtpDelayReqSend (die : DieNo) (k : PortNo) (time : Int) (s : State) : Host.Outcome State Fault Refusal :=
  s.ptpAsk die.val k.val 0 .delayReq time

/-- PTP_PDELAY_REQ_SEND (R479). -/
def execPtpPdelayReqSend (die : DieNo) (k : PortNo) (time : Int) (s : State) : Host.Outcome State Fault Refusal :=
  s.ptpAsk die.val k.val 1 .pdelayReq time

/-- PTP_LOSS (R63, R479): no valid Sync for LOSS ms. -/
def execPtpLoss (die : DieNo) (k : PortNo) (s : State) : Host.Outcome State Fault Refusal :=
  let d := die.val
  if s.live d = false ∨ s.servoOn d k.val = false ∨ (s.link d k.val).lostMaster = true then .next s
  else .next (((s.updLink d k.val (fun x => { x with lostMaster := true, locked := false, sync := none })).lnkEvent F.LNK_EV.PTPLOSS 0x102 d k.val
    []).sourceLost)

/-- A slow-path transmit entry is over: it is written back, and completed in its CQ (R484). -/
def State.slowDone (s : State) (hp r cq : Nat) (ts : Option (BitVec 80)) (ok : Bool) : State :=
  let i := s.dev hp r
  let s1 := (s.emit hp (.slowTx r i (s.ring hp r).phase ts)).step1 hp r
  s1.putCompletion hp cq r (BitVec.ofNat 32 i) false (if ok then .done else .fail) 0 false (s.fn hp)

/-- A host's service message has left in a train: its entry is over, unless its ring or CQ was closed since (R484). -/
def State.slowSent (s : State) (m : Msvc) : State :=
  match m.entry with
  | none => s
  | some t =>
    let cq := s.f F.HPT_RCFG.CQ t.port [t.ring]
    let s1 := (s.updRing t.port t.ring (fun x => { x with sending := false })).updRing t.port cq (fun x => { x with reserved := x.reserved - 1 })
    if s.live t.port = true ∧ s.ringOn t.port t.ring = true ∧ (s.ring t.port t.ring).sending = true ∧ s.takesPart t.port cq = true ∧ s.freeEnt t.port cq ≠ 0 then
      s1.slowDone t.port t.ring cq t.ts true
    else s

/-- SLOW_PATH_TRANSMIT (R458, R484): the next entry of a slow-path transmit ring is sent, written back and completed; a service message is over when a
train has carried it. -/
def execSlowPathTransmit (port : PortNo) (ring : Fin 64) (pkt : SlowPkt) (s : State) : Host.Outcome State Fault Refusal :=
  let hp := port.val
  let r := ring.val
  let cq := s.f F.HPT_RCFG.CQ hp [r]
  if s.live hp = false ∨ s.takesPart hp r = false ∨ s.ringType hp r ≠ 6 ∨ s.waiting hp r = 0 ∨ s.takesPart hp cq = false ∨
      s.freeEnt hp cq ≤ (s.ring hp cq).reserved then .next s
  else
    let d := pkt.port.toNat / 2
    let k := pkt.port.toNat % 2
    let eth := s.live d && s.isEth d k && s.linkUp d k && decide ((if pkt.tagged then pkt.len.toNat - 4 else pkt.len.toNat) ≤ 1518)
    let fin := s.live d && !(s.ring hp r).sending && decide (s.f F.LNK_CTL.MODE d [k] = 1) && decide (s.f F.FIN_STAT.RUN d [] = 1) && decide (s.linkUp d k = true) &&
      decide (2 ≤ pkt.bytes.length ∧ pkt.bytes.length ≤ 286) && decide (128 ≤ (pkt.bytes.getD 1 0).toNat)
    let eapol := decide (pkt.bytes.getD 12 0 = 0x88#8 ∧ pkt.bytes.getD 13 0 = 0x8E#8)
    let ts := if pkt.tsReq then some pkt.txTime else none
    if (s.ring hp r).sending then .next s
    else if eth then
      let (s1, ok) := s.linkSend d k eapol (.slow pkt.bytes)
      .next (s1.slowDone hp r cq (if ok then ts else none) ok)
    else if fin then
      let m : Msvc := ⟨(pkt.bytes.getD 0 0).toNat % 64, (pkt.bytes.getD 1 0).toNat, pkt.bytes.drop 2, some ⟨hp, r, ts⟩⟩
      let s1 := s.setDie d { s.die d with ring := { (s.die d).ring with msvc := (s.die d).ring.msvc ++ [m] } }
      .next ((s1.updRing hp r (fun x => { x with sending := true })).updRing hp cq (fun x => { x with reserved := x.reserved + 1 }))
    else .next (s.slowDone hp r cq none false)

/-! ### At a tick -/

/-- A write of LNK_MSCTL: EN and XPN act at once, and LNK_STAT and LNK_MSPN show them (R482, R509). -/
def State.writeMsctl (s : State) (d k : Nat) (v : W32) : State :=
  let s1 := s.setReg .LNK_MSCTL d [k] v
  (s1.setF F.LNK_STAT.MSEC d [k] (s1.f F.LNK_MSCTL.EN d [k])).showPn d k

/-- A write of a register of receive channel j: each SA whose SCI, AN, key or salt it changes starts anew (R482; DESIGN CHOICE, log entry 183). -/
def State.writeMsrx (s t : State) (d k j : Nat) : State :=
  let of (u : State) (a : Nat) : List Nat := [u.f F.LNK_MSRXHI.SCI_HI d [k, j], u.f F.LNK_MSRXLO.SCI_LO d [k, j]] ++
    (if a = 0 then [u.f F.LNK_MSRXCFG.AN0 d [k, j], u.f F.LNK_MSRXCFG.KEY0 d [k, j], u.f F.LNK_MSRXCFG.XSLT0 d [k, j]]
     else [u.f F.LNK_MSRXCFG.AN1 d [k, j], u.f F.LNK_MSRXCFG.KEY1 d [k, j], u.f F.LNK_MSRXCFG.XSLT1 d [k, j]])
  [0, 1].foldl (fun u a => if of s a = of t a then u else u.updLink d k (fun x => { x with rxPn := x.rxPn.set 1 (2 * j + a) 1 })) t

/-- The transmit streams of Finolrus nodes that name a flow which cannot be sent (R472, R473), at 16 × node + stream. -/
def State.badTx (s : State) (d : Nat) : List Nat :=
  (List.range 1024).filter (fun i =>
    let v := s.act .FIN_NTX d [i / 16, i % 16 / 2]
    (if i % 2 = 0 then v.getLsbD 15 else v.getLsbD 31) && !s.egressOk d (if i % 2 = 0 then field v 12 0 else field v 28 16))

/-- Bring a link port to a tick: UP, the master, the transmit SA, MAPBAD and what is forgotten (R467, R473, R480, R482). -/
def State.linkTick (s : State) (d k : Nat) : State :=
  let l := s.link d k
  let s1 := if l.stopping then (s.updLink d k (fun x => { x with stopping := false, gained := false })).linkFall d k else s
  let s2 := if (s1.link d k).gained = true ∧ s1.linkUp d k = false ∧ s1.f F.LNK_CTL.EN d [k] = 1 then
      (s1.raise F.LNK_STAT.UP d [k]).lnkEvent F.LNK_EV.UPEV 0x100 d k []
    else s1
  let gm : BitVec 80 := s.reg .LNK_PTPGM0 d [k] ++ s.reg .LNK_PTPGM1 d [k] ++ BitVec.ofNat 16 (s.f F.LNK_PTPGM2.PORTNUM d [k])
  let s3 := if l.gmDue then s2.updLink d k (fun x => { x with gm := gm, gmDue := false, sync := none, reqTime := none, locked := false }) else s2.updLink d k (fun x => { x with locked := x.locked && s.servoOn d k })
  let sa := TxSa.mk (s.f F.LNK_MSCTL.TXAN d [k]) (s.f F.LNK_MSCTL.TXKEY d [k]) (s.f F.LNK_MSCTL.TXSALT d [k])
  let s4 := (s3.updLink d k (fun x => { x with sa := sa, txPn := if sa.an = l.sa.an then x.txPn else 1 })).showPn d k
  let bad := if s4.f F.LNK_CTL.MODE d [k] = 0 then s4.badEntries d k else s4.badTx d
  let s6 := match bad with
    | [] => s4
    | i :: _ => if s4.f F.LNK_EV.MAPBAD d [k] = 1 then s4 else s4.lnkEvent F.LNK_EV.MAPBAD 0x104 d k [i]
  let msc := (s.die d).msc
  let near (n : Nat) : Bool := s6.linkUp d k && decide (msc ≤ n + 512) && decide (n ≤ msc + 512)
  s6.updLink d k (fun x => { x with next := x.next.filter (fun e => near e.2),
                                    used := x.used.filter (fun u => decide ((msc : Int) ≤ u.2.2.2 + 1073741824)) })

/-- The servo locks for the first time after a loss or a start (R479). -/
def State.ptpLock (s : State) (d k : Nat) (locked : Bool) : State :=
  if locked = true ∧ s.servoOn d k = true ∧ (s.link d k).locked = false ∧ (s.link d k).lostMaster = false then
    (s.updLink d k (fun x => { x with locked := true })).lnkEvent F.LNK_EV.PTPLOCK 0x103 d k []
  else s

/-- The flows whose blocks a link port closes at the guard (R471), with their loan accounts. -/
def State.rxFlows (s : State) (d k : Nat) : List (Nat × Nat) :=
  if s.isEth d k = false ∨ s.linkUp d k = false then []
  else s.maps.flatMap (fun m => ((s.entries m d k).filter (fun e => !e.tx && s.rxOk m d k e)).map (fun e =>
    (e.fid, if (s.pairOf m d k e).isSome then 8 else 8 + k)))

/-- The flows that a link port sends (R472), with whether it is UP; a port of MODE ETH takes their blocks also when it is not (R468). -/
def State.txFlows (s : State) (d k : Nat) : List (Nat × Bool) :=
  if s.f F.LNK_CTL.MODE d [k] ≠ 0 then []
  else s.maps.flatMap (fun m => ((s.txStreams m d k).flatten).map (fun e => (e.fid, s.linkUp d k)))

end Sys2Proof.Machine
end

