-- ==== Sys2Proof/Machine/Fin.lean ====
section
/-! DEFINITION. Finolrus rings: trains, slots, checks, credits, joining and partner states (R485 to R503). -/

namespace Sys2Proof.Machine

def State.node (s : State) (d n : Nat) : FinNode := s.fin.get {} (64 * d + n)

def State.updNode (s : State) (d n : Nat) (f : FinNode → FinNode) : State :=
  { s with fin := s.fin.set {} (64 * d + n) (f (s.node d n)) }

def State.updFin (s : State) (d : Nat) (f : FinRing → FinRing) : State :=
  s.setDie d { s.die d with ring := f (s.die d).ring }

/-- An event of the ring (R508), with its FIN_EV bit where it has one. -/
def State.finEvent (s : State) (x : Option Fld) (code d : Nat) (ps : List Nat) : State :=
  (match x with
   | some b => s.raise b d []
   | none => s).event code d 4 (d :: ps)

/-! ### Ring, slots and owners (R485, R486, R489) -/

/-- Whether the ring of a die runs (R485). -/
def State.finRuns (s : State) (d : Nat) : Bool :=
  decide (s.f F.FIN_CTL.EN d [] = 1) &&
  [0, 1].all (fun k => decide (s.f F.LNK_CTL.MODE d [k] = 1 ∧ s.f F.LNK_CTL.EN d [k] = 1)) &&
  decide (s.f F.LNK_CTL.RATE d [0] = s.f F.LNK_CTL.RATE d [1])

/-- FIN_STAT.RUN; a ring that does not run shows no train returned. -/
def State.setRun (s : State) (d : Nat) : State :=
  let s1 := s.setF F.FIN_STAT.RUN d [] (s.finRuns d).toNat
  if s.finRuns d then s1 else (s1.setF F.FIN_STAT.ARET d [] 0).setF F.FIN_STAT.BRET d [] 0

/-- The shortest frame of R52 in ns. -/
def State.shortFrame (s : State) : Nat :=
  match s.fa F.TCK_FRAME.FPER 0 [] with | 0 => 249975 | 1 => 499950 | 2 => 999900 | _ => 1999800

/-- S as used (R486): T is 102.4 or 256 ns. -/
def State.finSlots (s : State) (d : Nat) : Nat :=
  let t10 := if s.f F.LNK_CTL.RATE d [0] = 1 then 1024 else 2560
  min (s.fa F.FIN_CFG.S d []) ((s.shortFrame - 44096 - s.f F.FIN_CTL.TXOFS d []) * 10 / t10)

/-- The node that owns a slot (R489). -/
def State.slotOwner (s : State) (d i : Nat) : Option Nat :=
  if 3 ≤ i ∧ i < 67 then some (i - 3)
  else if i < 67 then none
  else (List.range 64).find? (fun n =>
    decide (s.fa F.FIN_NSLOT.SBASE d [n] ≤ i ∧ i < s.fa F.FIN_NSLOT.SBASE d [n] + s.fa F.FIN_NSLOT.NSLOT d [n]))

def State.nodeState (s : State) (d n : Nat) : Nat := s.f F.FIN_NST.STATE d [n]

/-- ACTIVE or SLOW (R499). -/
def State.finActive (s : State) (d n : Nat) : Bool := decide (s.nodeState d n = 3 ∨ s.nodeState d n = 4)

/-- The open flow that a node's stream feeds (R492 check 5). -/
def State.finFlow (s : State) (d n strm : Nat) : Option Nat :=
  (s.flA.find? (fun e => decide (e.1 / 8192 = d) && e.2.isOpen && decide (e.2.src = 2 ∧ e.2.srcId = 16 * n + strm ∧ e.2.fmt = 3) &&
    decide (field e.2.c1 21 20 = 0))).map Prod.fst

/-- TXCRED (R495). -/
def State.txCred (s : State) (d n : Nat) : Nat :=
  let x := s.node d n
  let c := (x.ret + 65536 - x.msent) % 65536
  if 32768 ≤ c then 0 else c

def State.showCred (s : State) (d n : Nat) : State := s.setF F.FIN_NCRED.TXCRED d [n] (s.txCred d n)

/-- A value is newer when its difference, modulo 2^w, is from 1 to half the range (R492). -/
def newer (w new old : Nat) : Bool :=
  let k := (new + 2 ^ w - old % 2 ^ w) % 2 ^ w
  decide (1 ≤ k ∧ k ≤ 2 ^ (w - 1))

/-! ### The train (R486, R489, R495) -/

/-- The flow of transmit stream j of a node in a map (R472). -/
def State.finTx (s : State) (early : Bool) (d n j : Nat) : Option Nat :=
  let v := mapAct (s.mapRegs early) .FIN_NTX d [n, j / 2]
  let (on, fid) := if j % 2 = 0 then (v.getLsbD 15, field v 12 0) else (v.getLsbD 31, field v 28 16)
  if on && s.egressOk d fid then some fid else none

/-- A carrier to send: the priority and global number of its flow, channel and segment, the node and stream, and the flows of the early
and the full map. -/
structure Cand where
  prio : Nat
  flow : Nat
  chan : Nat
  seg : Nat
  node : Nat
  strm : Nat
  early : Option Nat
  full : Option Nat
  deriving DecidableEq, Repr

/-- The block of one flow, channel and segment, by queue and handle. -/
def State.candBlock (s : State) (d : Nat) (o : Option Nat) (c sg : Nat) : Option (Nat × Nat) :=
  match o with
  | none => none
  | some fid =>
    let p := s.flow (8192 * d + fid)
    let q := 131072 * d + p.qbase + c
    if p.nchan ≤ c then none
    else (s.portFront q (fun ws => decide (segsOf s.perFrame = 1) || decide (blkSeg ws = sg))).map (fun h => (q, h))

/-- A flow has a channel. -/
def State.candOf (s : State) (d : Nat) (o : Option Nat) (c : Nat) : Bool :=
  match o with
  | none => false
  | some fid => decide (c < (s.flow (8192 * d + fid)).nchan)

/-- The channels and segments of the streams to ACTIVE and SLOW nodes, in the order of R357 and R495; one without a block is sent as silence (R381,
R472; DEDUCED, log entry 153). -/
def State.cands (s : State) (d : Nat) : List Cand :=
  let l := (List.range 64).flatMap (fun n => if s.finActive d n then (List.range 16).flatMap (fun j =>
    let a := if s.pkg.early.isSome then s.finTx true d n j else none
    let b := s.finTx false d n j
    match b <|> a with
    | none => []
    | some fid =>
      let p := s.flow (8192 * d + fid)
      let chans := max p.nchan (match a with
        | some e => (s.flow (8192 * d + e)).nchan
        | none => 0)
      (List.range chans).flatMap (fun c => (List.range (segsOf s.perFrame)).filterMap (fun sg =>
        if (s.candOf d a c || s.candOf d b c) then some (⟨p.prio, 8192 * d + fid, c, sg, n, j, a, b⟩ : Cand) else none)))
    else [])
  l.mergeSort (fun x y => decide (y.prio < x.prio) || (decide (x.prio = y.prio) &&
    (decide (x.flow < y.flow) || (decide (x.flow = y.flow) && (decide (x.chan < y.chan) || (decide (x.chan = y.chan) && decide (x.seg ≤ y.seg)))))))

/-- Take a candidate's block of one map, as it is sent; silence, counted in DROPS, where its flow has none or the block cannot be sent (R319, R380,
R381). -/
def State.takeCand (s : State) (d : Nat) (o : Option Nat) (c sg : Nat) : State × Option (List W18) :=
  match o with
  | none => (s, none)
  | some fid =>
    if s.candOf d o c = false then (s, none)
    else
      let g := 8192 * d + fid
      let n := s.perFrame / segsOf s.perFrame
      match s.candBlock d o c sg with
      | none => (s.flowDrop (some g) 1, some (silence g (s.fn d) c sg n false))
      | some (q, h) =>
        let (s1, ws, miss) := s.portTake q h
        let (out, silent) := bfCopy ws miss g (s.fn d) c sg n
        (if silent then s1.flowDrop (some g) 1 else s1, some out)

/-- The words sent for an early and a full block (R420): a mixed block is rounded as 32-bit slots and normalised again. -/
def State.mixBlocks (s : State) (c : Cand) (a b : Option (List W18)) : List W18 :=
  let n := s.perFrame / segsOf s.perFrame
  let at_ (i : Nat) : Mix := s.mixAt ((s.die (c.flow / 8192)).msc + 96 * c.seg + i)
  let zero := silence c.flow (s.fn (c.flow / 8192)) c.chan c.seg n false
  match at_ 0 with
  | .early => a.getD zero
  | .full => b.getD zero
  | .both _ _ =>
    let va := blockValues (a.getD zero) n
    let vb := blockValues (b.getD zero) n
    let (e, ms) := toBlock ((List.range n).map (fun i => (sendSample 2 ((at_ i).value (va.getD i 0) (vb.getD i 0))).1))
    mkBlock e ms c.flow (s.fn (c.flow / 8192)) c.chan c.seg 0 0 ++ List.replicate (124 - n) 0

/-- Send one block in a slot (R488, R495). -/
def State.sendCarrier (s : State) (d slot : Nat) (c : Cand) : State × FinTx :=
  let (s1, a) := s.takeCand d c.early c.chan c.seg
  let (s2, b) := s1.takeCand d c.full c.chan c.seg
  let ws := s.mixBlocks c a b
  let sent := ((s.node d c.node).msent + 1) % 65536
  let g := c.flow
  let bseq := field (s.flowState g).c4 31 16
  let s3 := ((s2.updNode d c.node (fun x => { x with msent := sent })).showCred d c.node).seqOut g bseq
  (s3, .carrier slot c.node c.strm sent bseq ws)

/-- A block waits in the queues of a candidate (R498). -/
def State.hasBlock (s : State) (d : Nat) (c : Cand) : Bool := (s.candBlock d c.early c.chan c.seg).isSome || (s.candBlock d c.full c.chan c.seg).isSome

/-- A candidate without a credit: a block of it has waited. -/
def State.candWait (s : State) (d : Nat) (c : Cand) : State :=
  if s.txCred d c.node = 0 ∧ s.hasBlock d c = true then s.updNode d c.node (fun x => { x with waited := true }) else s

/-- Fill the part's carrier slots (R495). -/
def State.fillSlots (s : State) (d : Nat) : List Cand → List Nat → State × List FinTx × List Nat
  | [], slots => (s, [], slots)
  | c :: cs, slots =>
    match slots with
    | [] => (s.candWait d c).fillSlots d cs []
    | i :: rest =>
      if s.txCred d c.node = 0 then (s.candWait d c).fillSlots d cs (i :: rest)
      else
        let (s1, tx) := s.sendCarrier d i c
        let (s2, l, left) := s1.fillSlots d cs rest
        (s2, tx :: l, left)

/-- The message of MSVC in this cycle: the part's own first, by node, then the host's in order (R489). -/
def nextMsvc (l : List Msvc) : Option Msvc :=
  match (l.filter (fun m => decide (m.kind < 128))).mergeSort (fun a b => decide (a.node ≤ b.node)) with
  | m :: _ => some m
  | [] => l.head?

/-- The data of a message in the cycle that sends it: ACCEPT with H and MSENT, CHALLENGE with its nonce and FN (R489). -/
def State.msvcData (s : State) (d : Nat) (m : Msvc) : List Byte :=
  let x := s.node d m.node
  match m.kind with
  | 1 => beBytes 2 x.sentNow ++ beBytes 2 x.msent
  | 2 => m.data ++ beBytes 6 (s.fn d)
  | _ => m.data

/-- The slots of a cycle become those of the cycle before (R487, R492). -/
def FinNode.nextCycle (x : FinNode) : FinNode := { x with leashOld := x.leash, leash := x.leashNow, sentOld := x.sentHi, sentHi := x.sentNow }

/-- Build the train of this cycle, and begin the cycle (R486, R489). -/
def State.buildTrain (s : State) (d : Nat) : State :=
  let r := (s.die d).ring
  let n := s.finSlots d
  let grants := (List.range 64).map (fun i => (s.node d i).grant % 65536)
  let bpm (i : Nat) : Nat := (List.range 16).foldl (fun m j => match s.finFlow d i j with
    | some g => if (s.que (131072 * d + (s.flow g).qbase)).bp then m + 2 ^ j else m
    | none => m) 0
  let msg := nextMsvc r.msvc
  let mine := (List.range n).filter (fun i => decide (67 ≤ i) && (s.slotOwner d i).isNone)
  let head : List FinTx := [.cycle (s.fn d) (s.f F.TCK_CTL.RATE 0 []) (s.fa F.TCK_FRAME.FPER 0 []) n r.tgen
      ((List.range 64).map (fun i => (s.fa F.FIN_NSLOT.SBASE d [i], s.fa F.FIN_NSLOT.NSLOT d [i]))),
    .mctl ((List.range 64).map (fun i => (grants.getD i 0, bpm i)))
      ((List.range 64).map (fun i => s.f F.FIN_NST.DEG d [i] * 8 + s.nodeState d i)),
    .msvc (msg.map (fun m => { m with data := s.msvcData d m, entry := none }))]
  let s0 := { s with fin := s.fin.map (fun (p : Nat × FinNode) => if p.1 / 64 = d then (p.1, p.2.nextCycle) else p) }
  let (s1, tx, left) := s0.fillSlots d (s0.cands d) mine
  let s2 := (s1.updFin d (fun x => { x with train := some (head ++ tx), kept := [], keptOld := x.kept, seenA := [], seenB := [],
                                            grants := (grants.mapIdx (fun i g => (i, g))).foldl (fun m (i, g) => m.set 0 i g) [], grantsOld := x.grants,
                                            msvc := (match msg with
                                              | some m => x.msvc.erase m
                                              | none => x.msvc) })).addF F.FIN_CNT.COUNT d [3] left.length
  match msg with
  | none => s2
  | some m => (if m.kind = 2 then s2.updNode d m.node (fun x => { x with chalFn := s.fn d }) else s2).slowSent m

/-! ### Slots as they are sent (R488, R489) -/

/-- A list of bytes of length n, cut or filled with 0. -/
def fillTo (n : Nat) (l : List Byte) : List Byte := l.take n ++ List.replicate (n - l.length) 0

/-- The 18-bit words of a block, each most significant bit first, as bytes. -/
def wordBytes (ws : List W18) : List Byte :=
  let bits := (fillWords ws).flatMap (fun w => (List.range 18).map (fun i => w.getLsbD (17 - i)))
  (List.range 288).map (fun i => BitVec.ofNat 8 ((List.range 8).foldl (fun a j => 2 * a + (bits.getD (8 * i + j) false).toNat) 0))
where fillWords (l : List W18) : List W18 := l.take 128 ++ List.replicate (128 - l.length) 0

/-- A slot as it is sent: its TYPE, node, stream, SENT, BSEQ and body. -/
structure SlotTx where
  ty : Nat
  node : Nat := 0
  strm : Nat := 0
  sent : Nat := 0
  bseq : Nat := 0
  body : List Byte := []

/-- What a slot carries. -/
def FinTx.slotTx : FinTx → SlotTx
  | .cycle fn rate fper s tgen table =>
    { ty := 1, body := beBytes 6 fn ++ beBytes 1 (rate * 4 + fper) ++ [0] ++ beBytes 2 s ++ beBytes 2 tgen ++ beBytes 4 0 ++
        table.flatMap (fun p => beBytes 2 p.1 ++ beBytes 2 p.2) }
  | .mctl grants states =>
    { ty := 2, body := grants.flatMap (fun p => beBytes 2 p.1 ++ beBytes 2 p.2) ++
        (List.range 32).map (fun i => BitVec.ofNat 8 (states.getD (2 * i) 0 * 16 + states.getD (2 * i + 1) 0)) }
  | .msvc (some m) => { ty := 3, body := beBytes 1 m.node ++ beBytes 1 m.kind ++ beBytes 2 m.data.length ++ m.data }
  | .msvc none => { ty := 3 }
  | .carrier _ node strm sent bseq ws => { ty := 5, node := node, strm := strm, sent := sent, bseq := bseq, body := wordBytes ws }

/-- The place of a slot in the train. -/
def FinTx.place : FinTx → Nat
  | .cycle .. => 0 | .mctl .. => 1 | .msvc _ => 2 | .carrier i .. => i

/-- Slot i of a train in one direction, in cycle `fn`: the header with DIR, the body, and the CRC-32C over both with header byte 1 taken as 0 (R488). -/
def SlotTx.bytes (x : SlotTx) (dirB : Bool) (fn i : Nat) : List Byte :=
  let head (b1 : Nat) : List Byte := beBytes 1 (x.ty * 16 + 1) ++ beBytes 1 b1 ++ beBytes 1 x.node ++ beBytes 1 x.strm ++ beBytes 2 i ++
    beBytes 2 (fn % 65536) ++ beBytes 2 x.sent ++ beBytes 2 x.bseq ++ beBytes 4 0
  let body := fillTo 288 x.body
  let crc := crcBytes 0xFFFFFFFF#32 ((head 0 ++ body).map BitVec.toNat) ^^^ 0xFFFFFFFF#32
  head (dirB.toNat * 128) ++ body ++ beBytes 4 crc.toNat

/-- The whole train: what the part sends in its slots, and EMPTY in every other. -/
def trainBytes (l : List FinTx) (dirB : Bool) (fn n : Nat) : List (List Byte) :=
  (List.range n).map (fun i => (((l.find? (fun x => decide (x.place = i))).map FinTx.slotTx).getD { ty := 0 }).bytes dirB fn i)

/-- In the RING part of TEST, count the nodes of which a slot of the cycle arrived in one direction only (R553). -/
def State.countOneSided (s : State) (d : Nat) : State :=
  let on := match s.pkg.test with
    | some t => t.started && decide (t.mask / 16 % 2 = 1)
    | none => false
  if on = false ∨ s.f F.FIN_STAT.BREAK d [] = 1 then s
  else
    let r := (s.die d).ring
    let nodes (l m : List Nat) : List Nat := ((l.filter (fun i => !m.contains i)).filterMap (s.slotOwner d)).eraseDups
    let add (dir : Nat) (l : List Nat) (m : Store Nat) : Store Nat := l.foldl (fun m n => m.set 0 (2 * n + dir) (m.get 0 (2 * n + dir) + 1)) m
    s.updFin d (fun x => { x with oneSided := add 1 (nodes r.seenB r.seenA) (add 0 (nodes r.seenA r.seenB) x.oneSided) })

/-- FIN_TRAIN_START (R486, R487): a train starts in one direction. `delay` is the measured ring delay of the direction's previous
train, when it returned. -/
def execFinTrainStart (die : DieNo) (dirB : Bool) (delay : Option (BitVec 16)) (s : State) : Host.Outcome State Fault Refusal :=
  let d := die.val
  let r := (s.die d).ring
  if s.live d = false then .next s
  else if s.f F.FIN_STAT.RUN d [] = 0 ∨ s.fa F.FIN_CFG.S d [] = 0 ∨ (if dirB then r.startedB else r.startedA) = true then .next s
  else
    let s1 := if r.startedA || r.startedB then s else (s.countOneSided d).buildTrain d
    let ret := if dirB then F.FIN_STAT.BRET else F.FIN_STAT.ARET
    let rd := if dirB then F.FIN_RDLY.RDB else F.FIN_RDLY.RDA
    let s2 := s1.setF ret d [] delay.isSome.toNat
    let s3 := match delay with
      | none => s2
      | some v =>
        let t := s2.setF rd d [] v.toNat
        if 40000 < v.toNat then t.finEvent (some F.FIN_EV.RDLONG) 0x119 d [(t.reg .FIN_RDLY d []).toNat] else t
    .next (s3.updFin d (fun x => { x with startedA := x.startedA || !dirB, startedB := x.startedB || dirB
                                          sent := x.sent ++ [⟨dirB, trainBytes (x.train.getD []) dirB (s.fn d) (s.finSlots d)⟩] }))

/-! ### Slots received (R491 to R497, R501, R502) -/

/-- A hostile sign of R501 in this frame; the first one gives the cause. -/
def State.hostile (s : State) (d n cause : Nat) : State :=
  s.updNode d n (fun x => { x with hostile := if x.hostile = 0 then cause else x.hostile })

/-- Check 1 failed (R502). -/
def State.impostor (s : State) (d : Nat) (x : FinSlot) : State :=
  let hop (n : Nat) : Nat := s.f (if x.dirB then F.FIN_NST.HOPB else F.FIN_NST.HOPA) d [n]
  let v : W32 := BitVec.ofNat 32 (x.dirB.toNat * 2147483648 + x.node.val * 16777216 + x.hop.toNat * 65536 + x.slot.toNat)
  let s1 := (s.setReg .FIN_IMP d [] v).finEvent (some F.FIN_EV.IMPERS) 0x118 d [v.toNat]
  match (List.range 64).find? (fun n => decide (hop n = x.hop.toNat ∧ n ≠ x.node.val)) with
  | some n => s1.hostile d n 5
  | none => s1

def State.finDiscard (s : State) (d : Nat) : State := s.incF F.FIN_CNT.COUNT d [2]

/-- The message bytes of a challenge's answer (R496): nonce, node number, identity and FN, most significant byte first. -/
def challengeText (nonce : BitVec 256) (n : Nat) (ident : List Byte) (fn : Nat) : List Byte :=
  ((List.range 32).map (fun i => (nonce >>> (8 * (31 - i))).setWidth 8)) ++ [BitVec.ofNat 8 n] ++ ident ++
    ((List.range 6).map (fun i => BitVec.ofNat 8 (fn / 256 ^ (5 - i))))

/-- The 32 bytes of a 256-bit value, most significant first. -/
def bytes32 (x : BitVec 256) : List Byte := (List.range 32).map (fun i => (x >>> (8 * (31 - i))).setWidth 8)

/-- A service message in an accepted NCTL (R483, R496, R497). -/
def State.nctlMsg (s : State) (d n : Nat) (x : FinSlot) (b : Nctl) : State :=
  if b.kind = 1#8 then
    if s.nodeState d n ≠ 0 ∨ s.fa F.FIN_NCFG.V d [n] = 0 then s
    else if s.keyType d (s.fa F.FIN_NCFG.KEY d [n]) 3 = false then s.raise F.FIN_EV.KEYBAD d []
    else s.updNode d n (fun y => { y with join := some (b.data.take 8) })
  else if b.kind = 2#8 then
    if s.nodeState d n ≠ 2 then s
    else
      let y := s.node d n
      let ok := decide (b.data.take 32 = bytes32 (Config.hmacSha256 y.key (challengeText y.nonce n y.ident y.chalFn)))
      let s1 := s.updNode d n (fun z => { z with answer := some ok })
      if ok then s1 else s1.hostile d n 1
  else if 128 ≤ b.kind.toNat then
    let k := if x.dirB then 0 else 1
    let p := s.f F.LNK_SPR.HP d [k]
    let r := s.f F.LNK_SPR.RING d [k]
    if s.f F.LNK_SPR.EN d [k] = 0 ∨ s.live p = false ∨ s.takesPart p r = false ∨ s.ringType p r ≠ 5 ∨ s.waiting p r = 0 then s.lnkCount d k 3 1
    else
      let len := b.data.length + 2
      (s.emit p (.slowRx r (s.dev p r) len (2 * d + k) (s.ring p r).phase (decide (x.cap < len)) none)).step1 p r
  else s

/-- A copy of a slot passed its checks and is kept (R491), of the last train, or of the one before where `old`. -/
def State.keepSlot (s : State) (d i : Nat) (old : Bool) : State :=
  s.updFin d (fun y => if old then { y with keptOld := i :: y.keptOld } else { y with kept := i :: y.kept })

/-- The newer of two values (R492). -/
def newest (w a b : Nat) : Nat := if newer w a b then a else b

/-- The node after an accepted LEASH. -/
def FinNode.takeLeash (x : FinNode) (v : Nat) (old : Bool) : FinNode :=
  let up (o : Option Nat) : Option Nat := some (match o with
    | some l => newest 32 v l
    | none => v)
  { x with leashNow := up x.leashNow, leash := if old then up x.leash else x.leash }

/-- The node after an accepted SENT. -/
def FinNode.takeSent (x : FinNode) (v : Nat) (old : Bool) : FinNode :=
  { x with sentNow := newest 16 v x.sentNow, sentHi := if old then newest 16 v x.sentHi else x.sentHi }

/-- An NCTL that passes the first two checks. -/
def State.nctlRx (s : State) (d n : Nat) (x : FinSlot) (b : Nctl) (cycle : Nat) (first old : Bool) : State :=
  let y := s.node d n
  let fresh := match (if old then y.leashOld else y.leash) with
    | none => true
    | some l => newer 32 b.leash.toNat l
  if x.fnlo.toNat ≠ cycle % 65536 ∨ fresh = false then s.hostile d n 2
  else if first = false then s.incF F.FIN_CNT.COUNT d [1]
  else
    let s1 := (s.keepSlot d x.slot.toNat old).updNode d n (fun z =>
      { z.takeLeash b.leash.toNat old with nctl := true, ret := if newer 16 b.ret.toNat z.ret then b.ret.toNat else z.ret })
    (s1.showCred d n).nctlMsg d n x b

/-- A carrier that passes checks 1 to 6 lands, and its copy is kept (R491, R492, R318, R320); one that is late says so (R83, R487). One that its collar
drops, or that finds no LOANED block, changes no block's state. -/
def State.landCarrier (s : State) (d n g : Nat) (x : FinSlot) (ws : List W18) (late old : Bool) : State :=
  let (s1, ok) := s.charge g
  let acct := 16 + n
  if ok = false then
    ((s1.dropCount d 3).flowDrop (some g) 1).updNode d n (fun y => { y with colDrop := true })
  else match s1.loanOf d acct with
    | none => ((s.dropCount d 4).flowDrop (some g) 1).hostile d n 6
    | some h =>
      let c := blkCount ws
      let body := mkBlock (blkE ws) ((ws.drop 4).take c) g (s.fn d) (blkChan ws) (blkSeg ws) (if late then 2 else 0) 0
      let q := 131072 * d + (s.flow g).qbase
      let s2 := (if late then s1.incF F.KEN_LATE.COUNT d [] else s1).keepSlot d x.slot.toNat old
      (((((s2.writeBlk d h body).pend d q h).blkIn g).seqIn g x.bseq.toNat).updNode d n (fun y => y.takeSent x.sent.toNat old)).refill d

/-- A carrier that passes the first two checks (R492). -/
def State.carrierRx (s : State) (d n : Nat) (x : FinSlot) (ws : List W18) (cycle : Nat) (first old : Bool) : State :=
  let y := s.node d n
  let r := (s.die d).ring
  let f := s.perFrame
  let emin := (BitVec.ofNat 6 (s.fa F.FIN_NCFG.EMIN d [n])).toInt
  let emax := (BitVec.ofNat 6 (s.fa F.FIN_NCFG.EMAX d [n])).toInt
  if x.fnlo.toNat ≠ cycle % 65536 ∨ newer 16 x.sent.toNat (if old then y.sentOld else y.sentHi) = false then s.hostile d n 2
  else if 32768 ≤ ((if old then r.grantsOld else r.grants).get 0 n + 65536 - x.sent.toNat) % 65536 then s.hostile d n 6
  else match s.finFlow d n x.strm.toNat with
    | none => s.finDiscard d
    | some g =>
      if blkCount ws ≠ f / segsOf f ∨ blkE ws < emin ∨ emax < blkE ws ∨ (s.flow g).nchan ≤ blkChan ws ∨ segsOf f ≤ blkSeg ws then s.hostile d n 3
      else if first = false then s.incF F.FIN_CNT.COUNT d [1]
      else s.landCarrier d n g x ws (decide (cycle ≠ s.fn d)) old

/-- FIN_SLOT_RECEIVE (R487, R491, R492): one copy of a slot arrives; `good` says whether its CRC passes. A slot belongs to the cycle whose train
started last, or to the one before where `old` says that its train is that one. -/
def execFinSlotReceive (die : DieNo) (x : FinSlot) (good old : Bool) (s : State) : Host.Outcome State Fault Refusal :=
  let d := die.val
  let i := x.slot.toNat
  if s.live d = false then .next s
  else if s.f F.FIN_STAT.RUN d [] = 0 then .next s
  else match s.slotOwner d i with
    | none => .next (if good then s else s.incF F.FIN_CNT.COUNT d [0])
    | some n =>
      if good = false then .next ((s.incF F.FIN_CNT.COUNT d [0]).incF F.FIN_NCRC.COUNT d [n])
      else
        let r := (s.die d).ring
        let back := (if r.startedA || r.startedB then 0 else 1) + old.toNat
        let cycle := (s.fn d + 281474976710656 - back) % 281474976710656
        let isNctl := decide (i < 67)
        let rec_ := s.f (if x.dirB then F.FIN_NST.HOPB else F.FIN_NST.HOPA) d [n]
        let s1 := if old then s else s.updFin d (fun y => { y with seenA := if x.dirB then y.seenA else i :: y.seenA, seenB := if x.dirB then i :: y.seenB else y.seenB })
        let s2 := if isNctl && decide (x.node.val = n) then s1.updNode d n (fun y =>
            if x.dirB then { y with hopB := some x.hop.toNat } else { y with hopA := some x.hop.toNat })
          else s1
        let st := s.nodeState d n
        let first := !(if old then r.keptOld else r.kept).contains i
        if x.body = .empty then .next s2
        else if x.node.val ≠ n ∨ (rec_ ≠ 127 ∧ rec_ ≠ x.hop.toNat) then .next (s2.impostor d x)
        else
          match x.body with
          | .empty => .next s2
          | .nctl b => .next (if isNctl = false then s2.finDiscard d else if st = 5 then s2 else s2.nctlRx d n x b cycle first old)
          | .carrier ws => .next (if isNctl || !s.finActive d n then s2.finDiscard d else s2.carrierRx d n x ws cycle first old)

/-! ### Partner states at a tick (R493, R496, R498 to R503) -/

/-- The transition that R498 gives, in its order, and the state entered. -/
def State.nodeNext (s : State) (d n : Nat) (x : FinNode) (miss : Nat) : Option Nat :=
  let st := s.nodeState d n
  let thr (f : Fld) : Nat := s.f f d []
  if s.fa F.FIN_NCFG.V d [n] = 0 ∧ st ≠ 0 then some 0
  else if x.hostile ≠ 0 ∧ st ≠ 5 then some 5
  else if st = 5 ∧ x.readmit = true then some 0
  else if 1 ≤ st ∧ st ≤ 4 ∧ thr F.FIN_THR.LEASH ≤ miss then some 0
  else if st = 2 ∧ x.answer = none ∧ thr F.FIN_THR.AUTHTO ≤ x.age then some 0
  else if st = 2 ∧ x.answer = some true then some 3
  else if st = 1 then some (if s.fa F.FIN_NCFG.AUTH d [n] = 1 then 2 else 3)
  else if st = 0 ∧ x.join.isSome = true then some 1
  else if st = 3 ∧ thr F.FIN_THR.SLOW ≤ x.slowRun then some 4
  else if st = 4 ∧ 16 ≤ x.okRun then some 3
  else none

def State.sendMsvc (s : State) (d : Nat) (m : Msvc) : State := s.updFin d (fun r => { r with msvc := r.msvc ++ [m] })

/-- A node enters a state (R496, R498, R499). -/
def State.nodeEnter (s : State) (d n st : Nat) : State :=
  let x := s.node d n
  let s1 := s.setF F.FIN_NST.STATE d [n] st
  match st with
  | 0 => s1.finEvent (some F.FIN_EV.ABSENTEV) 0x112 d [n]
  | 1 =>
    let s2 := (s1.setF F.FIN_NST.HOPA d [n] (x.hopA.getD 127)).setF F.FIN_NST.HOPB d [n] (x.hopB.getD 127)
    (s2.updNode d n (fun y => { y with ident := x.join.getD [] })).finEvent (some F.FIN_EV.JOINEV) 0x110 d [n]
  | 2 =>
    let nonce := Config.nonce s.fresh
    let key := (s.die d).keys.get [] (s.fa F.FIN_NCFG.KEY d [n])
    let s2 := (s1.useFree 1).updNode d n (fun y => { y with nonce := nonce, chalFn := s.fn d, key := key, age := 0, answer := none })
    s2.sendMsvc d ⟨n, 2, bytes32 nonce, none⟩
  | 3 => ((s1.finEvent none 0x111 d [n]).sendMsvc d ⟨n, 1, [], none⟩)
  | 4 => s1.finEvent (some F.FIN_EV.SLOWEV) 0x113 d [n]
  | _ =>
    (((s1.setF F.FIN_NST.CAUSE d [n] x.hostile).finEvent (some F.FIN_EV.QUAR) 0x115 d [n, x.hostile])).sendMsvc d
      ⟨n, 3, [BitVec.ofNat 8 x.hostile], none⟩

/-- One node at a tick. -/
def State.nodeTick (s : State) (d n : Nat) : State :=
  let x := s.node d n
  let miss := if x.nctl then 0 else min 15 (s.f F.FIN_NST.MISS d [n] + 1)
  let col := if x.colDrop then min 255 (s.f F.FIN_NCRED.COLRUN d [n] + 1) else 0
  let y := { x with slowRun := if x.waited then x.slowRun + 1 else 0, okRun := if x.waited then 0 else x.okRun + 1, age := x.age + 1
                    hostile := if x.hostile = 0 ∧ x.colDrop = true ∧ s.f F.FIN_THR.COL d [] ≤ col then 4 else x.hostile }
  let s1 := ((s.setF F.FIN_NST.MISS d [n] miss).setF F.FIN_NCRED.COLRUN d [n] col).updNode d n (fun _ => y)
  let s2 := if x.waited then s1.incF F.FIN_NLATE.COUNT d [n] else s1
  let s3 := match s.nodeNext d n y miss with
    | some st => s2.nodeEnter d n st
    | none => s2
  s3.updNode d n (fun z => { z with nctl := false, join := none, answer := none, hostile := 0, waited := false, colDrop := false, readmit := false })

/-- The position of a node, known from HOPB recorded at join (R493). -/
def State.position (s : State) (d n : Nat) : Option Nat :=
  let h := s.f F.FIN_NST.HOPB d [n]
  if h = 127 ∨ s.fa F.FIN_NCFG.V d [n] = 0 then none else some (h + 1)

/-- REACH0, REACH1 and BREAK from the NCTLs of the last cycle (R493). -/
def State.reachTick (s : State) (d : Nat) : State :=
  let pos := (List.range 64).filterMap (fun n => (s.position d n).map (fun p => (p, n)))
  let top := pos.foldl (fun m p => max m p.1) 0
  let hit (b : Bool) (p : Nat) : Bool := pos.any (fun q => decide (q.1 = p) &&
    (if b then (s.node d q.2).hopB.isSome else (s.node d q.2).hopA.isSome))
  let r0 := ((List.range top).takeWhile (fun i => hit true (i + 1))).length
  let r1 := ((List.range top).takeWhile (fun i => hit false (top - i))).length
  let was := s.f F.FIN_STAT.BREAK d []
  let s1 := (s.setF F.FIN_BRK.REACH0 d [] r0).setF F.FIN_BRK.REACH1 d [] r1
  if r0 < top ∨ r1 < top then
    if was = 1 then s1 else (s1.raise F.FIN_STAT.BREAK d []).finEvent (some F.FIN_EV.BREAKEV) 0x116 d [r0, r1]
  else if was = 1 then (s1.setF F.FIN_STAT.BREAK d [] 0).finEvent none 0x117 d [r0, r1]
  else s1

/-- DEG of every node (R498). -/
def State.degUpdate (s : State) (d : Nat) : State :=
  let s1 := (List.range 64).foldl (fun t n =>
    let c := t.f F.FIN_NCRC.COUNT d [n]
    let grown := decide (t.f F.FIN_THR.DEGTHR d [] ≤ c - (t.node d n).crcBase)
    let was := t.f F.FIN_NST.DEG d [n]
    let u := (t.setF F.FIN_NST.DEG d [n] grown.toNat).updNode d n (fun x => { x with crcBase := c })
    if grown && decide (was = 0) then u.finEvent (some F.FIN_EV.DEG) 0x114 d [n] else u) s
  s1.updFin d (fun r => { r with degDone := true })

/-- DEG_UPDATE (R498), for the tick at which FN mod 1,000 = 0. -/
def execDegUpdate (die : DieNo) (s : State) : Host.Outcome State Fault Refusal :=
  let d := die.val
  if s.live d = false ∨ (s.die d).phase ≠ .guard ∨ (s.fn d + 1) % 1000 ≠ 0 ∨ (s.die d).ring.degDone = true then .next s
  else .next (s.degUpdate d)

/-- The rings of a die at a tick. -/
def State.finTick (s : State) (d : Nat) : State :=
  let s1 := (s.setRun d).setF F.FIN_ADMIT.GO d [] 0
  let s2 := (List.range 64).foldl (fun t n => t.nodeTick d n) s1
  let s3 := s2.reachTick d
  let s4 := if s.fn d % 1000 = 0 ∧ (s.die d).ring.degDone = false then s3.degUpdate d else s3
  let s5 := s4.setF F.FIN_STAT.NACT d [] ((List.range 64).filter (fun n => s4.finActive d n)).length
  let s6 := { s5 with fin := s5.fin.filterMap (fun (p : Nat × FinNode) =>
    let y : FinNode := if p.1 / 64 = d then { p.2 with hopA := none, hopB := none } else p.2
    if y = ({} : FinNode) then none else some (p.1, y)) }
  let idle := decide (s.f F.FIN_STAT.RUN d [] = 0 ∨ s.fa F.FIN_CFG.S d [] = 0)
  let s7 := if idle then (s6.setF F.FIN_STAT.ARET d [] 0).setF F.FIN_STAT.BRET d [] 0 else s6
  s7.updFin d (fun r => { r with train := none, startedA := false, startedB := false, degDone := false })

end Sys2Proof.Machine
end

