-- ==== Sys2Proof/Machine/Tdm.lean ====
section
/-! DEFINITION. TDM ports (R470 to R473, R504 to R507), with both port maps during the handover (R419, R420). -/

namespace Sys2Proof.Machine

def State.tdm (s : State) (d k : Nat) : Tdm := (s.die d).tdms.get {} k

def State.updTdm (s : State) (d k : Nat) (f : Tdm → Tdm) : State :=
  s.setDie d { s.die d with tdms := (s.die d).tdms.set {} k (f (s.tdm d k)) }

/-- An event of a TDM port (R508). -/
def State.tdmEvent (s : State) (x : Fld) (code d k : Nat) (ps : List Nat) : State :=
  (s.raise x d [k]).event code d 4 ((4 * d + k) :: ps)

/-- The map of a slot (R507): input or output, channel and flow. -/
structure SlotMap where
  out : Bool
  ch : Nat
  fid : Nat
  deriving DecidableEq, Repr

/-- The slots of a port (R504): two in I2S mode, SLOTS in TDM mode. -/
def State.tdmSlots (s : State) (d k : Nat) : Nat := if s.f F.TDM_CTL.MODE d [k] = 0 then 2 else s.f F.TDM_CTL.SLOTS d [k]

/-- The active entry of a slot in a map; a slot numbered SLOTS or above is not used. -/
def State.slotMap (s : State) (early : Bool) (d k i : Nat) : Option SlotMap :=
  let v := mapAct (s.mapRegs early) .TDM_SMAP d [k, i]
  if v.getLsbD 31 = true ∧ i < s.tdmSlots d k then some ⟨v.getLsbD 30, field v 29 24, field v 12 0⟩ else none

/-- The lowest input slot of a port that names a flow (R507). -/
def State.firstSlot (s : State) (early : Bool) (d k fid : Nat) : Option Nat :=
  (List.range 16).find? (fun i => match s.slotMap early d k i with
    | some m => !m.out && decide (m.fid = fid)
    | none => false)

/-- Whether an entry's flow is as its section requires (R472, R473, R507). -/
def State.slotOk (s : State) (early : Bool) (d k : Nat) (m : SlotMap) : Bool :=
  let p := s.flow (8192 * d + m.fid)
  decide (m.ch < p.nchan) &&
  (if m.out then s.egressOk d m.fid
   else match s.firstSlot early d k m.fid with
    | some i => s.ingressOk d m.fid 3 (16 * k + i) && decide (p.fmt = 2)
    | none => false)

/-- The port carries samples: it runs, as master or locked to FS (R505, R506). -/
def State.tdmOn (s : State) (d k : Nat) : Bool :=
  decide (s.f F.TDM_STAT.RUN d [k] = 1) && (decide (s.f F.TDM_CTL.MASTER d [k] = 1) || decide (s.f F.TDM_STAT.LOCK d [k] = 1))

/-- An FS edge at position 0 (R505): in slave mode the second in two ticks makes LOCK 1 at once. -/
def State.tdmEdge (s : State) (d k pos : Nat) : State :=
  let x := s.tdm d k
  if pos ≠ 0 ∨ x.seen = true then s
  else
    let s1 := s.updTdm d k (fun y => { y with seen := true, edges := x.edges + 1 })
    if s.f F.TDM_CTL.MASTER d [k] = 0 ∧ s.f F.TDM_STAT.RUN d [k] = 1 ∧ 1 ≤ x.edges then s1.setF F.TDM_STAT.LOCK d [k] 1 else s1

/-- One sample at an entering index, or late (R471). -/
def State.tdmPlace (s : State) (d k : Nat) (m : SlotMap) (idx : Nat) (w : Int) : State :=
  if idx < s.openFrom d then s.incF F.TDM_LATE.COUNT d [k] else s.takeSample d m.fid idx m.ch w

/-- The slip of an FS period, which only a slave has (R506). -/
def State.slipOf (s : State) (d k : Nat) (slip : Slip) : Slip := if s.f F.TDM_CTL.MASTER d [k] = 1 then .none else slip

/-- A slip (R506), counted once for its FS period, whichever of its slots tells it. -/
def State.tdmSlip (s : State) (d k pos : Nat) (slip : Slip) : State :=
  if slip = .none ∨ (s.tdm d k).slipAt = some pos then s
  else ((s.updTdm d k (fun x => { x with slipAt := some pos })).incF F.TDM_SLIP.COUNT d [k]).tdmEvent F.TDM_EV.SLIP 0x120 d k []

/-- TDM_INPUT_SLOT (R470, R471, R504 to R507): slot `slot` of the FS period at `pos` samples after the tick. -/
def execTdmInputSlot (die : DieNo) (k : Fin 4) (slot : Fin 16) (pos : Fin 192) (slip : Slip) (word : W32) (s : State) :
    Host.Outcome State Fault Refusal :=
  let d := die.val
  let k := k.val
  if s.live d = false then .next s
  else if s.f F.TDM_CTL.EN d [k] = 0 ∨ s.tdmSlots d k ≤ slot.val then .next s
  else
    let s1 := s.tdmEdge d k pos.val
    if s1.tdmOn d k = false then .next s1
    else
      let slip := s.slipOf d k slip
      let s2 := s1.tdmSlip d k pos.val slip
      let idx := (s.die d).msc + pos.val + 1
      let at_ : List Nat := match slip with
        | .none => [idx]
        | .repeated => [idx, idx + 1]
        | .dropped => []
      let place (t : State) (early : Bool) : State := match t.slotMap early d k slot.val with
        | some m => if !m.out && t.slotOk early d k m then at_.foldl (fun u i => u.tdmPlace d k m i word.toInt) t else t
        | none => t
      let full := s2.slotMap false d k slot.val
      .next (s2.maps.foldl (fun t m => if m && decide (t.slotMap true d k slot.val = full) then t else place t m) s2)

/-- The source of an output slot in a map. -/
def State.slotSrc (s : State) (early : Bool) (d k i : Nat) : Option (Nat × Nat) :=
  match s.slotMap early d k i with
  | some m => if m.out && s.slotOk early d k m then some (m.fid, m.ch) else none
  | none => none

/-- The index of the sample that an output slot sends in FS period i: the one that left a period before; with a slip, that of the period before again, or
that of the next, one being left out (R470, R506; DESIGN CHOICE for the numbering, log entry 188). -/
def outIndex (i : Nat) : Slip → Nat
  | .none => i - 1
  | .repeated => i - 2
  | .dropped => i

/-- TDM_OUTPUT_SLOT (R420, R470, R472, R504 to R507): period MSC + pos sends the sample that left one period before. -/
def execTdmOutputSlot (die : DieNo) (k : Fin 4) (slot : Fin 16) (pos : Fin 192) (slip : Slip) (s : State) : Host.Outcome State Fault Refusal :=
  let d := die.val
  let k := k.val
  if s.live d = false then .next s
  else if s.f F.TDM_CTL.EN d [k] = 0 ∨ s.tdmSlots d k ≤ slot.val then .next s
  else
    let s1 := s.tdmEdge d k pos.val
    let drive (t : State) (w : W32) : State := t.updTdm d k (fun x => { x with sent := x.sent ++ [(slot.val, w)] })
    if s1.tdmOn d k = false then .next (drive s1 0)
    else
      let slip := s.slipOf d k slip
      let s3 := s1.tdmSlip d k pos.val slip
      let a := if s.pkg.early.isSome then s.slotSrc true d k slot.val else none
      let b := s.slotSrc false d k slot.val
      let (v, sat) := sendSample 2 (s.sendAt d a b (outIndex ((s.die d).msc + pos.val) slip))
      let s2 := match sourceFlow a b, sat with
        | some fid, true => s3.satOut (8192 * d + fid) 1
        | _, _ => s3
      .next (drive s2 (BitVec.ofInt 32 v))

/-- TDM_FS_LOSS (R506): no FS edge for two sample periods. -/
def execTdmFsLoss (die : DieNo) (k : Fin 4) (s : State) : Host.Outcome State Fault Refusal :=
  let d := die.val
  if s.live d = false then .next s
  else if s.f F.TDM_CTL.EN d [k.val] = 0 ∨ s.f F.TDM_CTL.MASTER d [k.val] = 1 then .next s
  else .next (((s.setF F.TDM_STAT.LOCK d [k.val] 0).updTdm d k.val (fun x => { x with edges := 0, seen := false })).tdmEvent F.TDM_EV.LOSS 0x121 d
    k.val [])

/-- A TDM port at a tick: RUN, LOCK and MAPBAD (R473, R505). Edges at position 0 count only in consecutive frames. -/
def State.tdmTick (s : State) (d k : Nat) : State :=
  let x := s.tdm d k
  let on := decide (s.f F.TDM_CTL.EN d [k] = 1)
  let slave := decide (s.f F.TDM_CTL.MASTER d [k] = 0)
  let n := if on && slave && x.seen then x.edges else 0
  let s1 := (s.updTdm d k (fun y => { y with edges := n, seen := false, slipAt := none })).setF F.TDM_STAT.RUN d [k] on.toNat
  let s2 := s1.setF F.TDM_STAT.LOCK d [k] (if on && slave && decide (s.f F.TDM_STAT.LOCK d [k] = 1) then 1 else 0)
  let bad := (List.range 16).find? (fun i => match s.slotMap false d k i with
      | some m => !s.slotOk false d k m
      | none => false)
  match bad with
  | some i => if s2.f F.TDM_EV.MAPBAD d [k] = 1 then s2 else s2.tdmEvent F.TDM_EV.MAPBAD 0x104 d k [i]
  | none => s2

/-- The flows whose blocks a TDM port closes at the guard, with their loan accounts (R471). -/
def State.tdmRxFlows (s : State) (d k : Nat) : List (Nat × Nat) :=
  if s.f F.TDM_CTL.EN d [k] = 0 then []
  else s.maps.flatMap (fun m => (List.range 16).filterMap (fun i => match s.slotMap m d k i with
    | some e => if !e.out && s.slotOk m d k e then some (e.fid, 10 + k) else none
    | none => none))

/-- The flows that a TDM port sends (R472). -/
def State.tdmTxFlows (s : State) (d k : Nat) : List (Nat × Bool) :=
  if s.f F.TDM_CTL.EN d [k] = 0 then []
  else s.maps.flatMap (fun m => (List.range 16).filterMap (fun i => (s.slotSrc m d k i).map (fun x => (x.1, true))))

/-- At the guard every ETH and TDM port closes its blocks of the frame (R471). -/
def State.closePorts (s : State) (d : Nat) : State :=
  let l := [0, 1].flatMap (s.rxFlows d) ++ [0, 1, 2, 3].flatMap (s.tdmRxFlows d)
  let fids := (l.map Prod.fst).eraseDups
  fids.foldl (fun t fid => match l.find? (fun p => decide (p.1 = fid)) with
    | some (_, acct) => t.closeFlowBlocks d fid acct
    | none => t) s

/-- At a tick every ETH and TDM port takes its egress blocks (R468, R472). -/
def State.egressPorts (s : State) (d : Nat) : State :=
  let l := [0, 1].flatMap (s.txFlows d) ++ [0, 1, 2, 3].flatMap (s.tdmTxFlows d)
  ((l.map Prod.fst).eraseDups).foldl (fun t fid => t.egressFlow d fid (l.any (fun p => decide (p.1 = fid) && p.2))) s

end Sys2Proof.Machine
end

