-- ==== Sys2Proof/Machine/Tmu.lean ====
section
/-! DEFINITION. The timer and measurement unit (R512 to R532). -/

namespace Sys2Proof.Machine

/-- The fixed part of a channel's state: 48-bit values, the prescaler, the compare condition and the toggled level. -/
def State.tmu (s : State) (d c : Nat) : Tmu := (s.die d).tmus.get {} c

def State.updTmu (s : State) (d c : Nat) (f : Tmu → Tmu) : State :=
  s.setDie d { s.die d with tmus := (s.die d).tmus.set {} c (f (s.tmu d c)) }

/-- COUNT and CAP (R523). -/
def State.tmuCount (s : State) (d c : Nat) : Nat := s.f F.TMU_CNTHI.HI d [c] * 4294967296 + s.f F.TMU_CNTLO.LO d [c]

def State.setCount (s : State) (d c n : Nat) : State :=
  (s.setReg .TMU_CNTLO d [c] (BitVec.ofNat 32 n)).setF F.TMU_CNTHI.HI d [c] (n / 4294967296)

def State.setCap (s : State) (d c n : Nat) : State :=
  (s.setReg .TMU_CAPLO d [c] (BitVec.ofNat 32 n)).setF F.TMU_CAPHI.HI d [c] (n / 4294967296)

/-- Set flags by TMU_STAT bit, with one interrupt where TMU_IRQ asks for it (R527, R530). -/
def State.tmuFlags (s : State) (d c : Nat) (bits : List Nat) : State :=
  let s1 := s.setReg .TMU_STAT d [c] (bits.foldl (fun v i => v ||| BitVec.twoPow 32 i) (s.reg .TMU_STAT d [c]))
  if s.f F.TMU_IRQ.EN d [c] = 1 ∧ bits.any (fun i => (s.f F.TMU_IRQ.MASK d [c]).testBit i) = true then
    s1.interrupt d (s.f F.TMU_IRQ.ENG d [c]) (s.f F.TMU_IRQ.LINE d [c])
  else s1

/-- Whether the compare condition holds (R524). -/
def State.cmpHolds (s : State) (d c : Nat) : Bool :=
  decide ((s.tmuCount d c + 2 ^ 48 - (s.tmu d c).cmp) % 2 ^ 48 < 2 ^ 47)

/-- Evaluate the compare condition together with the flags of one event (R524, R528, R530). -/
def State.tmuEval (s : State) (d c : Nat) (bits : List Nat) : State :=
  let now := s.cmpHolds d c
  let fire := now && !(s.tmu d c).held
  let s1 := s.updTmu d c (fun x => { x with held := now, tog := if fire then !x.tog else x.tog })
  let l := if fire then 2 :: bits else bits
  if l.isEmpty then s1 else s1.tmuFlags d c l

/-- START takes effect (R516). -/
def State.tmuStart (s : State) (d c : Nat) : State :=
  let s1 := (s.setF F.TMU_CTL.START d [c] 0).setCount d c (s.tmu d c).ld
  let s2 := ((s1.setF F.TMU_STAT.DIR d [c] 0).raise F.TMU_STAT.RUN d [c]).updTmu d c (fun x => { x with acc := 0 })
  s2.tmuEval d c []

/-- What a count clock does: the new COUNT, DIR and RUN, and the flags set (R519, R521). -/
structure TmuMove where
  count : Nat
  down : Bool
  run : Bool
  flags : List Nat
  deriving DecidableEq, Repr

/-- The move of a count clock in a mode. -/
def tmuMove (mode count per : Nat) (down : Bool) : TmuMove :=
  if per = 0 ∧ count = 0 then ⟨0, false, decide (mode ≠ 2), [0]⟩
  else match mode with
    | 1 =>
      if down then (if count = 0 then ⟨1, false, true, [1]⟩ else ⟨count - 1, true, true, []⟩)
      else if count < per then ⟨count + 1, false, true, []⟩
      else if count = per then ⟨per - 1, true, true, [0]⟩
      else ⟨count - 1, true, true, [0]⟩
    | 2 => if count < per then ⟨count + 1, down, true, []⟩ else ⟨count, down, false, [0]⟩
    | _ => if count < per then ⟨count + 1, down, true, []⟩ else ⟨0, down, true, [0]⟩

/-- A count clock (R519 to R521, R524). -/
def State.countClock (s : State) (d c : Nat) : State :=
  let m := tmuMove (s.f F.TMU_CTL.MODE d [c]) (s.tmuCount d c) (s.tmu d c).per (decide (s.f F.TMU_STAT.DIR d [c] = 1))
  let s1 := ((s.setCount d c m.count).setF F.TMU_STAT.DIR d [c] m.down.toNat).setF F.TMU_STAT.RUN d [c] m.run.toNat
  s1.tmuEval d c m.flags

/-- One edge of the channel's source, `level` being TMU_IN[GPIN] and `st` the PKG_STATE that applies: the prescaler, the gate, and the count clock (R513,
R519, R520). -/
def State.sourceEdge (s : State) (d c st : Nat) (level : Bool) : State :=
  if s.f F.TMU_STAT.RUN d [c] = 0 then s
  else
    let div := s.f F.TMU_PRE.DIV d [c]
    let acc := (s.tmu d c).acc + 65536
    if acc < div then s.updTmu d c (fun x => { x with acc := acc })
    else
      let s1 := s.updTmu d c (fun x => { x with acc := acc - div })
      let gated := decide (s.f F.TMU_CTL.MODE d [c] = 3) && decide (st = 1 ∨ st = 4 ∨ st = 5)
      if gated && decide (level.toNat ≠ s.f F.TMU_CTL.GLVL d [c]) then s1 else s1.countClock d c

/-- A capture event (R525, R526). -/
def State.capture (s : State) (d c : Nat) : State :=
  let s1 := s.setCap d c (s.tmuCount d c)
  s1.tmuFlags d c (if s.f F.TMU_STAT.CAPF d [c] = 1 then [3, 4] else [3])

/-- An edge is one of the channel's source (R512). -/
def State.clocks (s : State) (d c : Nat) (src : TmuSrc) : Bool :=
  decide (s.f F.TMU_CTL.SRC d [c] = src.code) && (match src with
    | .pin p => decide (s.f F.TMU_CTL.SPIN d [c] = p.val)
    | _ => true)

/-- TMU_COUNT_CLOCK (R512, R513, R519): an edge between ticks, at which `level` is the level of TMU_IN[GPIN]; a channel with another source takes no
notice. The edge of SRC 011b is part of the tick. -/
def execTmuCountClock (die : DieNo) (c : Fin 16) (src : TmuSrc) (level : Bool) (s : State) : Host.Outcome State Fault Refusal :=
  if s.live die.val = false then .next s
  else if s.clocks die.val c.val src = false then .next s
  else .next (s.sourceEdge die.val c.val s.pkgState level)

/-- TMU_CAPTURE (R525): an edge of TMU_IN[pin]; a channel that does not select it takes no notice. -/
def execTmuCapture (die : DieNo) (c : Fin 16) (pin : Fin 4) (rising : Bool) (s : State) : Host.Outcome State Fault Refusal :=
  let d := die.val
  if s.live d = false then .next s
  else if s.f F.TMU_CTL.CAPSRC d [c.val] = (if rising then 2 else 3) ∧ s.f F.TMU_CTL.CPIN d [c.val] = pin.val then .next (s.capture d c.val)
  else .next s

/-- The write of TMU_CTL[c] (R516 to R518): `old` was there before, `v` is the new value with START and STOP as written. A STOP alone leaves a START that
waits for the tick waiting. -/
def State.writeTmuCtl (s : State) (d c : Nat) (old v : W32) : State :=
  let start := v.getLsbD 31
  let stop := v.getLsbD 30
  let keep : W32 := if s.f F.TMU_STAT.RUN d [c] = 1 then 0x07C0F800#32 else 0
  let w := ((v &&& ~~~keep) ||| (old &&& keep)) &&& 0x3FFFFFFF#32
  let s1 := s.setReg .TMU_CTL d [c] w
  if stop then
    let s2 := s1.setF F.TMU_STAT.RUN d [c] 0
    if !start && old.getLsbD 31 then s2.raise F.TMU_CTL.START d [c] else s2
  else if start || old.getLsbD 31 then
    if w.getLsbD 29 then s1.raise F.TMU_CTL.START d [c]
    else if start then s1.tmuStart d c else s1.raise F.TMU_CTL.START d [c]
  else s1

/-- A write of a HI register commits a wide value (R522): 0 PER, 1 CMP, 2 LD. -/
def State.tmuCommit (s : State) (d c which : Nat) : State :=
  let v (lo hi : Fld) : Nat := s.f hi d [c] * 4294967296 + s.f lo d [c]
  match which with
  | 0 => s.updTmu d c (fun x => { x with per := v F.TMU_PERLO.LO F.TMU_PERHI.HI })
  | 1 => (s.updTmu d c (fun x => { x with cmp := v F.TMU_CMPLO.LO F.TMU_CMPHI.HI })).tmuEval d c []
  | _ => s.updTmu d c (fun x => { x with ld := v F.TMU_LDLO.LO F.TMU_LDHI.HI })

/-- The channels of a die at a tick, `pins` being TMU_IN then: tick edges, starts with ATTICK, and tick captures (R512, R516, R525, R530). PKG_STATE is what it
was before the tick. -/
def State.tmuTick (s : State) (d : Nat) (pins : BitVec 4) : State :=
  (List.range 16).foldl (fun t c =>
    let t1 := if t.f F.TMU_CTL.START d [c] = 1 then t.tmuStart d c
      else if t.f F.TMU_CTL.SRC d [c] = 3 then t.sourceEdge d c s.pkg.stateWas (pins.getLsbD (t.f F.TMU_CTL.GPIN d [c])) else t
    if t1.f F.TMU_CTL.CAPSRC d [c] = 1 then t1.capture d c else t1) s

/-- The output level of a channel (R528). -/
def State.tmuLevel (s : State) (d c : Nat) : Bool :=
  match s.f F.TMU_CTL.OUTMODE d [c] with
  | 0 => false
  | 1 => (s.tmu d c).tog
  | 2 => decide (s.tmuCount d c < (s.tmu d c).cmp)
  | _ => decide ((s.tmu d c).cmp ≤ s.tmuCount d c)

/-- The level of ball TMU_OUT[n]; `none` is high impedance (R529, R594): a die that has stopped drives nothing, and until it is declared lost FD0 keeps
FD1 off a pin that its own TMU_OSEL enables. A pin that neither enables is low, but in OFF and in BOOT. -/
def State.tmuOut (s : State) (n : Nat) : Option Bool :=
  let en (d : Nat) : Bool := decide (s.f F.TMU_OSEL.EN d [n] = 1)
  let drives (d : Nat) : Option Bool := if (s.die d).stopped then none else some (s.tmuLevel d (s.f F.TMU_OSEL.CH d [n]))
  if s.pkgState = 0 then none
  else if en 0 && !s.lost 0 then drives 0
  else if en 1 && s.populated 1 && !s.lost 1 then drives 1
  else if s.pkgState = 1 then none
  else if s.live 0 then some false
  else if s.lost 0 && s.live 1 then some false
  else none

end Sys2Proof.Machine
end

