-- ==== Sys2Proof/Machine/Bus.lean ====
section
/-! DEFINITION. Reads and writes of the register map from a host port or an engine (R9 to R16, R45, R97, R250, R386, R408,
R425 to R432, R460, R511, R515, R568, R586, R617), and the commands that are writes of one register. -/

namespace Sys2Proof.Machine

/-! ### Values that a read computes (R22, R325, R350, R364, R365) -/

/-- The four words of QUE_VIEW of a queue, as the last queue-commit step left it (R364). -/
def State.queView (s : State) (g i : Nat) : W32 :=
  let q := s.que g
  let p := s.qparam g
  match i with
  | 0 => match s.flowOf g with
    | some f => BitVec.ofNat 32 (2147483648 + q.bp.toNat * 1073741824 + p.policy.toNat * 268435456 + f % 8192)
    | none => BitVec.ofNat 32 (q.bp.toNat * 1073741824 + p.policy.toNat * 268435456)
  | 1 => BitVec.ofNat 32 (p.dlim.toNat * 65536 + p.alim.toNat)
  | 2 => BitVec.ofNat 32 (q.pendN % 65536 * 65536 + q.depN % 65536)
  | _ => BitVec.ofNat 32 q.oldN

/-- Word i of the context image of a flow, from the active or the shadow table, as the last queue-commit step left it (R365). -/
def State.flowView (s : State) (g : Nat) (shadow : Bool) (i : Nat) : W32 :=
  let p := if shadow then s.flViewS.get .zero g else s.flA.get .zero g
  let x := s.flView.get .zero g
  match i with
  | 0 => p.c0 | 1 => p.c1 | 2 => p.c2 | 3 => p.c3 | 4 => x.c4 | 5 => x.c5 | 6 => x.c6 | _ => x.c7

/-- FIDs in use (R350, R365). -/
def State.fidsUsed (s : State) (d : Nat) : Nat := ((List.range 5120).filter (fun i => s.fidUsed d i)).length

/-- What a register of a running die shows. -/
def State.show_ (s : State) (l : Loc) : W32 :=
  let d := l.die
  let v := s.reg l.reg d l.idx
  match l.reg with
  | .DIE_ID => BitVec.ofNat 32 (s.stepping.toNat * 4096 + s.variant.dies * 256 + d)
  | .KEN_STAT => setField v 1 1 (s.drain_ d).toNat
  | .FLW_STAT => BitVec.ofNat 32 (s.fidsUsed d)
  | .QUE_VIEW0 => s.queView (131072 * d + s.f F.QUE_SEL.Q d []) 0
  | .QUE_VIEW1 => s.queView (131072 * d + s.f F.QUE_SEL.Q d []) 1
  | .QUE_VIEW2 => s.queView (131072 * d + s.f F.QUE_SEL.Q d []) 2
  | .QUE_VIEW3 => s.queView (131072 * d + s.f F.QUE_SEL.Q d []) 3
  | .FLW_VIEW => s.flowView (8192 * d + s.f F.FLW_SEL.FID d []) (decide (s.f F.FLW_SEL.SIDE d [] = 1)) (l.idx.headD 0)
  | _ =>
    if l.isAct then (v &&& ~~~l.reg.rwsMask) ||| (s.act l.reg d l.idx &&& l.reg.rwsMask) else v

/-! ### Where an address leads (R15, R20, R275, R391, R425, R532) -/

/-- An access falls under R15: the window of a die that is unpopulated, lost or stopped, an address from 90_0000h, or the HPT or PNL
block of another die. -/
def State.unpop (s : State) (addr : Nat) : Bool :=
  let d := addr / 0x100000 - 1
  let b := addr % 0x100000 / 0x10000
  decide (0x100000 ≤ addr) && (decide (0x900000 ≤ addr) || !s.live d || (decide (b = 9 ∨ b = 10) && decide (2 ≤ d)))

/-- TMU_OSEL and SHM_MBX exist on FD0 and FD1 only (R275, R532). -/
def Loc.absent (l : Loc) : Bool := decide (2 ≤ l.die) && decide (l.reg = .TMU_OSEL ∨ l.reg = .SHM_MBX)

/-- The register that an address names, where it names one. -/
def State.target (s : State) (addr : Nat) : Option Loc :=
  if s.unpop addr then none
  else match locate addr with
    | some l => if l.absent then none else some l
    | none => none

/-- One access of class c of PKG_ERRCNT: 0 UNPOP, 1 NOAUTH, 2 BADSIZE (R464). -/
def State.busErr (s : State) (c : Nat) : State :=
  (s.incF F.PKG_ERRCNT.COUNT 0 [c]).raise (match c with | 0 => F.PKG_ERR.UNPOP | 1 => F.PKG_ERR.NOAUTH | _ => F.PKG_ERR.BADSIZE) 0 []

/-- A read of one register. -/
def State.busRead (s : State) (addr : Nat) : State × W32 :=
  if s.unpop addr then (s.busErr 0, 0)
  else match s.target addr with
    | some l => (s, s.show_ l)
    | none => (s, 0)

/-! ### Typed writes (R9, R14, R515, R617) -/

/-- A BCD value up to `max`, of up to four digits. -/
def bcdOk (max v : Nat) : Bool :=
  decide (v ≤ max) && (List.range 4).all (fun i => decide (v / 16 ^ i % 16 ≤ 9))

/-- Whether an encoding is reserved in a field of die d (R14). -/
def Resv.bad (r : Resv) (d v : Nat) : Bool :=
  match r with
  | .none => false
  | .oneOf l => l.contains v
  | .below n => decide (v < n)
  | .above n => decide (n < v)
  | .outside lo hi => decide (v < lo) || decide (hi < v)
  | .inside lo hi => decide (lo ≤ v) && decide (v ≤ hi)
  | .notBcd m => !bcdOk m v
  | .tmuSrc => decide (5 ≤ v) || (decide (2 ≤ d) && decide (v = 4))
  | .tmuMode => decide (2 ≤ d) && decide (v = 3)
  | .tmuCap => decide (2 ≤ d) && decide (2 ≤ v)

/-- One field of a write: what the register holds after it. -/
def FieldDesc.write (x : FieldDesc) (d : Nat) (old v : W32) : W32 :=
  let n := field v x.hi x.lo
  match x.ty with
  | .ro => old
  | .rw | .rws => if x.resv.bad d n then old else setField old x.hi x.lo n
  | .w1c => setField old x.hi x.lo (field (old &&& ~~~v) x.hi x.lo)
  | .w1s => setField old x.hi x.lo (field (old ||| v) x.hi x.lo)

/-- A whole register written by its field types. -/
def RegName.write (r : RegName) (d : Nat) (old v : W32) : W32 := r.desc.fields.foldl (fun a x => x.write d a v) old

/-- Leap years of the Gregorian calendar. -/
def leap (y : Nat) : Bool := decide (y % 4 = 0) && (decide (y % 100 ≠ 0) || decide (y % 400 = 0))

/-- Days of a month. -/
def monthDays (y m : Nat) : Nat :=
  match m with
  | 2 => if leap y then 29 else 28
  | 4 | 6 | 9 | 11 => 30
  | _ => 31

/-- A BCD value of up to four digits. -/
def bcdVal (v : Nat) : Nat := v % 16 + 10 * (v / 16 % 16) + 100 * (v / 256 % 16) + 1000 * (v / 4096 % 16)

/-- YEAR, MON and DAY of a TCK_DATESET value name a date that exists (R617). -/
def dateOk (v : W32) : Bool :=
  let y := field v 31 16
  let m := field v 12 8
  let a := field v 5 0
  bcdOk 0x9999 y && decide (2000 ≤ bcdVal y) && bcdOk 0x12 m && bcdOk 0x31 a && decide (1 ≤ bcdVal m) && decide (1 ≤ bcdVal a) &&
    decide (bcdVal a ≤ monthDays (bcdVal y) (bcdVal m))

/-! ### Rings (R430 to R432) -/

/-- The bytes of an entry of a ring type (R429). -/
def entryBytes (ty : Nat) : Nat := match ty with | 0 => 64 | 1 => 16 | 2 => 32 | 3 => 512 | 4 => 512 | _ => 32

/-- A write of HPT_RCFG[r] (R431, R432). A field changes that would change by its type (R9, R14). An underrun goes on over it (R456). -/
def State.writeRcfg (s : State) (k r : Nat) (v : W32) : State :=
  let old := s.reg .HPT_RCFG k [r]
  let new := RegName.write .HPT_RCFG k old v
  let refuse (t : State) : State := t.raise F.HPT_ERR.RINGCFG k []
  if s.ringOn k r then
    if setField new 31 31 1 ≠ old then refuse s
    else if v.getLsbD 31 then s else s.updRing k r (fun x => { x with closing := true })
  else if v.getLsbD 31 = false then s.setReg .HPT_RCFG k [r] new
  else
    let ty := field new 30 28
    let base := s.f F.HPT_RBHI.ADDR k [r] * 4294967296 + s.f F.HPT_RBLO.ADDR k [r]
    let align := max 4096 (2 ^ field new 27 24 * entryBytes ty)
    let cq := field new 21 16
    if base % align ≠ 0 ∨ field v 27 24 < 4 ∨ ((ty = 0 ∨ ty = 6) ∧ (s.ringOn k cq = false ∨ s.ringType k cq ≠ 1)) then
      refuse (s.setReg .HPT_RCFG k [r] (setField new 31 31 0))
    else (((s.setReg .HPT_RCFG k [r] new).setReg .HPT_RSTAT k [r] 0).updRing k r (fun x => { under := x.under })).updPort k
      (fun x => { x with newRings := r :: x.newRings.erase r, lateRings := if x.reading then r :: x.lateRings.erase r else x.lateRings })

/-! ### Effects of one accepted write -/

/-- TCK_CTL is written: RATE only in BOOT, the field keeping its value elsewhere (R55; DESIGN CHOICE, log entry 139), FNLD only in EARLY with no swap
armed (R54, R408). -/
def State.writeTck (s : State) (v : W32) : State :=
  let old := s.reg .TCK_CTL 0 []
  let v1 := if s.pkgState = 1 then v else setField v 6 6 (field old 6 6)
  let v2 := if s.pkgState = 2 ∧ s.f F.PKG_SWAP.ARMED 0 [] = 0 then v1 else setField v1 8 8 0
  s.setReg .TCK_CTL 0 [] (RegName.write .TCK_CTL 0 old v2)

/-- PKG_RECOVLEN (R560, R568): GO is ignored outside RECOVERY, from an engine, during an attempt and when both self-tests failed. -/
def State.writeRecov (s : State) (src : Src) (v : W32) : State :=
  let old := s.reg .PKG_RECOVLEN 0 []
  let host := match src with | .host p => decide (s.f F.PKG_AUTH.OWNER 0 [] = p.val + 1) | .eng _ _ => false
  let go := host && decide (s.pkgState = 5) && !s.pkg.boot.dead && !old.getLsbD 31
  s.setReg .PKG_RECOVLEN 0 [] (RegName.write .PKG_RECOVLEN 0 old (if go then v else v &&& 0x7FFFFFFF#32))

/-- PKG_AUTH (R461): CLAIM and RELEASE act for the writing port. -/
def State.writeAuth (s : State) (src : Src) (v : W32) : State :=
  match src with
  | .host p =>
    let s1 := if v.getLsbD 8 then s.claim p.val else s
    if v.getLsbD 9 then s1.release p.val else s1
  | .eng _ _ => s

/-- ENG_CTL (R165, R249, R250). -/
def State.writeEng (s : State) (d e : Nat) (v : W32) : State :=
  let old := s.reg .ENG_CTL d [e]
  let off := old.getLsbD 0 && !v.getLsbD 0
  if off && s.enBusy d e then (s.setReg .ENG_CTL d [e] (RegName.write .ENG_CTL d old (v ||| 1))).raise F.DIE_EV.ENBUSY d []
  else s.setReg .ENG_CTL d [e] (RegName.write .ENG_CTL d old v)

/-- LNK_CTL (R467, R485). -/
def State.writeLnk (s : State) (d k : Nat) (v : W32) : State :=
  let old := s.reg .LNK_CTL d [k]
  let on := old.getLsbD 31
  let new := RegName.write .LNK_CTL d old v
  let s1 := s.setReg .LNK_CTL d [k] (if on then setField old 31 31 (field v 31 31) else new)
  let s2 := if on && !v.getLsbD 31 then s1.updLink d k (fun x => { x with stopping := true }) else s1
  s2.setRun d

/-- TDM_CTL (R511). -/
def State.writeTdm (s : State) (d k : Nat) (v : W32) : State :=
  let old := s.reg .TDM_CTL d [k]
  s.setReg .TDM_CTL d [k] (if old.getLsbD 31 then setField old 31 31 (field v 31 31) else RegName.write .TDM_CTL d old v)

/-- TMU_CTL (R516 to R518). -/
def State.writeTmu (s : State) (d c : Nat) (v : W32) : State :=
  let old := s.reg .TMU_CTL d [c]
  let new := (RegName.write .TMU_CTL d old v &&& 0x3FFFFFFF#32) ||| (v &&& 0xC0000000#32)
  s.writeTmuCtl d c old new

/-- KEN_AUD (R360): START asks for an audit at the next tick, unless one runs. -/
def State.writeAud (s : State) (d : Nat) (v : W32) : State :=
  let a := (s.die d).audit
  if v.getLsbD 0 && !a.running then (s.raise F.KEN_AUD.START d []).setDie d { s.die d with audit := { a with req := true } } else s

/-- FIN_ADMIT (R503): GO for a node that is QUARANTINED re-admits it at the next tick; for a node in another state it is ignored. -/
def State.writeAdmit (s : State) (d : Nat) (v : W32) : State :=
  let n := field v 5 0
  if v.getLsbD 31 = true ∧ s.nodeState d n ≠ 5 then s
  else (if v.getLsbD 31 then s.updNode d n (fun x => { x with readmit := true }) else s).setReg .FIN_ADMIT d [] (RegName.write .FIN_ADMIT d (s.reg .FIN_ADMIT d []) v)

/-- A write that reaches its register: the register's own effect, or the field types of R9. -/
def State.regWrite (s : State) (src : Src) (l : Loc) (v : W32) : State :=
  let d := l.die
  let i := l.idx.headD 0
  let plain := s.setReg l.reg d l.idx (l.reg.write d (s.reg l.reg d l.idx) v)
  match l.reg with
  | .PKG_RECOVLEN => s.writeRecov src v
  | .PKG_SVNUP => if s.pkgState = 3 then plain else s
  | .PKG_SWAPCTL => if s.f F.PKG_SWAP.ARMED 0 [] = 1 then s else plain
  | .PKG_AUTH => s.writeAuth src v
  | .TCK_CTL => s.writeTck v
  | .TCK_DATESET => if dateOk v then plain else s
  | .ENG_CTL => s.writeEng d i v
  | .SHM_OWN => if (Resv.oneOf [12, 13, 14]).bad d (field v 3 0) && decide (s.f F.SHM_OWN.PEND d [i] = 0) then s
                else s.writeOwn d i (field v 3 0)
  | .SHM_PWR => if field v 1 0 = 3 then s else s.writePwr d i (field v 1 0)
  | .SHM_TWIN => s.writeTwin d i (field v 31 31) (field v 10 8) (field v 5 0)
  | .KEN_AUD => s.writeAud d v
  | .TMU_CTL => s.writeTmu d i v
  | .TMU_PERHI => plain.tmuCommit d i 0
  | .TMU_CMPHI => plain.tmuCommit d i 1
  | .TMU_LDHI => plain.tmuCommit d i 2
  | .LNK_CTL => s.writeLnk d i v
  | .LNK_PTPGM0 | .LNK_PTPGM1 | .LNK_PTPGM2 => plain.updLink d i (fun x => { x with gmDue := true })
  | .LNK_MSCTL => s.writeMsctl d i (RegName.write .LNK_MSCTL d (s.reg .LNK_MSCTL d l.idx) v)
  | .LNK_MSRXLO | .LNK_MSRXHI | .LNK_MSRXCFG => s.writeMsrx plain d i (l.idx.getD 1 0)
  | .FIN_CTL => plain.setRun d
  | .FIN_ADMIT => s.writeAdmit d v
  | .TDM_CTL => s.writeTdm d i v
  | .SPN_CTL => if v.getLsbD 8 then plain.retrain d else plain
  | .HPT_RCFG => s.writeRcfg d i v
  | .PNL_CTL => if plain.f F.PNL_CTL.EN d [] = 1 then plain else plain.setF F.PNL_STAT.IRQ d [] 0
  | _ => plain

/-! ### The write of a register through a port or by an engine -/

/-- A write is not admitted for want of authority (R460). -/
def State.noAuth (s : State) (src : Src) (addr : Nat) : Bool :=
  match src with
  | .eng _ _ => false
  | .host p =>
    decide (s.f F.PKG_AUTH.OWNER 0 [] ≠ p.val + 1) && decide (addr ≠ 0x200) && decide (addr / 0x10000 ≠ (p.val + 1) * 16 + 9)

/-- A register of an HPT block is written only through its own port (R460). -/
def ownHpt (src : Src) (addr : Nat) : Bool :=
  match src with
  | .eng _ _ => decide (addr < 0x100000 ∨ addr / 0x10000 % 16 ≠ 9)
  | .host p => decide (addr < 0x100000 ∨ addr / 0x10000 % 16 ≠ 9) || decide (addr / 0x100000 = p.val + 1)

/-- From the choice of a spare to the takeover, the suspect's and the spare's RWS registers are not written (R386). -/
def State.inTakeover (s : State) (l : Loc) : Bool :=
  match engineOf l.reg l.idx with
  | none => false
  | some e => (List.range 16).any (fun i => decide (s.f F.DIE_TAKE.V l.die [i] = 1) && decide (s.f F.DIE_TAKE.DONE l.die [i] = 0) &&
      (decide (s.f F.DIE_TAKE.SUSP l.die [i] = e) || decide (s.f F.DIE_TAKE.SPARE l.die [i] = e)))

/-- A write to an RWS register (R386, R406, R408). -/
def State.shadowWrite (s : State) (src : Src) (l : Loc) (v : W32) : State :=
  let locked := decide (s.f F.PKG_SWAP.ARMED 0 [] = 1)
  let s1 := if locked then s.raise F.DIE_SWAP.LOCKWR l.die [] else s
  let s2 := if s.inTakeover l then s1.raise F.DIE_EV.SUSPWR l.die [] else s1
  if locked || s.inTakeover l then s2 else (s2.regWrite src l v).raise F.DIE_SWAP.SHDIRTY l.die []

/-- A write reaches its register block (R9 to R16). -/
def State.busLand (s : State) (src : Src) (addr : Nat) (v : W32) : State :=
  match s.target addr with
  | none => s
  | some l =>
    if l.isAct then s
    else if l.reg.banked then s.shadowWrite src l v
    else s.regWrite src l v

/-- The die to which a host port sends its access over the spine (R35): another die's window. The package's block answers at the port. -/
def crosses (src : Src) (addr : Nat) : Option (PortNo × Nat) :=
  match src with
  | .eng _ _ => none
  | .host p => if addr < 0x100000 ∨ addr / 0x100000 = p.val + 1 then none else some (p, addr / 0x100000 - 1)

/-- A write of one register; `be` are the byte enables of a host's write, bit 4 on for bytes beyond the register (R425). Its port admits it, and sends
it on where its register lies on another die (R35, R45, R46). An engine's write has crossed when it lands. -/
def State.busWrite (s : State) (src : Src) (addr : Nat) (v : W32) (be : BitVec 8) : State :=
  let host := match src with | .host _ => true | .eng _ _ => false
  let size := host && (decide (be ≠ 0x0F#8) || decide (addr % 4 ≠ 0))
  let s1 := if size then s.busErr 2 else s
  let s2 := if s.unpop addr then s1.busErr 0 else s1
  let s3 := if s.noAuth src addr then s2.busErr 1 else s2
  if size || s.unpop addr || s.noAuth src addr || !ownHpt src addr then s3
  else match crosses src addr with
    | some (p, g) => s3.spineSend p.val g (.host p (.write addr v))
    | none => s3.busLand src addr v

/-- The bytes of a register that a host's read asks for (R425). -/
def askedBytes (be : BitVec 8) (v : W32) : List Byte := ((List.range 4).filter be.getLsbD).map (fun i => v.extractLsb' (8 * i) 8)

/-- A delivered access of a host port acts on die d: a write reaches its register, a read sends its answer back, and an answer reaches the host (R37, R46,
R425). -/
def State.hostAct (s : State) (d : Nat) (p : PortNo) : HostAcc → State
  | .write a v => s.busLand (.host p) a v
  | .read a be =>
    let (s1, v) := s.busRead (a / 4 * 4)
    s1.spineSend d p.val (.host p (.reply a (askedBytes be v)))
  | .reply a l => s.emit p.val (.readReply .bar0 a l)

/-- The accesses of host ports that were delivered to die d (R37, R46). -/
def State.performDue (s : State) (d : Nat) : State :=
  if (s.die d).due.isEmpty then s
  else (s.die d).due.foldl (fun t w => t.hostAct d w.1 w.2) (s.setDie d { s.die d with due := [] })

/-- The writes of a CFG_WRITE that waits have all taken effect, and it completes (R445). -/
def State.settleWrites (s : State) : State :=
  let settled (k : WaitKind) : Bool := match k with
    | .writes p l _ => l.all (fun e => !s.live e.1 || decide (e.2 ≤ (s.die e.1).seqRx.get 0 p))
    | _ => false
  if s.pkg.waits.any (fun w => settled w.kind) then
    s.finish settled .done (fun k => match k with | .writes _ _ n => n | _ => 0) (s.fn (s.liveDies.headD 0))
  else s

/-- The same on every die that runs. -/
def State.performAll (s : State) : State := (s.liveDies.foldl State.performDue s).settleWrites

/-- Whether the source of an access runs: its port's die or its own. -/
def State.srcLive (s : State) (src : Src) : Bool :=
  match src with
  | .host p => s.live p.val
  | .eng d _ => s.live d.val

/-- A command that is a write of register r. -/
def State.command (s : State) (src : Src) (r : RegName) (d : Nat) (idx : List Nat) (v : W32) : Host.Outcome State Fault Refusal :=
  if s.srcLive src then .next (s.busWrite src (r.addr d idx) v 0x0F#8) else .next s

/-! ### Commands -/

/-- SPINE_MESSAGE_RECEIVE (R37 to R41): die `die` receives the next message that travels in direction `dir` toward it; `good` says whether its CRC-32C
passes. A direction that is DOWN or in TRAINING brings none. -/
def execSpineMessageReceive (die : DieNo) (dir : Dir) (good : Bool) (s : State) : Host.Outcome State Fault Refusal :=
  .next (if s.live die.val && s.comes die.val dir then (s.receive die.val dir good).performAll else s)

/-- DIE_STOP (R389). -/
def execDieStop (die : DieNo) (_cause : StopCause) (s : State) : Host.Outcome State Fault Refusal :=
  if s.populated die.val = false then .fault .noSuchObject
  else if (s.die die.val).stopped then .next s
  else .next (s.stopDie die.val).performAll

/-! ### BAR2 and the configuration space (R423, R424, R438) -/

/-- A write of a field of the configuration space; payloads of more than 256 bytes are not accepted, and the class code is fixed (R423). -/
def PciCfg.write (x : PciCfg) (f : CfgField) (v : W32) : PciCfg :=
  match f with
  | .classCode => x
  | .maxPayload => if v.toNat ≤ 1 then { x with maxPayload := v.toNat } else x
  | .maxReadRequest => if v.toNat ≤ 5 then { x with maxReadRequest := v.toNat } else x
  | .timeout => { x with timeout := v.toNat % 16 }
  | .ecrcGen => { x with ecrcGen := v.getLsbD 0 }
  | .ecrcCheck => { x with ecrcCheck := v.getLsbD 0 }
  | .msixEnable => { x with msixEnable := v.getLsbD 0 }
  | .msixMask => { x with msixMask := v.getLsbD 0 }

/-- A field as the host reads it. -/
def PciCfg.read (x : PciCfg) (f : CfgField) : W32 :=
  match f with
  | .classCode => 0x048000#32
  | .maxPayload => BitVec.ofNat 32 x.maxPayload
  | .maxReadRequest => BitVec.ofNat 32 x.maxReadRequest
  | .timeout => BitVec.ofNat 32 x.timeout
  | .ecrcGen => BitVec.ofNat 32 x.ecrcGen.toNat
  | .ecrcCheck => BitVec.ofNat 32 x.ecrcCheck.toNat
  | .msixEnable => BitVec.ofNat 32 x.msixEnable.toNat
  | .msixMask => BitVec.ofNat 32 x.msixMask.toNat

/-- The word at byte `a` of BAR2 (R424): the table's entries as PCIe lays them out, address low and high, data, and the mask bit; then the pending bits. -/
def State.bar2Word (s : State) (p a : Nat) : W32 :=
  let e := s.msixEnt p (a / 16)
  if a < 0x200 then (match a / 4 % 4 with
    | 0 => e.addr.setWidth 32
    | 1 => (e.addr >>> 32).setWidth 32
    | 2 => e.data
    | _ => BitVec.ofNat 32 e.masked.toNat)
  else if a = 0x800 then BitVec.ofNat 32 ((List.range 32).foldl (fun n v => n + ((s.port p).pba.get false v).toNat * 2 ^ v) 0)
  else 0

/-- A write of one aligned word of BAR2: of the table; the pending bits ignore writes, as does an access of another kind (PRESUMED, log entry 189). -/
def State.bar2Write (s : State) (p a : Nat) (v : W32) (be : BitVec 8) : State :=
  if be ≠ 0x0F#8 ∨ a % 4 ≠ 0 ∨ 0x200 ≤ a then s
  else
    let e := s.msixEnt p (a / 16)
    let e1 : MsixEnt := match a / 4 % 4 with
      | 0 => { e with addr := (e.addr >>> 32).setWidth 32 ++ v }
      | 1 => { e with addr := v ++ e.addr.setWidth 32 }
      | 2 => { e with data := v }
      | _ => { e with masked := v.getLsbD 0 }
    (s.updPort p (fun x => { x with msix := x.msix.set ⟨0, 0, true⟩ (a / 16) e1 })).msixFlush p

/-- A read of BAR0 through a port (R15, R425): the bytes requested of the register that contains them; one that is not of an aligned register with all byte
enables is counted. A register of another die is read over the spine, behind the port's writes to that die (R35, R426). -/
def State.barRead (s : State) (p : PortNo) (addr : Nat) (be : BitVec 8) : State :=
  let s1 := if be ≠ 0x0F#8 ∨ addr % 4 ≠ 0 then s.busErr 2 else s
  match if s.unpop (addr / 4 * 4) then none else crosses (.host p) addr with
  | some (_, g) => s1.spineSend p.val g (.host p (.read addr be))
  | none =>
    let (s2, v) := s1.busRead (addr / 4 * 4)
    s2.emit p.val (.readReply .bar0 addr (askedBytes be v))

/-! ### Accesses by their address -/

/-- REGISTER_WRITE (R9 to R15, R425, R460), and a port's own BAR2 and configuration space (R423, R424). -/
def execRegisterWrite (src : Src) (space : HostSpace) (addr : BitVec 24) (val : W32) (be : BitVec 8) (s : State) : Host.Outcome State Fault Refusal :=
  if s.srcLive src = false then .next s
  else match space, src with
    | .bar0, _ => .next (s.busWrite src addr.toNat val be)
    | .bar2, .host p => .next (s.bar2Write p.val addr.toNat val be)
    | .config f, .host p => .next ((s.updPort p.val (fun x => { x with cfg := x.cfg.write f val })).msixFlush p.val)
    | _, .eng _ _ => .next s

/-- UNPOPULATED_WINDOW_ACCESS (R15, R391, R425): an access that reads 0 or is ignored, and is counted. It also stands for a host's reads by address, which have no
row of their own: of a register, of BAR2 and of the configuration space. -/
def execUnpopulatedWindowAccess (src : Src) (space : HostSpace) (addr : BitVec 24) (write : Bool) (val : W32) (be : BitVec 8) (s : State) :
    Host.Outcome State Fault Refusal :=
  let a := addr.toNat
  if s.srcLive src = false then .next s
  else match space, src with
    | .bar0, .host p =>
      if write then (if s.unpop a then .next (s.busWrite src a val be) else .fault .noSuchObject)
      else .next (s.barRead p a be)
    | .bar0, .eng _ _ => if s.unpop a then .next (if write then s.busWrite src a val be else (s.busRead a).1) else .fault .noSuchObject
    | .bar2, .host p =>
      let v := s.bar2Word p.val (a / 4 * 4)
      .next (if write then s else s.emit p.val (.readReply .bar2 a (askedBytes be v)))
    | .config f, .host p =>
      let v := (s.port p.val).cfg.read f
      .next (if write then s else s.emit p.val (.readReply space 0 (askedBytes 0x0F v)))
    | _, .eng _ _ => .next s

/-- SPINE_RESTORE (R41). -/
def execSpineRestore (src : Src) (die : DieNo) (val : W32) (s : State) : Host.Outcome State Fault Refusal :=
  s.command src .SPN_CTL die.val [] (val ||| 0x100#32)

/-- FN_LOAD (R54). -/
def execFnLoad (src : Src) (die : DieNo) (val : W32) (s : State) : Host.Outcome State Fault Refusal :=
  s.command src .TCK_CTL die.val [] (val ||| 0x100#32)

/-- TOD_LOAD (R96). -/
def execTodLoad (src : Src) (die : DieNo) (val : W32) (s : State) : Host.Outcome State Fault Refusal :=
  s.command src .TCK_CTL die.val [] (val ||| 0x80#32)

/-- COUNTER_CLEAR (R165, R275, R363). -/
def execCounterClear (src : Src) (die : DieNo) (blk : CntBlock) (val : W32) (s : State) : Host.Outcome State Fault Refusal :=
  match blk with
  | .eng e => s.command src .ENG_CTL die.val [e.val] (val ||| 0x100#32)
  | .shm => s.command src .SHM_CTL die.val [] (val ||| 1)
  | .ken => s.command src .KEN_CTL die.val [] (val ||| 1)

/-- DIE_RELEASE (R388). -/
def execDieRelease (src : Src) (die : DieNo) (val : W32) (s : State) : Host.Outcome State Fault Refusal :=
  s.command src .DIE_RELEASE die.val [] (val ||| 0x80000000#32)

/-- ENGINE_POWER_OFF (R250). -/
def execEnginePowerOff (src : Src) (die : DieNo) (e : EngNo) (val : W32) (s : State) : Host.Outcome State Fault Refusal :=
  s.command src .ENG_CTL die.val [e.val] (val &&& 0xFFFFFFFE#32)

/-- ENGINE_WAKE (R249). -/
def execEngineWake (src : Src) (die : DieNo) (e : EngNo) (val : W32) (s : State) : Host.Outcome State Fault Refusal :=
  s.command src .ENG_CTL die.val [e.val] (val ||| 1)

/-- OWNER_HANDOVER (R259, R261). -/
def execOwnerHandover (src : Src) (die : DieNo) (bank : Fin 64) (val : W32) (s : State) : Host.Outcome State Fault Refusal :=
  s.command src .SHM_OWN die.val [bank.val] val

/-- BANK_POWER_REQUEST (R262 to R264). -/
def execBankPowerRequest (src : Src) (die : DieNo) (bank : Fin 64) (val : W32) (s : State) : Host.Outcome State Fault Refusal :=
  s.command src .SHM_PWR die.val [bank.val] val

/-- TWIN_ENABLE (R265, R269). -/
def execTwinEnable (src : Src) (die : DieNo) (bank : Fin 64) (val : W32) (s : State) : Host.Outcome State Fault Refusal :=
  s.command src .SHM_TWIN die.val [bank.val] val

/-- AUDIT_START (R360). -/
def execAuditStart (src : Src) (die : DieNo) (val : W32) (s : State) : Host.Outcome State Fault Refusal :=
  s.command src .KEN_AUD die.val [] (val ||| 1)

/-- SHADOW_COPY (R405). -/
def execShadowCopy (src : Src) (val : W32) (s : State) : Host.Outcome State Fault Refusal :=
  s.command src .PKG_SWAPCTL 0 [] (val ||| 1)

/-- RING_ENABLE (R431). -/
def execRingEnable (src : Src) (port : PortNo) (ring : Fin 64) (val : W32) (s : State) : Host.Outcome State Fault Refusal :=
  s.command src .HPT_RCFG port.val [ring.val] (val ||| 0x80000000#32)

/-- RING_DISABLE (R432). -/
def execRingDisable (src : Src) (port : PortNo) (ring : Fin 64) (val : W32) (s : State) : Host.Outcome State Fault Refusal :=
  s.command src .HPT_RCFG port.val [ring.val] (val &&& 0x7FFFFFFF#32)

/-- AUTH_CLAIM (R461). -/
def execAuthClaim (src : Src) (val : W32) (s : State) : Host.Outcome State Fault Refusal :=
  s.command src .PKG_AUTH 0 [] (val ||| 0x100#32)

/-- AUTH_RELEASE (R461). -/
def execAuthRelease (src : Src) (val : W32) (s : State) : Host.Outcome State Fault Refusal :=
  s.command src .PKG_AUTH 0 [] (val ||| 0x200#32)

/-- LINK_ENABLE (R467). -/
def execLinkEnable (src : Src) (die : DieNo) (k : PortNo) (val : W32) (s : State) : Host.Outcome State Fault Refusal :=
  s.command src .LNK_CTL die.val [k.val] (val ||| 0x80000000#32)

/-- LINK_DISABLE (R467). -/
def execLinkDisable (src : Src) (die : DieNo) (k : PortNo) (val : W32) (s : State) : Host.Outcome State Fault Refusal :=
  s.command src .LNK_CTL die.val [k.val] (val &&& 0x7FFFFFFF#32)

/-- PTP_GRANDMASTER_SET (R480): the three registers in order. -/
def execPtpGrandmasterSet (src : Src) (die : DieNo) (k : PortNo) (g0 g1 g2 : W32) (s : State) : Host.Outcome State Fault Refusal :=
  if s.srcLive src then
    let s1 := s.busWrite src (RegName.addr .LNK_PTPGM0 die.val [k.val]) g0 0x0F#8
    let s2 := s1.busWrite src (RegName.addr .LNK_PTPGM1 die.val [k.val]) g1 0x0F#8
    .next (s2.busWrite src (RegName.addr .LNK_PTPGM2 die.val [k.val]) g2 0x0F#8)
  else .next s

/-- FIN_RING_ENABLE (R485). -/
def execFinRingEnable (src : Src) (die : DieNo) (val : W32) (s : State) : Host.Outcome State Fault Refusal :=
  s.command src .FIN_CTL die.val [] val

/-- FIN_ADMIT (R503). -/
def execFinAdmit (src : Src) (die : DieNo) (val : W32) (s : State) : Host.Outcome State Fault Refusal :=
  s.command src .FIN_ADMIT die.val [] (val ||| 0x80000000#32)

/-- TDM_ENABLE (R511). -/
def execTdmEnable (src : Src) (die : DieNo) (k : Fin 4) (val : W32) (s : State) : Host.Outcome State Fault Refusal :=
  s.command src .TDM_CTL die.val [k.val] val

/-- TMU_START (R516). -/
def execTmuStart (src : Src) (die : DieNo) (c : Fin 16) (val : W32) (s : State) : Host.Outcome State Fault Refusal :=
  s.command src .TMU_CTL die.val [c.val] (val ||| 0x80000000#32)

/-- TMU_STOP (R517). -/
def execTmuStop (src : Src) (die : DieNo) (c : Fin 16) (val : W32) (s : State) : Host.Outcome State Fault Refusal :=
  s.command src .TMU_CTL die.val [c.val] (val ||| 0x40000000#32)

/-- TMU_WIDE_COMMIT (R522): a write of the HI register of PER (0), CMP (1) or LD (2). -/
def execTmuWideCommit (src : Src) (die : DieNo) (c : Fin 16) (which : Fin 3) (val : W32) (s : State) : Host.Outcome State Fault Refusal :=
  s.command src (match which.val with | 0 => .TMU_PERHI | 1 => .TMU_CMPHI | _ => .TMU_LDHI) die.val [c.val] val

/-- SVN_UPDATE (R586). -/
def execSvnUpdate (src : Src) (val : W32) (s : State) : Host.Outcome State Fault Refusal :=
  s.command src .PKG_SVNUP 0 [] (val ||| 1)

end Sys2Proof.Machine
end

