-- ==== Sys2Proof/Machine/HostCmd.lean ====
section
/-! DEFINITION. The host commands (R79, R349 to R353, R360, R407 to R410, R439 to R448, R546, R583, R584), and the events that
end the ones that wait: fuse programming and scrub passes. -/

namespace Sys2Proof.Machine

/-! ### Checks and completions (R440 to R444) -/

/-- A CFG_WRITE of a port whose writes have not all taken effect: the commands behind it wait (R440, R441). -/
def State.writesWait (s : State) (k : Nat) : Bool :=
  s.pkg.waits.any (fun w => match w.kind with | .writes p _ _ => decide (p ≤ k) | _ => false)

/-- The command that a port processes next, when it is this one: commands of HP0 come before those that HP1 takes (R440). -/
def State.headCmd (s : State) (x : Desc) : Option Taken :=
  match (s.port x.port.val).taken with
  | [] => none
  | t :: _ =>
    if s.writesWait x.port.val = false ∧ s.live x.port.val = true ∧ t.ring = x.ring.val ∧
        (x.port.val = 0 ∨ s.live 0 = false ∨ ((s.port 0).taken = [] ∧ (s.port 0).reading = false)) then some t else none

/-- Bit 2 of FLAGS (R439). -/
def Desc.irq (x : Desc) : Bool := x.flags.getLsbD 2

/-- The target or side SHADOW (R439). -/
def Desc.shadow (x : Desc) : Bool := x.flags.getLsbD 0

/-- The die that a descriptor names. -/
def Desc.dieNo (x : Desc) : Nat := x.die.toNat

/-- Checks 2 to 9 of R442 in their order. `one` admits a die and `all` FFh in DIE; `bad`, `off` and `lock` are what the command's
rules give for PARAM, STATE and LOCKED. -/
def State.checks (s : State) (x : Desc) (one all bad off lock : Bool) : Option Status :=
  let op := x.opcode.toNat
  let st := s.pkgState
  if op = 0 ∨ 14 < op then some .badop
  else if op ≠ 9 ∧ (st = 0 ∨ st = 1 ∨ st = 5 ∨ (st = 2 ∧ op = 12)) then some .state
  else if op = 12 ∧ st = 4 then some .busy
  else if op ≠ 9 ∧ s.f F.PKG_AUTH.OWNER 0 [] ≠ x.port.val + 1 then some .noauth
  else if (x.die = 0xFF#8 ∧ all = false) ∨ (x.die ≠ 0xFF#8 ∧ s.live x.dieNo = false) then some .nodie
  else if (x.die ≠ 0xFF#8 ∧ one = false) ∨ x.zeroOk = false ∨ 16 ≤ x.flags.toNat ∨ bad = true then some .param
  else if off then some .state
  else if lock = true ∧ s.f F.PKG_SWAP.ARMED 0 [] = 1 then some .locked
  else none

/-- The completion of a command at once. -/
def State.reply (s : State) (x : Desc) (t : Taken) (st : Status) (result : Nat) : State :=
  s.complete t x.tag x.irq st result false (s.fn x.port.val)

/-- The completion waits for an event (R441). -/
def State.waitFor (s : State) (x : Desc) (t : Taken) (k : WaitKind) : State :=
  { s with pkg := { s.pkg with waits := s.pkg.waits ++ [⟨t, x.tag, x.irq, k⟩] } }

/-- One command: taken off its port's list, checked, and run when every check passes (R440 to R442). -/
def State.hostCmd (s : State) (x : Desc) (op : Nat) (one all bad off lock : Bool) (go : State → Taken → State) :
    Host.Outcome State Fault Refusal :=
  match s.headCmd x with
  | none => .next s
  | some t =>
    let k := x.port.val
    let s1 := s.updPort k (fun y => { y with taken := y.taken.tail })
    if x.readOk = false then
      .next ((s1.raise F.HPT_ERR.DESCERR k []).complete t 0xFFFFFFFF#32 false .dmaerr 0 false (s.fn k))
    else if x.opcode.toNat ≠ op ∧ 1 ≤ x.opcode.toNat ∧ x.opcode.toNat ≤ 14 then .next s
    else match s.checks x one all bad off lock with
      | some st => .next (s1.reply x t st 0)
      | none => .next (go s1 t)

/-! ### CFG_WRITE and CODE_LOAD (R446) -/

/-- A pair of CFG_WRITE that an armed swap locks: it names a banked register, or asks for the copy (R408). -/
def State.pairBanked (s : State) (p : W32 × W32) : Bool :=
  match s.target p.1.toNat with
  | some l => (l.reg.banked && !l.isAct) || (decide (l.reg = .PKG_SWAPCTL) && p.2.getLsbD 0)
  | none => false

/-- A CFG_WRITE has performed its pairs: it completes, at once or when those that cross to other dies have taken effect (R445). -/
def State.pairsDone (s : State) (x : Desc) (t : Taken) (pairs : List (W32 × W32)) : State :=
  let k := x.port.val
  let far := (pairs.filterMap (fun p => (crosses (.host x.port) p.1.toNat).map Prod.snd)).eraseDups.filter s.live
  let marks := far.map (fun g => (g, (s.die k).seqTx.get 0 g))
  if marks.all (fun e => decide (e.2 ≤ (s.die e.1).seqRx.get 0 k)) then s.reply x t .done pairs.length
  else s.waitFor x t (.writes k marks pairs.length)

/-- CFG_WRITE (R445, R446). -/
def execCfgWrite (desc : Desc) (readBad : Bool) (pairs : List (W32 × W32)) (s : State) : Host.Outcome State Fault Refusal :=
  s.hostCmd desc 1 false true (decide (pairs.length = 0 ∨ 4096 < pairs.length)) false false (fun s1 t =>
    if readBad then s1.reply desc t .dmaerr 0
    else if pairs.any (fun p => decide (p.1.toNat % 4 ≠ 0 ∨ 0x1000000 ≤ p.1.toNat)) then s1.reply desc t .param 0
    else if s1.f F.PKG_SWAP.ARMED 0 [] = 1 ∧ pairs.any s1.pairBanked = true then s1.reply desc t .locked 0
    else (pairs.foldl (fun u p => u.busWrite (.host desc.port) p.1.toNat p.2 0x0F#8) s1).pairsDone desc t pairs)

/-- One bundle of CODE_LOAD in the shadow half, and in the recovery image at `src` where there is one (R446). -/
def State.loadBundle (s : State) (d e i : Nat) (src : Option Nat) (b : BitVec 144) : State :=
  let s1 := s.updEng d e (fun x => { x with pmem := x.pmem.set 0 ((if x.half then 0 else 4096) + i) (encBundle b) })
  match src with
  | none => s1
  | some a => s1.mendWords (bankPa d 0 (a + 8 * i)) ((List.range 8).map (syllable b))

/-- CODE_LOAD (R252, R446). -/
def execCodeLoad (desc : Desc) (readBad : Bool) (eng : BitVec 8) (first count : BitVec 16) (image : List (BitVec 144)) (s : State) :
    Host.Outcome State Fault Refusal :=
  let d := desc.dieNo
  let e := eng.toNat
  let n := count.toNat
  let rec_ := desc.flags.getLsbD 3
  let bad := decide (64 ≤ e ∨ n = 0 ∨ 4096 < first.toNat + n) || (rec_ && decide (s.f F.DIE_PMSRC.V d [e] = 0))
  s.hostCmd desc 2 true false bad (decide (s.f F.ENG_STAT.PWR d [e] = 0)) true (fun s1 t =>
    if readBad then s1.reply desc t .dmaerr 0
    else
      let src := if rec_ then some (s1.f F.DIE_PMSRC.SRC d [e]) else none
      let s2 := ((List.range n).zip image).foldl (fun u (i, b) => u.loadBundle d e (first.toNat + i) src b) s1
      (s2.raise F.DIE_SWAP.SHDIRTY d []).reply desc t .done n)

/-! ### LEAF_INIT (R79, R445, R446) -/

/-- A side lies within one bank owned by the engine's quire or by ARC (R446). -/
def State.sideOk (s : State) (d e a n : Nat) : Bool :=
  let o := s.f F.SHM_OWN.OWNER d [a / 1048576]
  decide (a + n ≤ 67108864) && decide (a / 1048576 = (a + n - 1) / 1048576) && decide (o = e / 8 ∨ o = 11)

/-- LEAF_INIT: the leaf takes effect at the tick, with its completion (R79). -/
def execLeafInit (desc : Desc) (readBad : Bool) (leaf : BitVec 16) (eng entry : BitVec 8) (recto verso len : W32)
    (image : Option (List W18)) (s : State) : Host.Outcome State Fault Refusal :=
  let d := desc.dieNo
  let (l, e, r, v, n) := (leaf.toNat, eng.toNat, recto.toNat, verso.toNat, len.toNat)
  let sides := s.sideOk d e r n && s.sideOk d e v n && decide (r + n ≤ v ∨ v + n ≤ r)
  let bad := decide (16384 ≤ l ∨ 64 ≤ e ∨ 16 ≤ entry.toNat) || (decide (n ≠ 0) && !sides)
  s.hostCmd desc 3 true false bad false false (fun s1 t =>
    if readBad = true ∧ image ≠ none then s1.reply desc t .dmaerr 0
    else
      let val : Leaf := if n = 0 then .zero else ⟨true, e, entry.toNat, r, v, n, false, false⟩
      let words := match image with
        | some ws => ws
        | none => List.replicate n 0
      (s1.setDie d { s1.die d with leafCmds := (s1.die d).leafCmds ++ [⟨l, val, words⟩] }).waitFor desc t (.leaf d))

/-! ### Flow commands (R347 to R353) -/

/-- A context image that R348 refuses. -/
def FlowP.refused (p : FlowP) : Bool :=
  decide (4 < p.src ∨ p.qcnt = 0 ∨ 64 < p.qcnt ∨ 131072 < p.qbase + p.qcnt ∨ 3 < p.fmt ∨ p.nchan = 0 ∨ 1 < field p.c1 21 20 ∨
    field p.c1 19 16 ≠ 0 ∨ field p.c3 15 0 ≠ 0 ∨ p.cburst < p.cmax ∨ (p.src = 0 ∧ p.fmt ≠ 3))

/-- Two queue ranges share a queue. -/
def FlowP.overlaps (a b : FlowP) : Bool := decide (a.qbase < b.qbase + b.qcnt ∧ b.qbase < a.qbase + a.qcnt)

/-- The ranges of the FIDs in use on a die (R350). -/
def State.rangesUsed (s : State) (d : Nat) : List FlowP :=
  let cool (g : Nat) : Bool := decide ((s.die d).cooling.get 0 (g % 8192) ≠ 0)
  let of (m : Store FlowP) : List FlowP :=
    (m.filter (fun e => decide (e.1 / 8192 = d) && (e.2.isOpen || cool e.1))).map Prod.snd
  of s.flA ++ of s.flS ++ (s.die d).flowCmds.filterMap (fun c => match c with | .open_ _ _ p _ => some p | _ => none)

/-- The lowest FID not in use (R350). -/
def State.freeFid (s : State) (d : Nat) : Option Nat := (List.range 5120).find? (fun i => !s.fidUsed d i)

/-- A flow command waits for the queue-commit step (R349). -/
def State.flowCmd (s : State) (x : Desc) (t : Taken) (d result : Nat) (c : FlowCmd) : State :=
  (s.setDie d { s.die d with flowCmds := (s.die d).flowCmds ++ [c] }).waitFor x t (.flow d result)

/-- FLOW_OPEN (R348 to R351). -/
def execFlowOpen (desc : Desc) (words : FlowP) (qp : QParam) (s : State) : Host.Outcome State Fault Refusal :=
  let d := desc.dieNo
  let p : FlowP := { words with c0 := words.c0 ||| 0x80000000#32 }
  s.hostCmd desc 4 true false (p.refused || decide (qp.policy = 3)) false true (fun s1 t =>
    match s1.freeFid d with
    | none =>
      let s2 := (s1.incF F.FLW_REFUSED.COUNT d []).raise F.FLW_EV.REFEV d []
      let none_ := s2.liveDies.all (fun i => (s2.freeFid i).isNone)
      s2.complete t desc.tag desc.irq .noctx 0 none_ (s2.fn desc.port.val)
    | some fid =>
      if (s1.rangesUsed d).any (fun o => o.overlaps p) then s1.reply desc t .qbusy 0
      else
        let s2 := s1.setDie d { s1.die d with assigned := (s1.die d).assigned ++ [fid] }
        s2.flowCmd desc t d (8192 * d + fid) (.open_ fid desc.shadow p qp))

/-- The copy of a context that the target names. -/
def State.flowCopy (s : State) (g : Nat) (shadow : Bool) : FlowP := if shadow then s.flS.get .zero g else s.flA.get .zero g

/-- FLOW_CLOSE and FLOW_MOD name an open flow of the descriptor's die (R24, R445, R446). -/
def State.flowNamed (s : State) (x : Desc) (fid : BitVec 16) : Bool :=
  decide (fid.toNat / 8192 = x.dieNo ∧ fid.toNat % 8192 < 5120) && (s.flowCopy fid.toNat x.shadow).isOpen

/-- FLOW_CLOSE (R353, R445, R446). -/
def execFlowClose (desc : Desc) (fid : BitVec 16) (s : State) : Host.Outcome State Fault Refusal :=
  s.hostCmd desc 5 true false (!s.flowNamed desc fid) false true (fun s1 t =>
    s1.flowCmd desc t desc.dieNo 0 (.close (fid.toNat % 8192) desc.shadow))

/-- FLOW_MOD of a context (R348, R352): the words that it carries, and those that it makes, are refused alike. -/
def execFlowModContext (desc : Desc) (fid : BitVec 16) (words : FlowP) (s : State) : Host.Outcome State Fault Refusal :=
  let old := s.flowCopy fid.toNat desc.shadow
  let bad := !s.flowNamed desc fid || decide (words.qbase ≠ old.qbase ∨ words.qcnt ≠ old.qcnt) ||
    (old.merge words).refused || FlowP.refused { words with c3 := old.c3 }
  s.hostCmd desc 6 true false bad false true (fun s1 t =>
    s1.flowCmd desc t desc.dieNo 0 (.context (fid.toNat % 8192) desc.shadow words))

/-- FLOW_MOD of one queue, which repeats the flow's QBASE and QCNT (R352, R445). -/
def execFlowModQueue (desc : Desc) (fid : BitVec 16) (words : FlowP) (qidx : BitVec 8) (qp : QParam) (s : State) : Host.Outcome State Fault Refusal :=
  let old := s.flowCopy fid.toNat desc.shadow
  let bad := !s.flowNamed desc fid || decide (old.qcnt ≤ qidx.toNat ∨ qp.policy = 3 ∨ words.qbase ≠ old.qbase ∨ words.qcnt ≠ old.qcnt)
  s.hostCmd desc 6 true false bad false true (fun s1 t =>
    s1.flowCmd desc t desc.dieNo 0 (.queue (131072 * desc.dieNo + old.qbase + qidx.toNat) desc.shadow qp))

/-! ### Swaps (R407, R410, R417) -/

/-- SWAP_ARM: T ≥ n + 4, or n + 2 for a rollback, and T ≤ n + 65,536 (R407, R417). -/
def execSwapArm (desc : Desc) (t : BitVec 48) (crcs : List W32) (s : State) : Host.Outcome State Fault Refusal :=
  let n := s.fn desc.port.val
  let rb := desc.flags.getLsbD 1
  s.hostCmd desc 7 false true false false false (fun s1 tk =>
    let answer (st : Status) : State := s1.complete tk desc.tag desc.irq st 0 false t.toNat
    if t.toNat < n + (if rb then 2 else 4) then answer .toosoon
    else if n + 65536 < t.toNat then answer .toofar
    else if s1.f F.PKG_SWAP.ARMED 0 [] = 1 then answer .busy
    else (s1.armSwap ⟨t.toNat, rb, crcs⟩).waitFor desc tk .swap)

/-- SWAP_CANCEL (R410). -/
def execSwapCancel (desc : Desc) (s : State) : Host.Outcome State Fault Refusal :=
  s.hostCmd desc 8 false true false false false (fun s1 t =>
    match s1.pkg.arm with
    | some a =>
      if s1.fn desc.port.val + 2 ≤ a.t then
        (s1.disarm.finish (fun k => decide (k = .swap)) .cancelled (fun _ => 0) a.t).reply desc t .done 0
      else s1.reply desc t .late 0
    | none => s1.reply desc t .late 0)

/-! ### QUERY (R447, R448) -/

/-- The result buffer, then the completion with the bytes written (R448). -/
def State.answerQuery (s : State) (x : Desc) (t : Taken) (ws : List W32) : State :=
  (s.emit x.port.val (.result x.rbuf ws)).reply x t .done (4 * ws.length)

/-- The messages of a register read of QUERY that crosses the spine, and of its answer (R35). The value is that of the command (DEDUCED, log entry 160). -/
def State.queryCross (s : State) (p : PortNo) (addr : Nat) : State :=
  match if s.unpop addr then none else crosses (.host p) addr with
  | some (_, g) => (s.spineSend p.val g .query).spineSend g p.val .query
  | none => s

/-- Registers read in ascending address. -/
def State.readRun (s : State) (addr : Nat) : Nat → State × List W32
  | 0 => (s, [])
  | n + 1 =>
    let (s1, v) := s.busRead addr
    let (s2, l) := State.readRun s1 (addr + 4) n
    (s2, v :: l)

/-- A result of n bytes does not fit. -/
def Desc.small (x : Desc) (n : Nat) : Bool := decide (x.rbuf = 0) || decide (x.rlen.toNat < n)

/-- QUERY of registers (R447). -/
def execQueryRegisters (desc : Desc) (addr : W32) (count : BitVec 16) (s : State) : Host.Outcome State Fault Refusal :=
  let n := count.toNat
  let bad := decide (n = 0 ∨ 1024 < n ∨ addr.toNat % 4 ≠ 0 ∨ 0x1000000 < addr.toNat + 4 * n) || desc.small (4 * n)
  s.hostCmd desc 9 true true bad false false (fun s1 t =>
    let (s2, l) := s1.readRun addr.toNat n
    ((List.range n).foldl (fun u i => u.queryCross desc.port (addr.toNat + 4 * i)) s2).answerQuery desc t l)

/-- QUERY of a flow context (R365, R447). -/
def execQueryFlow (desc : Desc) (fid : BitVec 16) (s : State) : Host.Outcome State Fault Refusal :=
  let bad := decide (fid.toNat / 8192 ≠ desc.dieNo ∨ 5120 ≤ fid.toNat % 8192) || desc.small 32
  s.hostCmd desc 9 true false bad false false (fun s1 t =>
    s1.answerQuery desc t ((List.range 8).map (s1.flowView fid.toNat desc.shadow)))

/-- QUERY of a queue view (R364, R447). -/
def execQueryQueue (desc : Desc) (queue : W32) (s : State) : Host.Outcome State Fault Refusal :=
  s.hostCmd desc 9 true false (decide (queue.toNat / 131072 ≠ desc.dieNo) || desc.small 16) false false (fun s1 t =>
    s1.answerQuery desc t ((List.range 4).map (s1.queView queue.toNat)))

/-- QUERY of the tally (R447). -/
def execQueryTally (desc : Desc) (s : State) : Host.Outcome State Fault Refusal :=
  let d := desc.dieNo
  s.hostCmd desc 9 true false (desc.small 32) false false (fun s1 t =>
    s1.answerQuery desc t ((List.range 6).map (fun i => s1.reg .KEN_TALLY d [i]) ++ [s1.reg .KEN_BLOCKS d [], s1.show_ ⟨.KEN_STAT, d, [], false⟩]))

/-! ### REPAIR and SCRUB (R280, R393, R394, R445) -/

/-- REPAIR: programming starts, and the completion waits for its end (R280, R446). -/
def execRepair (desc : Desc) (entry : BitVec 8) (s : State) : Host.Outcome State Fault Refusal :=
  let d := desc.dieNo
  let i := entry.toNat
  s.hostCmd desc 10 true false (decide (16 ≤ i) || decide (s.f F.REP_SOFT.V d [i] = 0)) false false (fun s1 t =>
    if s1.f F.REP_STAT.FREE d [] = 0 then s1.reply desc t .nospace 0
    else if s1.f F.REP_STAT.PROG d [] = 1 then s1.reply desc t .busy 0
    else ((s1.raise F.REP_STAT.PROG d []).setDie d { s1.die d with progEntry := some (i, s1.reg .REP_SOFT d [i]) }).waitFor desc t (.repair d))

/-- SCRUB of a full pass, which begins now: the completion waits for its end. -/
def execScrubFull (desc : Desc) (s : State) : Host.Outcome State Fault Refusal :=
  let d := desc.dieNo
  s.hostCmd desc 11 true false false false false (fun s1 t =>
    (s1.setDie d { s1.die d with scrubSeen := [] }).waitFor desc t (.scrub d (s1.f F.DIE_ERRCNT.COUNT d [6])))

/-- The words of a range that exist: shared memory, or a mailbox of FD0 and FD1 (R27). -/
def scrubRangeOk (d pa n : Nat) : Bool :=
  decide (pa / 8589934592 = d) &&
    (decide (paOff pa + n ≤ 67108864) || (decide (d < 2) && decide (67108864 ≤ paOff pa ∧ paOff pa + n ≤ 67112960)))

/-- One word of a range, as the scrubber meets it; words that are not listed hold no error. -/
def State.scrubWord (s : State) (d pa : Nat) : State :=
  if ok18 (s.word pa) then s
  else if paMailbox pa then (s.incF F.DIE_ERRCNT.COUNT d [6]).colErrAt pa
  else if s.bankOn d (paBank pa) = false then s
  else s.scrubShared d (paBank pa) (pa % 1048576)

/-- SCRUB of a range: RESULT holds the errors found. -/
def execScrubRange (desc : Desc) (pa : BitVec 48) (words : W32) (s : State) : Host.Outcome State Fault Refusal :=
  let d := desc.dieNo
  let a := pa.toNat
  let n := words.toNat
  s.hostCmd desc 11 true false (!scrubRangeOk d a n) false false (fun s1 t =>
    let hit := (s1.shm.map Prod.fst).filter (fun k => decide (a ≤ k ∧ k < a + n) && !ok18 (s1.word k) &&
      s1.reaches k)
    (hit.foldl (fun u k => u.scrubWord d k) s1).reply desc t .done hit.length)

/-- A full pass was asked for and has not ended. -/
def State.scrubAsked (s : State) (d : Nat) : Bool :=
  s.pkg.waits.any (fun w => match w.kind with | .scrub i _ => decide (i = d) | _ => false)

/-- The pass of a die ends: DIE_SCRUBPASS counts it, and commands that wait for it complete (R445). -/
def State.passDone (s : State) (d : Nat) : State :=
  let n := s.f F.DIE_ERRCNT.COUNT d [6]
  (s.incF F.DIE_SCRUBPASS.COUNT d []).finish (fun k => match k with | .scrub i _ => decide (i = d) | _ => false) .done
    (fun k => match k with | .scrub _ b => n - b | _ => 0) (s.fn d)

/-- The PA of a word of a die's mailbox (R27). -/
def mailPa (d w : Nat) : Nat := d * 8589934592 + 67108864 + w

/-- TEST runs its SCRUB part (R549). -/
def State.testScrub (s : State) : Bool :=
  match s.pkg.test with
  | some t => t.started && t.has 1
  | none => false

/-- The scrubber may read a place now (R262, R393, R549): a bank that is ON, a powered engine, local words and mailbox words outside the work phase or,
in the pass of TEST, those of an engine without a list. -/
def State.scrubOpen (s : State) (d : Nat) (test : Bool) : ScrubTarget → Bool
  | .shared b _ => s.bankOn d b.val
  | .local e _ => decide (s.f F.ENG_STAT.PWR d [e.val] = 1) && (decide ((s.die d).phase ≠ .work) ||
      (test && (s.noList d e.val || decide (s.f F.ENG_STAT.SUSPECT d [e.val] = 1))))
  | .program e _ _ => decide (s.f F.ENG_STAT.PWR d [e.val] = 1)
  | .mailbox _ => decide (d < 2) && decide ((s.die d).phase ≠ .work)
  | .queueArray _ _ | .sharedBits _ => true
  | .passEnd => false

/-- The place shows an error. -/
def State.scrubShows (s : State) (d : Nat) : ScrubTarget → Bool
  | .shared b w => !ok18 (s.word (bankPa d b.val w.toNat))
  | .local e a => !ok18 ((s.eng d e.val).lmem.get 0 a.toNat)
  | .program e half i => !okBundle ((s.eng d e.val).pmem.get 0 ((if half then 4096 else 0) + i.toNat))
  | .queueArray u row => (s.die d).qbad.contains (u.val, row)
  | .sharedBits g => let v := s.sbits.get .zero (4096 * d + g.toNat); !(ok16 v.c0 && ok16 v.c1)
  | .mailbox w => !ok18 (s.word (mailPa d w.toNat))
  | .passEnd => false

/-- What the scrubber does at a place in error (R394); it counts the error. -/
def State.scrubOne (s : State) (d : Nat) (target : ScrubTarget) : State :=
  let s0 := s.incF F.DIE_ERRCNT.COUNT d [6]
  match target with
  | .shared b w => s.scrubShared d b.val w.toNat
  | .local e a =>
    let s1 := s0.noteColumn d e.val (.local a.toNat)
    let hit := (List.range 16).findSome? (fun i => if s.fa F.ENG_FLA.V d [e.val, i] = 1 then s.regionOf d e.val i a.toNat else none)
    match hit with
      | some j => s1.updEng d e.val (fun y => { y with badRegs := if y.badRegs.contains j then y.badRegs else y.badRegs ++ [j] })
      | none => s1
  | .program e half i =>
    let x := s.eng d e.val
    let s1 := s0.colErr d 1 (e.val * 2 + half.toNat) i.toNat (failsBundle (x.pmem.get 0 ((if half then 4096 else 0) + i.toNat)))
    (s1.mendBundle d e.val half (half == x.half) i.toNat).1
  | .queueArray u row =>
    let s1 := s0.colErr d 3 u.val row []
    if (s.die d).qbad.contains (pairArray u.val, row) then (s1.stopDie d).performAll else s1.mendRow d u.val row
  | .sharedBits g => { s0 with sbits := s0.sbits.set .zero (4096 * d + g.toNat) (s0.sbits.get .zero (4096 * d + g.toNat)).heal }
  | .mailbox w => s0.colErrAt (mailPa d w.toNat)
  | .passEnd => s

/-- The places of a die that show an error and that a pass reads (R393). -/
def State.scrubTargets (s : State) (d : Nat) : List ScrubTarget :=
  let powered := (List.range 64).filter (fun e => decide (s.f F.ENG_STAT.PWR d [e] = 1))
  let mine := s.shm.filter (fun p => decide (paDie p.1 = d) && !ok18 p.2)
  ((mine.filter (fun p => paShared p.1 && s.bankOn d (paBank p.1))).map (fun p => .shared (Fin.ofNat 64 (paBank p.1)) (BitVec.ofNat 20 p.1))) ++
  powered.flatMap (fun e => ((s.eng d e).lmem.filter (fun p => !ok18 p.2)).map (fun p => .local (Fin.ofNat 64 e) (BitVec.ofNat 16 p.1))) ++
  powered.flatMap (fun e => ((s.eng d e).pmem.filter (fun p => !okBundle p.2)).map (fun p =>
    .program (Fin.ofNat 64 e) (decide (4096 ≤ p.1)) (BitVec.ofNat 12 p.1))) ++
  (s.die d).qbad.map (fun p => .queueArray (Fin.ofNat 32 p.1) p.2) ++
  (s.sbits.filter (fun p => decide (p.1 / 4096 = d) && !(ok16 p.2.c0 && ok16 p.2.c1))).map (fun p => .sharedBits (BitVec.ofNat 12 p.1)) ++
  (mine.filter (fun p => paMailbox p.1)).map (fun p => .mailbox (BitVec.ofNat 12 p.1))

/-- The end of a pass (R393): the words in error that it has not read yet are read by then. -/
def State.passEnd (s : State) (d : Nat) (left : List ScrubTarget) : State :=
  let s1 := left.foldl (fun t x => t.scrubOne d x) s
  (s1.setDie d { s1.die d with scrubSeen := [], scrubAge := 0 }).passDone d

/-- A read of the scrubber's own pass, or its end. -/
def State.scrubPass (s : State) (d : Nat) (target : ScrubTarget) : State :=
  let asked := s.scrubAsked d
  if s.f F.DIE_SCRUB.EN d [] = 0 ∧ asked = false then s
  else if target = .passEnd then
    let left := (s.scrubTargets d).filter (fun t => !(s.die d).scrubSeen.contains t)
    let due := asked || decide (s.f F.DIE_SCRUB.PERIOD d [] ≤ (s.die d).scrubAge)
    if due && left.all (s.scrubOpen d false) then s.passEnd d left else s
  else if s.scrubOpen d false target && s.scrubShows d target then
    let s1 := s.scrubOne d target
    s1.setDie d { s1.die d with scrubSeen := target :: (s1.die d).scrubSeen }
  else s

/-- A read of the one pass that TEST runs beside those, or its end (R549). DIE_SCRUBPASS does not count it (DESIGN CHOICE, log entry 186). -/
def State.testScrubPass (s : State) (d : Nat) (target : ScrubTarget) : State :=
  if s.testScrub = false ∨ (s.die d).testPass = true then s
  else if target = .passEnd then
    let left := (s.scrubTargets d).filter (fun t => !(s.die d).testSeen.contains t)
    if left.all (s.scrubOpen d true) then
      let s1 := left.foldl (fun t x => t.scrubOne d x) s
      s1.setDie d { s1.die d with testPass := true, testErrs := (s1.die d).testErrs + left.length }
    else s
  else if s.scrubOpen d true target && s.scrubShows d target then
    let s1 := s.scrubOne d target
    s1.setDie d { s1.die d with testSeen := target :: (s1.die d).testSeen, testErrs := (s1.die d).testErrs + 1 }
  else s

/-- SCRUB_READ (R393, R394, R549): one read of the scrubber's pass or of the pass of TEST, or its end. The scrubber's pass ends no sooner than
DIE_SCRUB.PERIOD frames after the last one, unless a command asked for one, and no pass ends before every word in error has been read (DESIGN CHOICE for the
order within a pass, log entry 151). -/
def execScrubRead (die : DieNo) (test : Bool) (target : ScrubTarget) (s : State) : Host.Outcome State Fault Refusal :=
  if s.live die.val = false then .next s
  else if test then .next (s.testScrubPass die.val target) else .next (s.scrubPass die.val target)

/-- The end of fuse programming: the REPAIR that waits completes (R280, R445, R446). -/
def State.repaired (s : State) (d : Nat) (st : Status) (result : Nat) : State :=
  s.finish (fun k => decide (k = .repair d)) st (fun _ => result) (s.fn d)

/-- FUSE_PROGRAMMING_END (R280): the record that REPAIR named is programmed, as it was then; the lowest record that is neither programmed nor left invalid is used (R611). -/
def execFuseProgrammingEnd (die : DieNo) (ok : Bool) (s : State) : Host.Outcome State Fault Refusal :=
  let d := die.val
  match (s.die d).progEntry with
  | none => .next s
  | some (i, v) =>
    let s1 := (s.setF F.REP_STAT.PROG d [] 0).setDie d { s.die d with progEntry := none }
    let failed := (s1.raise F.REP_EV.PROGFAIL d []).repaired d .fail 0
    if s.live d = false then .next s
    else match (List.range 16).find? (fun k => decide (s.f F.REP_FIELD.V d [k] = 0) && !s.pkg.badFuse.contains (16 * d + k)) with
      | none => .next failed
      | some k =>
        if ok = false then .next failed
        else
          let s2 := (s1.setReg .REP_FIELD d [k] v).setF F.REP_STAT.FREE d [] (s.f F.REP_STAT.FREE d [] - 1)
          let s3 := (s2.raise F.REP_EV.PROGDONE d []).setDie d { s2.die d with progDone := (s2.die d).progDone ++ [(i, v)] }
          .next (s3.repaired d .done k)

/-! ### TEST_START, keys and AUDIT (R360, R546, R583, R584) -/

/-- TEST_START (R546): TEST begins at the next tick. A second one before that tick completes with BUSY too (DESIGN CHOICE, log entry 186). -/
def execTestStart (desc : Desc) (mask dur : W32) (s : State) : Host.Outcome State Fault Refusal :=
  let bad := decide (64 ≤ mask.toNat) || decide (mask = 0) || decide (dur = 0)
  s.hostCmd desc 12 false true bad (decide (s.pkgState ≠ 3)) false (fun s1 t =>
    let fn := (s1.fn desc.port.val + 1 + dur.toNat) % 281474976710656
    if s1.pkg.test ≠ none then s1.reply desc t .busy 0
    else ({ s1 with pkg := { s1.pkg with test := some ⟨mask.toNat, fn, false, false, 0, 0, 0, [], false⟩ } }).waitFor desc t .test)

/-- The length of a wrapped key of each type (R583). -/
def keyBytes (ty : Nat) : Nat := match ty with | 1 => 40 | 2 => 24 | _ => 40

/-- A key waits for cycle 0 of the next tick (R584). -/
def State.keyWait (s : State) (x : Desc) (t : Taken) (slot ty : Nat) (key : List Byte) : State :=
  let d := x.dieNo
  (s.setDie d { s.die d with keyDue := (s.die d).keyDue ++ [(slot, ty, key)] }).waitFor x t (.key d)

/-- KEY_LOAD (R583, R584). -/
def execKeyLoad (desc : Desc) (readBad : Bool) (slot type : BitVec 8) (len : BitVec 16) (blob : List Byte) (s : State) :
    Host.Outcome State Fault Refusal :=
  let ty := type.toNat
  let bad := decide (32 ≤ slot.toNat ∨ ty = 0 ∨ 3 < ty ∨ len.toNat ≠ keyBytes ty)
  s.hostCmd desc 13 true false bad false false (fun s1 t =>
    if readBad then s1.reply desc t .dmaerr 0
    else if s1.f F.SEC_STAT.KEKOK desc.dieNo [] = 0 then s1.reply desc t .fail 0
    else match Config.keyUnwrap blob with
      | none => s1.reply desc t .fail 0
      | some key => s1.keyWait desc t slot.toNat ty key)

/-- KEY_LOAD of type 00h erases the slot (R583). -/
def execKeyErase (desc : Desc) (slot : BitVec 8) (s : State) : Host.Outcome State Fault Refusal :=
  s.hostCmd desc 13 true false (decide (32 ≤ slot.toNat)) false false (fun s1 t => s1.keyWait desc t slot.toNat 0 [])

/-- AUDIT (R360): BUSY while one runs. -/
def execAudit (desc : Desc) (s : State) : Host.Outcome State Fault Refusal :=
  let d := desc.dieNo
  s.hostCmd desc 14 true false false false false (fun s1 t =>
    let a := (s1.die d).audit
    if a.running then s1.reply desc t .busy 0
    else (s1.setDie d { s1.die d with audit := { a with req := true } }).waitFor desc t (.audit d))

/-- The audit ends, and the AUDIT commands that wait for it complete (R362, R445). -/
def State.audited (s : State) (d : Nat) : State :=
  let s1 := s.auditDone d
  s1.finish (fun k => decide (k = .audit d)) .done
    (fun _ => s1.f F.KEN_AUDRES.LEAKS d [] * 65536 + s1.f F.KEN_AUDRES.DUPS d []) (s1.fn d)

/-- The blocks of a die are settled, and the audit ends where no copy is due (R361). -/
def State.auditSettle (s : State) (d : Nat) : State :=
  let hs := s.holders d
  let cand := ((hs.map Prod.fst) ++ (s.blks.filter (fun (e : Nat × Block) => decide (e.1 / 65536 = d))).map (fun (e : Nat × Block) => e.1 % 65536)).eraseDups
  let s1 := (cand.filter (s.validH d)).foldl (fun (t : State) (h : Nat) => t.settleBlk d h ((hs.filter (fun p => decide (p.1 = h))).map Prod.snd)) s
  let x := s1.die d
  let s2 := s1.setDie d { x with audit := { x.audit with settled := true } }
  if x.audit.copies = [] then s2.audited d else s2

/-- The audit at a tick, in the step that follows the queue commit (R360, R361): the commit phase that ends the 64th frame settles the blocks, and the
first at which every copy is made ends the audit. -/
def State.auditStep (s : State) (d : Nat) : State :=
  let s1 := s.auditTick d
  let a := (s1.die d).audit
  if a.running = false ∨ a.frame < 64 then s1
  else if a.settled = false then s1.auditSettle d
  else if a.copies = [] then s1.audited d else s1

/-- AUDIT_END (R361, R362): the tick that ends the 64th frame settles the blocks; here an audit that it has passed over (log entry 182). -/
def execAuditEnd (die : DieNo) (s : State) : Host.Outcome State Fault Refusal :=
  let a := (s.die die.val).audit
  if s.live die.val = false ∨ a.running = false ∨ a.frame < 64 ∨ a.settled = true then .next s
  else .next (s.auditSettle die.val)

/-- Replace the last element equal to `h`, as `key` reads it. -/
def renameLast {A : Type} (key : A → BitVec 16) (put : A → A) (h : BitVec 16) (l : List A) : List A :=
  let r := l.reverse
  (match r.findIdx? (fun e => decide (key e = h)) with
   | some i => r.modify i put
   | none => r).reverse

/-- A holder of block `h` holds block `n` instead (R361). -/
def State.renameIn (s : State) (d : Nat) (k : Holder) (h n : BitVec 16) : State :=
  match k with
  | .queue g =>
    let q := s.que g
    s.setQue g (if q.pend.any (fun e => decide (e.h = h)) then { q with pend := swapLast h n q.pend } else { q with com := swapLast h n q.com })
  | .outbound =>
    let x := s.die d
    s.setDie d { x with outbound := renameLast Prod.fst (fun p => (n, p.2)) h x.outbound }
  | .hold e => s.updEng d e (fun x => { x with work := { x.work with alloc := renameLast id (fun _ => n) h x.work.alloc } })
  | .loan => s

/-- A duplicate holder still holds block `h`. -/
def State.holdsStill (s : State) (d : Nat) (h : BitVec 16) (k : Holder) : Bool :=
  match k with
  | .loan => true
  | _ => (s.holders d).contains (h.toNat, k)

/-- AUDIT_COPY (R361): one duplicate holder receives a copy in a fresh block, and the original is rewritten; a holder that has let the block go needs
none. -/
def execAuditCopy (die : DieNo) (s : State) : Host.Outcome State Fault Refusal :=
  let d := die.val
  let a := (s.die d).audit
  match a.copies with
  | [] => .next s
  | (h, k) :: rest =>
    if s.live d = false then .next s
    else if s.holdsStill d h k = false then .next (s.setDie d { s.die d with audit := { a with copies := rest } })
    else match s.pickFree d with
    | none => .next s
    | some n =>
      let (ws, c, miss) := s.blockView d h.toNat
      let s1 := ((s.noteConceal d h.toNat c miss).writeBlk d n ws).writeBlk d h.toNat ws
      let s2 := (s1.useFree 1).toState d n { s1.blk d h.toNat with st := k.state }
      let s3 := s2.renameIn d k h (BitVec.ofNat 16 n)
      .next (s3.setDie d { s3.die d with audit := { (s3.die d).audit with copies := rest } })

end Sys2Proof.Machine
end

