-- ==== Sys2Proof/Machine/Boot.lean ====
section
/-! DEFINITION. The boot: self-tests, the endpaper and its sections, Early Service's resources, and recovery from a host image
(R559 to R571). -/

namespace Sys2Proof.Machine

/-! ### Bytes -/

/-- A little-endian number. -/
def leNat (l : List Byte) : Nat := l.foldr (fun b a => b.toNat + 256 * a) 0

/-- A big-endian number. -/
def beNat (l : List Byte) : Nat := l.foldl (fun a b => 256 * a + b.toNat) 0

/-- Bytes lo to lo + n − 1. -/
def slice (l : List Byte) (lo n : Nat) : List Byte := (l.drop lo).take n

/-- A little-endian field. -/
def fieldAt (l : List Byte) (lo n : Nat) : Nat := leNat (slice l lo n)

/-- The list cut into pieces of n. -/
def pieces (n : Nat) (l : List Byte) : List (List Byte) := (List.range (l.length / n)).map (fun i => slice l (n * i) n)

/-! ### The boot die and its attempts (R560, R561, R564) -/

def State.setBoot (s : State) (b : Boot) : State := { s with pkg := { s.pkg with boot := b } }

/-- Every memory of the part is cleared again after a failed attempt (R559, R566). -/
def State.clearMem (s : State) : State :=
  { s with shm := [], sbits := [], blks := [], ques := [], qpA := [], qpS := [], flA := [], flS := [], flSt := [], flViewS := [], flView := []
           engs := s.engs.map (fun p => (p.1, { p.2 with lmem := [], pmem := [], l2 := [], itlb := [], dtlb := [], walk := [] }))
           dies := s.dies.map (fun p => (p.1, { p.2 with keys := [] })) }

/-- An attempt fails: its reason is recorded, and the next flash is tried, or the part stays in or enters RECOVERY (R557, R564). -/
def State.bootFail (s : State) (n reason : Nat) : State :=
  let b := s.pkg.boot
  let s1 := s.clearMem.setF (if n = 0 then F.PKG_BOOT.REASON0 else F.PKG_BOOT.REASON1) 0 [] reason
  if n = 0 ∧ s.live (1 - b.die) = true then s1.setBoot { b with stage := .header 1 } else s1.setBoot { b with stage := .enter 5 }

/-- The reset clearing of every engine has ended (R559). -/
def State.engsClear (s : State) : State :=
  s.liveDies.foldl (fun t d => (List.range 64).foldl (fun u e =>
    if u.f F.ENG_CTL.EN d [e] = 1 ∧ u.f F.ENG_STAT.PWR d [e] = 0 then
      (u.updEng d e (fun x => { x with waking := false })).raise F.ENG_STAT.PWR d [e] else u) t) s

/-- BOOT_SELFTEST_END (R560). -/
def execBootSelftestEnd (ok0 ok1 : Bool) (s : State) : Host.Outcome State Fault Refusal :=
  let b := s.pkg.boot
  if b.stage ≠ .selftest ∨ s.pkgState ≠ 1 then .next s
  else
    let s1 := s.engsClear
    if ok0 then .next (s1.setBoot { b with stage := .header 0, die := 0 })
    else if ok1 then .next (((s1.stopDie 0).performAll.raise F.PKG_BOOT.DIE 0 []).setBoot { b with stage := .header 0, die := 1 })
    else .next (((s1.setF F.PKG_BOOT.REASON0 0 [] 8).setF F.PKG_BOOT.REASON1 0 [] 8).setBoot { b with stage := .enter 5, dead := true })

/-- Checks 1 to 4 of R564 on a header: the reason of the first that fails, or 0. -/
def State.headerReason (s : State) (h : List Byte) : Nat :=
  let d := s.pkg.boot.die
  let k := fieldAt h 6 1
  let key := slice h 64 64
  let len := fieldAt h 12 4
  let n := fieldAt h 16 2
  if h.length < 256 ∨ slice h 0 6 ≠ [0x44, 0x58, 0x45, 0x50, 0x01, 0x00] then 1
  else if 4 ≤ k ∨ s.pkg.keyHash[k]? ≠ some (Config.sha256 key) ∨ (s.f F.SEC_STAT.KPROG d []).testBit k = false ∨
      (s.f F.SEC_STAT.KREV d []).testBit k = true then 2
  else if Config.ecdsaVerify key (slice h 128 64) (Config.sha256 (slice h 0 128)) = false then 3
  else if fieldAt h 8 4 < s.f F.PKG_SVNMIN.SVN 0 [] ∨ len % 16 ≠ 0 ∨ 0x1800000 < len ∨ n = 0 ∨ 1024 < n then 4
  else 0

/-- ENDPAPER_HEADER_READ (R564): `none` is a flash read error. -/
def execEndpaperHeaderRead (bytes : Option (List Byte)) (s : State) : Host.Outcome State Fault Refusal :=
  let b := s.pkg.boot
  match b.stage with
  | .header n =>
    if s.live b.die = false then .next s
    else match bytes with
      | none => .next (s.bootFail n 7)
      | some h =>
        let r := s.headerReason h
        if r = 0 then .next (s.setBoot { b with stage := .payload n, header := h }) else .next (s.bootFail n r)
  | _ => .next s

/-! ### Sections (R565) -/

/-- An entry of the section table. -/
structure Section where
  ty : Nat
  die : Nat
  n : Nat
  zero : Nat
  target : Nat
  off : Nat
  len : Nat
  deriving DecidableEq, Repr

def sectionAt (p : List Byte) (i : Nat) : Section :=
  let x := slice p (16 * i) 16
  ⟨fieldAt x 0 1, fieldAt x 1 1, fieldAt x 2 1, fieldAt x 3 1, fieldAt x 4 4, fieldAt x 8 4, fieldAt x 12 4⟩

/-- The data of a section. -/
def Section.data (x : Section) (p : List Byte) : List Byte := slice p x.off x.len

/-- The pairs of a REGS section. -/
def Section.pairs (x : Section) (p : List Byte) : List (Nat × W32) :=
  (pieces 8 (x.data p)).map (fun b => (fieldAt b 0 4, BitVec.ofNat 32 (fieldAt b 4 4)))

/-- A section meets R565, by itself. -/
def State.sectionOk (s : State) (p : List Byte) (count : Nat) (x : Section) : Bool :=
  decide (s.populated x.die = true ∧ x.zero = 0 ∧ 16 * count ≤ x.off ∧ x.off + x.len ≤ p.length) &&
  (match x.ty with
   | 1 => decide (x.n < 64 ∧ x.len % 18 = 0 ∧ x.target + x.len / 18 ≤ 4096)
   | 2 => decide (x.n = 0 ∧ x.target = 0 ∧ x.len % 8 = 0) && (x.pairs p).all (fun e =>
       decide (e.1 % 4 = 0) && decide (e.1 < 0x100000 * (s.variant.dies + 1)))
   | 3 => decide (x.n = 0 ∧ x.len % 4 = 0 ∧ x.target + x.len / 4 ≤ 67108864)
   | 4 => decide (x.n < 16 ∧ x.target = 0 ∧ x.len % 2 = 0)
   | 5 => decide (x.n < 32 ∧ 1 ≤ x.target ∧ x.target ≤ 3 ∧ x.len = keyBytes x.target)
   | 6 => decide (x.n = 0 ∧ x.target = 0 ∧ x.len = 24)
   | _ => false)

/-- The MSG samples of a die: at most 8,388,608, and their runs, each from a multiple of 64 words, within banks 47 to 54. -/
def msgFit (l : List Section) (d : Nat) : Bool :=
  let m := (l.filter (fun x => decide (x.ty = 4 ∧ x.die = d))).map (fun x => x.len / 2)
  decide (m.foldl (fun a n => a + n) 0 ≤ 8388608) && decide (m.foldl (fun a n => (a + 63) / 64 * 64 + n) 0 ≤ 8388608)

/-! ### Applying an image (R565, R566, R570, R571) -/

/-- The key under which `placeSection` counts the words held in bank 0. -/
def heldKey : Nat := 8

/-- Bytes as words, two bytes in bits [15:0] of each. -/
def heldWords (l : List Byte) : List W18 := (pieces 2 l).map (fun b => BitVec.ofNat 18 (leNat b))

/-- CODE, WORDS and MSG data at their destinations; REGS, KEY and FLOW data in shared bank 0 of the boot die, two bytes a word from word 0 on, one section
behind the other (R566; DESIGN CHOICE for the layout, log entry 168). `at_` is the next free word of each die's message run and of bank 0. -/
def State.placeSection (s : State) (p : List Byte) (at_ : Store Nat) (x : Section) : State × Store Nat :=
  let d := x.die
  if x.ty = 2 ∨ x.ty = 5 ∨ x.ty = 6 then
    let l := heldWords (x.data p)
    let a := at_.get 0 heldKey
    (s.putWords (bankPa s.pkg.boot.die 0 a) l, at_.set 0 heldKey (a + l.length))
  else if s.live d = false then (s, at_)
  else match x.ty with
    | 1 =>
      let l := (pieces 18 (x.data p)).mapIdx (fun i b => (x.target + i, encBundle (BitVec.ofNat 144 (leNat b))))
      (s.updEng d x.n (fun y => { y with pmem := l.foldl (fun m (i, b) => m.set 0 ((if y.half then 4096 else 0) + i) b) y.pmem }), at_)
    | 3 => (s.putWords (bankPa d 0 x.target) ((pieces 4 (x.data p)).map (fun b => BitVec.ofNat 18 (leNat b))), at_)
    | 4 =>
      let start := (at_.get 0 d + 63) / 64 * 64
      let n := x.len / 2
      let l := (pieces 2 (x.data p)).map (fun b => BitVec.ofInt 18 (4 * (BitVec.ofNat 16 (leNat b)).toInt))
      let s1 := s.putWords (bankPa d 47 start) l
      let dir := [BitVec.ofNat 18 (start / 64), BitVec.ofNat 18 (n / 262144), BitVec.ofNat 18 n, 0]
      (s1.putWords (bankPa d 46 (0x19000 + 4 * x.n)) dir, at_.set 0 d (start + n))
    | _ => (s, at_)

/-- A pair of a REGS section: both copies of an RWS register, else a write by its field types (R15, R565). -/
def State.bootWrite (s : State) (a : Nat) (v : W32) : State :=
  match s.target a with
  | none => if s.unpop a then s.busErr 0 else s
  | some l =>
    if l.isAct then s
    else
      let s1 := s.regWrite (.eng ⟨s.pkg.boot.die % 8, Nat.mod_lt _ (by decide)⟩ 0) l v
      if l.reg.banked then s1.setAct l.reg l.die l.idx (l.reg.write l.die (s1.act l.reg l.die l.idx) v) else s1

/-- Write both copies of an RWS field. -/
def State.setBoth (s : State) (x : Fld) (d : Nat) (idx : List Nat) (v : Nat) : State := (s.setF x d idx v).setFa x d idx v

/-- The resources of R570 on one die. -/
def State.earlyDie (s : State) (d : Nat) : State :=
  let o := 1 - d
  let s1 := (s.setBoth F.KEN_POOL.BASE d [] 40).setBoth F.KEN_POOL.NBANK d [] 1
  let s2 := s1.setF F.SHM_OWN.OWNER d [41] 7
  let s3 := (List.range 9).foldl (fun t i =>
    let b := 46 + i
    let u := (((t.setF F.SHM_OWN.OWNER d [b] 11).setF F.SHM_TWIN.EN d [b] 1).setF F.SHM_TWIN.DIE d [b] o).setF F.SHM_TWIN.BANK d [b] b
    if u.live o then u.form d b else u.raise F.SHM_TWIN.SOLO d [b]) s2
  [56, 57, 58, 59].foldl (fun t e => (t.setBoth F.DIE_PMSRC.V d [e] 1).setBoth F.DIE_PMSRC.SRC d [e] (46 * 1048576)) s3

/-- Early Service's resources on FD0 and FD1. -/
def State.earlySetup (s : State) : State := ([0, 1].filter s.live).foldl State.earlyDie s

/-- The pools take the sizes that the boot and the REGS sections gave them, from that of reset (R322, R326). -/
def State.bootPools (s : State) : State :=
  s.liveDies.foldl (fun t d =>
    let b := field (RegName.desc .KEN_POOL).reset F.KEN_POOL.BASE.hi F.KEN_POOL.BASE.lo
    let n := field (RegName.desc .KEN_POOL).reset F.KEN_POOL.NBANK.hi F.KEN_POOL.NBANK.lo
    if t.fa F.KEN_POOL.BASE d [] = b ∧ t.fa F.KEN_POOL.NBANK d [] = n then t else (t.resize d b n).refill d) s

/-- A FLOW section opens the next flow of its die; `none` where R348 or another flow of the image refuses it. -/
def State.bootFlow (s : State) (fid : Nat) (d : Nat) (b : List Byte) : Option State :=
  let w (i : Nat) : W32 := BitVec.ofNat 32 (fieldAt b (4 * i) 4)
  let p : FlowP := ⟨w 0 ||| 0x80000000#32, w 1, w 2, w 3⟩
  let q : QParam := ⟨BitVec.ofNat 2 (fieldAt b 20 1), BitVec.ofNat 16 (fieldAt b 16 2), BitVec.ofNat 16 (fieldAt b 18 2)⟩
  let taken := s.flA.any (fun e => decide (e.1 / 8192 = d) && e.2.isOpen && e.2.overlaps p)
  if p.refused = true ∨ taken = true ∨ 2 < fieldAt b 20 1 ∨ fieldAt b 21 3 ≠ 0 ∨ 5120 ≤ fid then none
  else some ((s.flowEffect d (.open_ fid false p q)).openFlow d (8192 * d + fid) p)

/-- The FLOW sections in section order, FIDs from 0 upward on each die (R566). -/
def State.bootFlows (s : State) (p : List Byte) (used : Store Nat) : List Section → Option State
  | [] => some s
  | x :: l =>
    if x.ty ≠ 6 then State.bootFlows s p used l
    else match s.bootFlow (used.get 0 x.die) x.die (x.data p) with
      | none => none
      | some t => State.bootFlows t p (used.set 0 x.die (used.get 0 x.die + 1)) l

/-- The KEY sections (R566, R583): each key in its slot. -/
def State.bootKeys (s : State) (p : List Byte) : List Section → Option State
  | [] => some s
  | x :: l =>
    if x.ty ≠ 5 then State.bootKeys s p l
    else if s.f F.SEC_STAT.KEKOK x.die [] = 0 then none
    else match Config.keyUnwrap (x.data p) with
      | none => none
      | some key =>
        let s1 := (s.raise F.SEC_SLOT.V x.die [x.n]).setF F.SEC_SLOT.TYPE x.die [x.n] x.target
        let s2 := (s1.setF F.SEC_SLOT.GEN x.die [x.n] (min 65535 (s1.f F.SEC_SLOT.GEN x.die [x.n] + 1))).event 0x306 255 7 [x.die, x.n, x.target]
        State.bootKeys (s2.setDie x.die { s2.die x.die with keys := (s2.die x.die).keys.set [] x.n key }) p l

/-- The CLK byte of a header (R563). In RECOVERY too it sets RATE, and both it and FPER count from the
frame in which the image is applied (DESIGN CHOICE, log entry 179). -/
def State.bootClock (s : State) (c : Nat) : State :=
  let s1 := (s.setF F.TCK_CTL.RATE 0 [] (c % 2)).setBoth F.TCK_FRAME.FPER 0 [] (c / 2 % 4)
  let s2 := if c / 8 % 4 = 3 then s1 else s1.setF F.TCK_CTL.SRC 0 [] (c / 8 % 4)
  if c / 32 % 4 = 3 then s2 else s2.setF F.TCK_CTL.PHASE 0 [] (c / 32 % 4)

/-- Check 5 and 6 of R564 on a payload, and its application: the reason of a failure, or 0, and the state. A failure among the FLOW and KEY sections
comes after the registers are written (R566), which keep what the image wrote (DEDUCED, log entry 121). -/
def State.applyImage (s : State) (h p : List Byte) : Nat × State :=
  let n := fieldAt h 16 2
  let l := (List.range n).map (sectionAt p)
  if p.length ≠ fieldAt h 12 4 then (7, s)
  else if (Config.sha256 p).toNat ≠ beNat (slice h 32 32) then (5, s)
  else if p.length < 16 * n ∨ l.all (s.sectionOk p n) = false ∨ (List.range 8).all (msgFit l) = false then (6, s)
  else
    let (s1, _) := l.foldl (fun (a : State × Store Nat) x => a.1.placeSection p a.2 x) (s, [])
    let s2 := s1.bootClock (fieldAt h 7 1)
    let regs := (l.filter (fun x => decide (x.ty = 2))).flatMap (fun x => x.pairs p)
    let write (t : State) : State := regs.foldl (fun u e => u.bootWrite e.1 e.2) t
    match (write s2.earlySetup).bootFlows p [] l with
    | none => (6, write s2)
    | some s4 => match s4.bootKeys p l with
      | none => (6, write s2)
      | some s5 => (0, s5.bootPools)

/-- An accepted image is in force, and the part enters EARLY at the next tick (R557, R564). -/
def State.bootDone (s : State) (src : Nat) (h : List Byte) : State :=
  let s1 := ((s.raise F.PKG_BOOT.VALID 0 []).setF F.PKG_BOOT.SRC 0 [] src).setF F.PKG_SVN.SVN 0 [] (fieldAt h 8 4)
  s1.setBoot { s1.pkg.boot with stage := .enter 2, header := [] }

/-- ENDPAPER_PAYLOAD_READ_END (R564 to R566): `none` is a flash read error. -/
def execEndpaperPayloadReadEnd (payload : Option (List Byte)) (s : State) : Host.Outcome State Fault Refusal :=
  let b := s.pkg.boot
  match b.stage with
  | .payload n =>
    if s.live b.die = false then .next s
    else match payload with
      | none => .next (s.bootFail n 7)
      | some p =>
        let (r, s1) := s.applyImage b.header p
        if r = 0 then .next (s1.bootDone (if n = 0 then b.die else 1 - b.die) b.header) else .next (s1.bootFail n r)
  | _ => .next s

/-! ### RECOVERY (R568) -/

/-- The outcome of a host image of `len` bytes, recorded with SRC = 10b: on success EARLY at the next tick; a failure leaves the part in RECOVERY. Bytes beyond
`len` are not read; a read that brings fewer has failed. -/
def State.recover (s : State) (len : Nat) (image : Option (List Byte)) : State :=
  let go (t : State) : State := t.setF F.PKG_RECOVLEN.GO 0 [] 0
  let fail (t : State) (r : Nat) : State := ((go t.clearMem).setF F.PKG_BOOT.REASON1 0 [] r).setF F.PKG_BOOT.SRC 0 [] 2
  match image.filter (fun b => decide (len ≤ b.length)) with
  | none => fail s 7
  | some c =>
    let b := c.take len
    let h := b.take 256
    let r := s.headerReason h
    if r ≠ 0 then fail s r
    else
      let (r2, s1) := s.applyImage h (slice b 256 (fieldAt h 12 4))
      if r2 ≠ 0 then fail s1 r2 else (go (s1.setF F.PKG_BOOT.REASON1 0 [] 0)).bootDone 2 h

/-- The port reads LEN bytes from the host address of PKG_RECOVLO and PKG_RECOVHI (R568). -/
def State.recoveryRead (s : State) (src : Src) : State :=
  match src with
  | .host p => s.emit p.val (.recoveryRead (s.reg .PKG_RECOVHI 0 [] ++ s.reg .PKG_RECOVLO 0 []) (s.f F.PKG_RECOVLEN.LEN 0 []))
  | .eng _ _ => s

/-- RECOVERY_LOAD (R568): a write of PKG_RECOVLEN with GO, and the image that the port then reads; `none` is a read error. -/
def execRecoveryLoad (src : Src) (val : W32) (image : Option (List Byte)) (s : State) : Host.Outcome State Fault Refusal :=
  if s.srcLive src = false then .next s
  else
    let s1 := if s.f F.PKG_RECOVLEN.GO 0 [] = 1 then s else s.busWrite src (RegName.addr .PKG_RECOVLEN 0 []) (val ||| 0x80000000#32) 0x0F#8
    if s1.f F.PKG_RECOVLEN.GO 0 [] = 1 ∧ s1.live s1.pkg.boot.die = true then
      .next ((s1.recoveryRead src).recover (s1.f F.PKG_RECOVLEN.LEN 0 []) image)
    else .next s1

end Sys2Proof.Machine
end

