-- ==== Sys2Proof/Machine/EngAlu.lean ====
section
/-! DEFINITION. The X class: arithmetic, logic, shifts, extremes, block exponents, decimal, bits, divide and strings
(R176, R193 to R201). -/

namespace Sys2Proof.Machine

/-- A word result with its flags, both at +1 (R193). -/
def Ctx.alu (c : Ctx) (d : Nat) (r : W18) (fl : List (Nat × Bool)) : OpRes := ⟨c.wd 1 d r :: flagFx c.x.sh 1 fl, []⟩

/-- A sum with its flags C Z N V (R176). -/
def Ctx.sum (c : Ctx) (d : Nat) (a b : W18) (cin : Bool) : OpRes :=
  let r := a + b + BitVec.ofNat 18 cin.toNat
  c.alu d r ((0, addC18 a b cin) :: (3, ovf18 (a.toInt + b.toInt + (cin.toNat : Int))) :: znOf r)

/-- The flags C Z N V of a − b − borrow (R176). -/
def subFlags (a b : W18) (bin : Bool) : List (Nat × Bool) :=
  (0, subC18 a b bin) :: (3, ovf18 (a.toInt - b.toInt - (bin.toNat : Int))) :: znOf (a - b - BitVec.ofNat 18 bin.toNat)

/-- A difference with its flags. -/
def Ctx.diff (c : Ctx) (d : Nat) (a b : W18) (bin : Bool) : OpRes := c.alu d (a - b - BitVec.ofNat 18 bin.toNat) (subFlags a b bin)

/-- A saturating result (R175, R193): V and SAT when it clamps. -/
def Ctx.satRes (c : Ctx) (d : Nat) (r : Int) (fl : List (Nat × Bool)) : OpRes :=
  let v := wrap18 (sat18 r)
  ⟨c.wd 1 d v :: flagFx c.x.sh 1 (fl ++ (3, ovf18 r) :: znOf v) ++ stickyFx c.x.sh 1 false (ovf18 r), []⟩

/-- A shift with its flags (R193): kinds 0 ASR, 1 LSR, 2 SHL, 3 ROL. -/
def Ctx.shift (c : Ctx) (d kind : Nat) (x : W18) (n : Nat) : OpRes :=
  let r := shift18 kind x n
  c.alu d r ((0, shiftC kind x n) :: znOf r ++ (if kind = 2 then [(3, shlV x n)] else []))

/-- ADD (R193). -/
def execAdd (at_ : At) (d a b : BitVec 4) (s : State) : Host.Outcome State Fault Refusal :=
  issueOp at_ { slots := classX } (fun c => c.sum d.toNat (c.rd a) (c.rd b) false) s

/-- ADDC (R193). -/
def execAddc (at_ : At) (d a b : BitVec 4) (s : State) : Host.Outcome State Fault Refusal :=
  issueOp at_ { slots := classX } (fun c => c.sum d.toNat (c.rd a) (c.rd b) c.x.flC) s

/-- SUB (R193). -/
def execSub (at_ : At) (d a b : BitVec 4) (s : State) : Host.Outcome State Fault Refusal :=
  issueOp at_ { slots := classX } (fun c => c.diff d.toNat (c.rd a) (c.rd b) false) s

/-- SUBB (R193): Da − Db − (1 − C). -/
def execSubb (at_ : At) (d a b : BitVec 4) (s : State) : Host.Outcome State Fault Refusal :=
  issueOp at_ { slots := classX } (fun c => c.diff d.toNat (c.rd a) (c.rd b) (!c.x.flC)) s

/-- ADDS (R193). -/
def execAdds (at_ : At) (d a b : BitVec 4) (s : State) : Host.Outcome State Fault Refusal :=
  issueOp at_ { slots := classX } (fun c => c.satRes d.toNat ((c.rd a).toInt + (c.rd b).toInt) [(0, addC18 (c.rd a) (c.rd b) false)]) s

/-- SUBS (R193). -/
def execSubs (at_ : At) (d a b : BitVec 4) (s : State) : Host.Outcome State Fault Refusal :=
  issueOp at_ { slots := classX } (fun c => c.satRes d.toNat ((c.rd a).toInt - (c.rd b).toInt) [(0, subC18 (c.rd a) (c.rd b) false)]) s

/-- ADDI Dd, imm8 (R169, R193). -/
def execAddi (at_ : At) (d : BitVec 4) (imm : BitVec 8) (s : State) : Host.Outcome State Fault Refusal :=
  issueOp at_ { slots := classX, ext := true } (fun c => c.sum d.toNat (c.rd d) (BitVec.ofInt 18 (c.simm imm)) false) s

/-- MOVI Dd, imm8 (R169, R193). -/
def execMovi (at_ : At) (d : BitVec 4) (imm : BitVec 8) (s : State) : Host.Outcome State Fault Refusal :=
  issueOp at_ { slots := classX, ext := true } (fun c => c.alu d.toNat (BitVec.ofInt 18 (c.simm imm)) (znOf (BitVec.ofInt 18 (c.simm imm)))) s

/-- CMP Da, Db (R193): flags only. -/
def execCmp (at_ : At) (a b : BitVec 4) (s : State) : Host.Outcome State Fault Refusal :=
  issueOp at_ { slots := classX } (fun c => { fx := flagFx c.x.sh 1 (subFlags (c.rd a) (c.rd b) false) }) s

/-- CMPI Dd, imm8 (R169, R193). -/
def execCmpi (at_ : At) (d : BitVec 4) (imm : BitVec 8) (s : State) : Host.Outcome State Fault Refusal :=
  issueOp at_ { slots := classX, ext := true } (fun c => { fx := flagFx c.x.sh 1 (subFlags (c.rd d) (BitVec.ofInt 18 (c.simm imm)) false) }) s

/-- AND (R193). -/
def execAnd (at_ : At) (d a b : BitVec 4) (s : State) : Host.Outcome State Fault Refusal :=
  issueOp at_ { slots := classX } (fun c => c.alu d.toNat (c.rd a &&& c.rd b) (znOf (c.rd a &&& c.rd b))) s

/-- OR (R193). -/
def execOr (at_ : At) (d a b : BitVec 4) (s : State) : Host.Outcome State Fault Refusal :=
  issueOp at_ { slots := classX } (fun c => c.alu d.toNat (c.rd a ||| c.rd b) (znOf (c.rd a ||| c.rd b))) s

/-- XOR (R193). -/
def execXor (at_ : At) (d a b : BitVec 4) (s : State) : Host.Outcome State Fault Refusal :=
  issueOp at_ { slots := classX } (fun c => c.alu d.toNat (c.rd a ^^^ c.rd b) (znOf (c.rd a ^^^ c.rd b))) s

/-- ANDN: Da AND NOT Db (R193). -/
def execAndn (at_ : At) (d a b : BitVec 4) (s : State) : Host.Outcome State Fault Refusal :=
  issueOp at_ { slots := classX } (fun c => c.alu d.toNat (c.rd a &&& ~~~ c.rd b) (znOf (c.rd a &&& ~~~ c.rd b))) s

/-- UN MOV (R194). -/
def execUnMov (at_ : At) (d a : BitVec 4) (s : State) : Host.Outcome State Fault Refusal :=
  issueOp at_ { slots := classX } (fun c => c.alu d.toNat (c.rd a) (znOf (c.rd a))) s

/-- UN NOT (R194). -/
def execUnNot (at_ : At) (d a : BitVec 4) (s : State) : Host.Outcome State Fault Refusal :=
  issueOp at_ { slots := classX } (fun c => c.alu d.toNat (~~~ c.rd a) (znOf (~~~ c.rd a))) s

/-- UN NEG (R194): flags of 0 − Da. -/
def execUnNeg (at_ : At) (d a : BitVec 4) (s : State) : Host.Outcome State Fault Refusal :=
  issueOp at_ { slots := classX } (fun c => c.diff d.toNat 0 (c.rd a) false) s

/-- UN ABS (R194): ABS of −2^17 gives −2^17 and sets V. -/
def execUnAbs (at_ : At) (d a : BitVec 4) (s : State) : Host.Outcome State Fault Refusal :=
  issueOp at_ { slots := classX } (fun c => 
    let r := wrap18 ((c.rd a).toInt.natAbs : Int)
    c.alu d.toNat r ((3, ovf18 ((c.rd a).toInt.natAbs : Int)) :: znOf r)) s

/-- UN NEGS (R194). -/
def execUnNegs (at_ : At) (d a : BitVec 4) (s : State) : Host.Outcome State Fault Refusal :=
  issueOp at_ { slots := classX } (fun c => c.satRes d.toNat (-(c.rd a).toInt) []) s

/-- UN ABSS (R194). -/
def execUnAbss (at_ : At) (d a : BitVec 4) (s : State) : Host.Outcome State Fault Refusal :=
  issueOp at_ { slots := classX } (fun c => c.satRes d.toNat ((c.rd a).toInt.natAbs : Int) []) s

/-- UN CLS (R194): Z only. -/
def execUnCls (at_ : At) (d a : BitVec 4) (s : State) : Host.Outcome State Fault Refusal :=
  issueOp at_ { slots := classX } (fun c => 
    let r := BitVec.ofNat 18 (cls (c.rd a))
    c.alu d.toNat r [(1, decide (r = 0))]) s

/-- ASR by Db[4:0] (R193). -/
def execAsr (at_ : At) (d a b : BitVec 4) (s : State) : Host.Outcome State Fault Refusal :=
  issueOp at_ { slots := classX } (fun c => c.shift d.toNat 0 (c.rd a) ((c.rd b).toNat % 32)) s

/-- LSR by Db[4:0] (R193). -/
def execLsr (at_ : At) (d a b : BitVec 4) (s : State) : Host.Outcome State Fault Refusal :=
  issueOp at_ { slots := classX } (fun c => c.shift d.toNat 1 (c.rd a) ((c.rd b).toNat % 32)) s

/-- SHL by Db[4:0] (R193). -/
def execShl (at_ : At) (d a b : BitVec 4) (s : State) : Host.Outcome State Fault Refusal :=
  issueOp at_ { slots := classX } (fun c => c.shift d.toNat 2 (c.rd a) ((c.rd b).toNat % 32)) s

/-- ROL by Db[4:0] (R193). -/
def execRol (at_ : At) (d a b : BitVec 4) (s : State) : Host.Outcome State Fault Refusal :=
  issueOp at_ { slots := classX } (fun c => c.shift d.toNat 3 (c.rd a) ((c.rd b).toNat % 32)) s

/-- SHI Dd, kind, amt (R193). -/
def execShi (at_ : At) (d : BitVec 4) (kind : BitVec 2) (amt : BitVec 5) (s : State) : Host.Outcome State Fault Refusal :=
  issueOp at_ { slots := classX } (fun c => c.shift d.toNat kind.toNat (c.rd d) amt.toNat) s

/-- A double sum or difference with its flags over 36 bits (R176, R193). -/
def Ctx.dbl (c : Ctx) (v : Nat) (r : W36) (exact : Int) (carry : Bool) : OpRes :=
  ⟨c.wd 1 (2 * v) (r.setWidth 18) :: c.wd 1 (2 * v + 1) ((r >>> 18).setWidth 18) ::
    flagFx c.x.sh 1 [(0, carry), (1, decide (r = 0)), (2, r.getLsbD 35), (3, ovf36 exact)], []⟩

/-- ADD.D (R193). -/
def execAddD (at_ : At) (v w u : BitVec 3) (s : State) : Host.Outcome State Fault Refusal :=
  issueOp at_ { slots := classX } (fun c => 
    let a := c.x.rdd w.toNat; let b := c.x.rdd u.toNat
    c.dbl v.toNat (a + b) (a.toInt + b.toInt) (decide (68719476736 ≤ a.toNat + b.toNat))) s

/-- SUB.D (R193). -/
def execSubD (at_ : At) (v w u : BitVec 3) (s : State) : Host.Outcome State Fault Refusal :=
  issueOp at_ { slots := classX } (fun c => 
    let a := c.x.rdd w.toNat; let b := c.x.rdd u.toNat
    c.dbl v.toNat (a - b) (a.toInt - b.toInt) (decide (b.toNat ≤ a.toNat))) s

/-- MIN (R193): Da when they are equal; C is 1 when Db is chosen. -/
def execMin (at_ : At) (d a b : BitVec 4) (s : State) : Host.Outcome State Fault Refusal :=
  issueOp at_ { slots := classX } (fun c => 
    let pick := decide ((c.rd b).toInt < (c.rd a).toInt)
    let r := if pick then c.rd b else c.rd a
    c.alu d.toNat r ((0, pick) :: znOf r)) s

/-- MAX (R193). -/
def execMax (at_ : At) (d a b : BitVec 4) (s : State) : Host.Outcome State Fault Refusal :=
  issueOp at_ { slots := classX } (fun c => 
    let pick := decide ((c.rd a).toInt < (c.rd b).toInt)
    let r := if pick then c.rd b else c.rd a
    c.alu d.toNat r ((0, pick) :: znOf r)) s

/-- A running extreme and its index in a pair (R195). -/
def Ctx.running (c : Ctx) (v : Nat) (take : Bool) (a b : W18) : OpRes :=
  ⟨(if take then [c.wd 1 (2 * v) a, c.wd 1 (2 * v + 1) b] else []) ++ flagFx c.x.sh 1 [(0, take)], []⟩

/-- MINI (R195): strict, so the first of equal values is kept. -/
def execMini (at_ : At) (v : BitVec 3) (a b : BitVec 4) (s : State) : Host.Outcome State Fault Refusal :=
  issueOp at_ { slots := classX } (fun c => c.running v.toNat (decide ((c.rd a).toInt < (c.x.rd (2 * v.toNat)).toInt)) (c.rd a) (c.rd b)) s

/-- MAXI (R195). -/
def execMaxi (at_ : At) (v : BitVec 3) (a b : BitVec 4) (s : State) : Host.Outcome State Fault Refusal :=
  issueOp at_ { slots := classX } (fun c => c.running v.toNat (decide ((c.x.rd (2 * v.toNat)).toInt < (c.rd a).toInt)) (c.rd a) (c.rd b)) s

/-- BEXP (R196). -/
def execBexp (at_ : At) (a : BitVec 4) (s : State) : Host.Outcome State Fault Refusal :=
  issueOp at_ { slots := classX } (fun c => { fx := [.fold 1 (cls (c.rd a))] }) s

/-- NORM: Dd := wrap18(Da × 2^BXS) (R193). -/
def execNorm (at_ : At) (d a : BitVec 4) (s : State) : Host.Outcome State Fault Refusal :=
  issueOp at_ { slots := classX } (fun c => 
    let r := wrap18 ((c.rd a).toInt * (2 ^ c.x.bxs.toNat : Nat))
    c.alu d.toNat r (znOf r)) s

/-- BXR: BXS := 17 (R193, R196). -/
def execBxr (at_ : At) (s : State) : Host.Outcome State Fault Refusal :=
  issueOp at_ { slots := classX } (fun _ => { fx := [.bxr] }) s

/-- The part of an accumulator that MVAD and VMVA move (R193): the word and whether it clamped. -/
def acPart (y : W54) (part : Nat) : W18 × Bool :=
  match part with
  | 0 => ((y >>> 36).setWidth 18, false)
  | 1 => ((y >>> 18).setWidth 18, false)
  | 2 => (y.setWidth 18, false)
  | _ => let r := ashr (y.toInt + 131072) 18
         (wrap18 (sat18 r), ovf18 r)

/-- MVAD Dd, ACs, part (R193). -/
def execMvad (at_ : At) (d : BitVec 4) (acs : BitVec 3) (part : BitVec 2) (s : State) : Host.Outcome State Fault Refusal :=
  issueOp at_ { slots := classX } (fun c => 
    let r := acPart (c.x.rac acs.toNat) part.toNat
    { fx := c.wd 1 d.toNat r.1 :: stickyFx c.x.sh 1 false r.2 }) s

/-- A decimal result (R197): a free result and DC when an operand is not decimal, which sets V. -/
def Ctx.decimal (c : Ctx) (d : Nat) (a b : W18) (r : W18) (dc : Bool) : OpRes :=
  let good := isBcd a && isBcd b
  let v : W18 := if good then r else c.free 18 0
  let k := if good then dc else (c.free 1 1).getLsbD 0
  c.alu d v [(1, decide (v.setWidth 16 = 0#16)), (3, !good), (5, k)]

/-- DADD and DADDC (R197). -/
def Ctx.dsum (c : Ctx) (d : Nat) (a b : W18) (cin : Bool) : OpRes :=
  let s := bcd a + bcd b + cin.toNat
  c.decimal d a b (toBcd (s % 10000)) (decide (10000 ≤ s))

/-- DSUB and DSUBB (R197). -/
def Ctx.ddiff (c : Ctx) (d : Nat) (a b : W18) (bin : Bool) : OpRes :=
  let s : Int := (bcd a : Int) - bcd b - (bin.toNat : Int)
  if s < 0 then c.decimal d a b (toBcd (s + 10000).toNat) true else c.decimal d a b (toBcd s.toNat) false

/-- DADD (R197). -/
def execDadd (at_ : At) (d a b : BitVec 4) (s : State) : Host.Outcome State Fault Refusal :=
  issueOp at_ { slots := classX } (fun c => c.dsum d.toNat (c.rd a) (c.rd b) false) s

/-- DADDC (R197). -/
def execDaddc (at_ : At) (d a b : BitVec 4) (s : State) : Host.Outcome State Fault Refusal :=
  issueOp at_ { slots := classX } (fun c => c.dsum d.toNat (c.rd a) (c.rd b) c.x.flDC) s

/-- DSUB (R197). -/
def execDsub (at_ : At) (d a b : BitVec 4) (s : State) : Host.Outcome State Fault Refusal :=
  issueOp at_ { slots := classX } (fun c => c.ddiff d.toNat (c.rd a) (c.rd b) false) s

/-- DSUBB (R197). -/
def execDsubb (at_ : At) (d a b : BitVec 4) (s : State) : Host.Outcome State Fault Refusal :=
  issueOp at_ { slots := classX } (fun c => c.ddiff d.toNat (c.rd a) (c.rd b) c.x.flDC) s

/-- DAJ: binary to BCD (R197). -/
def execDaj (at_ : At) (d a : BitVec 4) (s : State) : Host.Outcome State Fault Refusal :=
  issueOp at_ { slots := classX } (fun c => 
    let a := (c.rd a).toInt
    let good := decide (0 ≤ a ∧ a ≤ 9999)
    let r : W18 := if good then toBcd a.toNat else 0x09999#18
    c.alu d.toNat r [(1, decide (r.setWidth 16 = 0#16)), (3, !good)]) s

/-- BSET (R193, R201). -/
def execBset (at_ : At) (imm : BitVec 12) (s : State) : Host.Outcome State Fault Refusal :=
  issueOp at_ { slots := classX } (fun _ => { fx := [.wr 1 (.bit imm.toNat true)] }) s

/-- BCLR (R193, R201). -/
def execBclr (at_ : At) (imm : BitVec 12) (s : State) : Host.Outcome State Fault Refusal :=
  issueOp at_ { slots := classX } (fun _ => { fx := [.wr 1 (.bit imm.toNat false)] }) s

/-- BINV (R193, R201). -/
def execBinv (at_ : At) (imm : BitVec 12) (s : State) : Host.Outcome State Fault Refusal :=
  issueOp at_ { slots := classX } (fun c => { fx := [.wr 1 (.bit imm.toNat (!c.x.lbit imm.toNat))] }) s

/-- BTST: C := bit, Z := NOT bit (R193). -/
def execBtst (at_ : At) (imm : BitVec 12) (s : State) : Host.Outcome State Fault Refusal :=
  issueOp at_ { slots := classX } (fun c => { fx := flagFx c.x.sh 1 [(0, c.x.lbit imm.toNat), (1, !c.x.lbit imm.toNat)] }) s

/-- BLD Dd, Da: Dd := zext(bit[Da[11:0]]) (R193). -/
def execBld (at_ : At) (d a : BitVec 4) (s : State) : Host.Outcome State Fault Refusal :=
  issueOp at_ { slots := classX } (fun c => 
    let b := c.x.lbit ((c.rd a).toNat % 4096)
    c.alu d.toNat (BitVec.ofNat 18 b.toNat) [(1, !b)]) s

/-- BST Da, Db: bit[Db[11:0]] := Da[0] (R193). -/
def execBst (at_ : At) (a b : BitVec 4) (s : State) : Host.Outcome State Fault Refusal :=
  issueOp at_ { slots := classX } (fun c => { fx := [.wr 1 (.bit ((c.rd b).toNat % 4096) ((c.rd a).getLsbD 0))] }) s

/-- The results of R198: a zero divisor and a quotient out of range saturate and set V. -/
def Ctx.divide (c : Ctx) (d : Nat) (num den : Int) (neg : Bool) : OpRes :=
  let q := if den = 0 then (if neg then -131072 else 131071) else quot num den
  let r := wrap18 (sat18 q)
  c.alu d r ((3, decide (den = 0) || ovf18 q) :: znOf r)

/-- DIV (R141, R198): the result is visible to the next bundle after an 18-cycle stall. -/
def execDiv (at_ : At) (d a b : BitVec 4) (s : State) : Host.Outcome State Fault Refusal :=
  issueOp at_ { slots := [4], kind := .div } (fun c => c.divide d.toNat (c.rd a).toInt (c.rd b).toInt (decide ((c.rd a).toInt < 0))) s

/-- DIVF (R198): the quotient of Da × 2^17. -/
def execDivf (at_ : At) (d a b : BitVec 4) (s : State) : Host.Outcome State Fault Refusal :=
  issueOp at_ { slots := [4], kind := .div } (fun c => c.divide d.toNat ((c.rd a).toInt * 131072) (c.rd b).toInt (decide ((c.rd a).toInt < 0))) s

/-- The word that a string bundle with the accesses of `fx` reads at `a` through port `p`, as a load of that port finds it (R138): free where it is
being written (R187, R246). -/
def Ctx.strWord (c : Ctx) (fx : List Fx) (p a : Nat) : W18 :=
  let v := c.x.lview fx
  if clash (c.x.meets fx) p a || c.x.fetching a then c.free 18 (p - 1) else data18 (v.lword p a)

/-- One reissue has moved its word: A6 or A7 step, SCNT falls, and the bundle reissues until SCNT is 0 (R138, R199). -/
def Ctx.strStep (c : Ctx) (dir : BitVec 1) (both : Bool) : List Fx :=
  let k : Int := if dir = 0 then 1 else -1
  (if both then [c.wa 6 (c.step 6 k)] else []) ++ [c.wa 7 (c.step 7 k), .wr 1 (.scnt (c.x.scnt - 1))] ++
    (if c.x.scnt = 1 then [.act (.strVal none)] else [.act .again])

/-- SMOV (R138, R199). -/
def execSmov (at_ : At) (_d : BitVec 4) (dir : BitVec 1) (s : State) : Host.Outcome State Fault Refusal :=
  issueOp at_ { slots := [5], kind := .str } (fun c => 
    if c.x.scnt = 0 then {}
    else
      let a6 := (c.x.ra 6).toNat; let a7 := (c.x.ra 7).toNat
      { fx := [.rd 1 [a6], .st 2 [(a7, c.strWord [.rd 1 [a6], .st 2 [(a7, 0)]] 1 a6)]] ++ c.strStep dir true, traps := c.constHit [a7] }) s

/-- SFIL (R138, R199): Dd is read once, at the first issue. -/
def execSfil (at_ : At) (d : BitVec 4) (dir : BitVec 1) (s : State) : Host.Outcome State Fault Refusal :=
  issueOp at_ { slots := [5], kind := .str } (fun c => 
    if c.x.scnt = 0 then {}
    else
      let a7 := (c.x.ra 7).toNat
      let v := c.x.strV.getD (c.rd d)
      { fx := .act (.strVal (some v)) :: .st 2 [(a7, v)] :: c.strStep dir false, traps := c.constHit [a7] }) s

/-- SCMP (R138, R199): it stops at the mismatch, or with Z := 1 when SCNT reaches 0. -/
def execScmp (at_ : At) (_d : BitVec 4) (dir : BitVec 1) (s : State) : Host.Outcome State Fault Refusal :=
  issueOp at_ { slots := [5], kind := .str } (fun c => 
    if c.x.scnt = 0 then { fx := flagFx c.x.sh 1 [(1, true)] }
    else
      let a6 := (c.x.ra 6).toNat; let a7 := (c.x.ra 7).toNat
      let p := c.strWord [.rd 1 [a6], .rd 2 [a7]] 1 a6; let q := c.strWord [.rd 1 [a6], .rd 2 [a7]] 2 a7
      if p = q then
        { fx := [.rd 1 [a6], .rd 2 [a7]] ++ c.strStep dir true ++ (if c.x.scnt = 1 then flagFx c.x.sh 1 [(1, true)] else []) }
      else
        { fx := [.rd 1 [a6], .rd 2 [a7]] ++ flagFx c.x.sh 1 ((0, subC18 p q false) :: znOf (p - q)) }) s

end Sys2Proof.Machine
end

