-- ==== Sys2Proof/Machine/EngCtl.lean ====
section
/-! DEFINITION. Control transfers, loops and repeats of the C class (R118 to R137, R202, R203). -/

namespace Sys2Proof.Machine

/-- p + sext(disp8) mod 4096 (R203). -/
def Ctx.disp (c : Ctx) (disp : BitVec 8) : BitVec 12 := c.x.pc + disp.signExtend 12

/-- p + 3 (R122). -/
def Ctx.ret3 (c : Ctx) : BitVec 12 := c.x.pc + 3

def ctlInfo : OpInfo := { slots := classC, kind := .ctl }

/-- The return address into D15 of the set in use, and the push (R122, R203). -/
def Ctx.callFx (c : Ctx) : List Fx := [c.wd 1 15 (c.ret3.setWidth 18), .act (.pushRet c.ret3)]

/-- BR imm12 (R203). -/
def execBr (at_ : At) (imm : BitVec 12) (s : State) : Host.Outcome State Fault Refusal :=
  issueOp at_ ctlInfo (fun _ => { fx := [.act (.jump .br (some imm))] }) s

/-- CALL imm12 (R203). -/
def execCall (at_ : At) (imm : BitVec 12) (s : State) : Host.Outcome State Fault Refusal :=
  issueOp at_ ctlInfo (fun c => { fx := c.callFx ++ [.act (.jump .call (some imm))] }) s

/-- BRcc cond, disp8 (R202, R203). -/
def execBrcc (at_ : At) (cond : BitVec 4) (disp : BitVec 8) (s : State) : Host.Outcome State Fault Refusal :=
  issueOp at_ ctlInfo (fun c =>
    { fx := [.act (.jump .br (if c.x.cond cond.toNat then some (c.disp disp) else none))] }) s

/-- BRI Dd (R121, R203). -/
def execBri (at_ : At) (d : BitVec 4) (s : State) : Host.Outcome State Fault Refusal :=
  issueOp at_ ctlInfo (fun c =>
    let t : BitVec 12 := (c.rd d).setWidth 12
    { fx := [.act (.indirect t), .act (.jump .br (some t))] }) s

/-- CALLI Dd (R121, R203). -/
def execCalli (at_ : At) (d : BitVec 4) (s : State) : Host.Outcome State Fault Refusal :=
  issueOp at_ ctlInfo (fun c =>
    let t : BitVec 12 := (c.rd d).setWidth 12
    { fx := c.callFx ++ [.act (.indirect t), .act (.jump .call (some t))] }) s

/-- RET: the target is D15[11:0] as read at issue (R122, R203). -/
def execRet (at_ : At) (s : State) : Host.Outcome State Fault Refusal :=
  issueOp at_ ctlInfo (fun c =>
    let t : BitVec 12 := (c.x.rd 15).setWidth 12
    { fx := [.act (.popRet t), .act (.jump .ret (some t))] }) s

/-- RETI (R147, R149): its delay slots run in the handler, then the state is restored at EPC. -/
def execReti (at_ : At) (s : State) : Host.Outcome State Fault Refusal :=
  issueOp at_ { slots := classC, priv := true, kind := .ctl } (fun c =>
    { fx := [.act (.jump (.reti c.x.epc2) (some c.x.epc))] }) s

/-- BRBS Dd, disp8 (R203). -/
def execBrbs (at_ : At) (d : BitVec 4) (imm : BitVec 8) (s : State) : Host.Outcome State Fault Refusal :=
  issueOp at_ ctlInfo (fun c =>
    { fx := [.act (.jump .br (if c.x.lbit ((c.rd d).toNat % 4096) then some (c.disp imm) else none))] }) s

/-- BRBC Dd, disp8 (R203). -/
def execBrbc (at_ : At) (d : BitVec 4) (imm : BitVec 8) (s : State) : Host.Outcome State Fault Refusal :=
  issueOp at_ ctlInfo (fun c =>
    { fx := [.act (.jump .br (if c.x.lbit ((c.rd d).toNat % 4096) then none else some (c.disp imm)))] }) s

/-- The push of LOOP and LOOPI (R127 to R129); a length of 0 is reserved (R168). -/
def Ctx.loop (c : Ctx) (count : BitVec 12) (len : Nat) : OpRes :=
  let stop : BitVec 12 := c.x.pc + 1 + BitVec.ofNat 12 len
  if len = 0 then { traps := [c.trap .resop] }
  else if count = 0 then { fx := [.act (.skip (stop + 1))] }
  else if 4 ≤ c.x.loops.length then { traps := [c.trap .loopovf] }
  else { fx := [.act (.loop count stop (c.x.pc + 1))] }

/-- LOOP Dd, len8 (R127, R203). -/
def execLoop (at_ : At) (d : BitVec 4) (imm : BitVec 8) (s : State) : Host.Outcome State Fault Refusal :=
  issueOp at_ { slots := classC, kind := .loop } (fun c => c.loop ((c.rd d).setWidth 12) imm.toNat) s

/-- LOOPI cnt6, len6 (R127, R203). -/
def execLoopi (at_ : At) (cnt len : BitVec 6) (s : State) : Host.Outcome State Fault Refusal :=
  issueOp at_ { slots := classC, kind := .loop } (fun c => c.loop (cnt.setWidth 12) len.toNat) s

/-- The opcode of a syllable (R166). -/
def opcodeOf (w : W18) : Nat := w.toNat / 4096

/-- A bundle that an RPT must not repeat (R135): control transfers, LOOP, RPT, shared-bit atomics, PMW and FEND in S7; LDF and
LDF.D in S0 and S1; DIV, DIVF in S4; strings in S5. -/
def noRepeat (b : BitVec 144) : Bool :=
  let c := opcodeOf (syllable b 7)
  let l (i : Nat) : Bool := decide (opcodeOf (syllable b i) = 25 ∨ opcodeOf (syllable b i) = 26)
  let x0 := opcodeOf (syllable b 4)
  let x1 := opcodeOf (syllable b 5)
  decide ((1 ≤ c ∧ c ≤ 13) ∨ (18 ≤ c ∧ c ≤ 21) ∨ c = 34 ∨ c = 36) || l 0 || l 1 || decide (x0 = 43 ∨ x0 = 44)
    || decide (45 ≤ x1 ∧ x1 ≤ 47)

/-- The address of the bundle that issues after this one. -/
def Ctx.nextPc (c : Ctx) : BitVec 12 :=
  match c.x.loops with
  | l :: _ => if l.stop = c.x.pc ∧ 1 < l.count.toNat then l.start else c.x.pc + 1
  | [] => c.x.pc + 1

/-- RPT of a count latched at issue (R133 to R135). A count of 0 repeats no bundle, and no rule lets one that must not be repeated trap there
(DESIGN CHOICE, log entry 143). -/
def Ctx.repeat_ (c : Ctx) (n : Nat) : OpRes :=
  let b := dataBundle (c.x.pmAt 2 c.x.half c.nextPc.toNat)
  { fx := [.act (.rpt n)], traps := if 0 < n ∧ noRepeat b = true then [c.trap .illbun] else [] }

/-- RPT cnt7 (R133, R168). -/
def execRpt (at_ : At) (cnt : BitVec 7) (s : State) : Host.Outcome State Fault Refusal :=
  issueOp at_ { slots := classC, kind := .rpt } (fun c =>
    if cnt.toNat = 0 ∨ 64 < cnt.toNat then { traps := [c.trap .resop] } else c.repeat_ cnt.toNat) s

/-- RPTR: the count is RC, above 64 a trap, after that of the bundle it would repeat (R134, R135, R156). -/
def execRptr (at_ : At) (s : State) : Host.Outcome State Fault Refusal :=
  issueOp at_ { slots := classC, kind := .rpt } (fun c =>
    let r := c.repeat_ c.x.rc.toNat
    if 64 < c.x.rc.toNat then { traps := r.traps ++ [c.trap .rptcnt] } else r) s

/-- FEND (R71, R160). -/
def execFend (at_ : At) (s : State) : Host.Outcome State Fault Refusal :=
  issueOp at_ { slots := classC, kind := .fend } (fun c =>
    { fx := [.act .fend], traps := if !c.x.user || decide (c.x.run = .idle) then [c.trap .fendsup] else [] }) s

/-- SYSC imm12 (R155, R212). -/
def execSysc (at_ : At) (imm : BitVec 12) (s : State) : Host.Outcome State Fault Refusal :=
  issueOp at_ { slots := classC } (fun c => { traps := [c.trapAt .sysc imm.toNat false] }) s

/-- BKPT imm12 (R155, R212). -/
def execBkpt (at_ : At) (imm : BitVec 12) (s : State) : Host.Outcome State Fault Refusal :=
  issueOp at_ { slots := classC } (fun c => { traps := [c.trapAt .bkpt imm.toNat false] }) s

end Sys2Proof.Machine
end

