-- ==== Sys2Proof/Machine/EngFarEnd.lean ====
section
/-! DEFINITION. Far loads that return and far stores that land (R30, R33, R150, R188, R208, R274, R300 to R302, R310 to R315, R368,
R427, R459). -/

namespace Sys2Proof.Machine

/-- The BAR0 byte address of a register-space PA (R30). -/
def pa2bar (pa : Nat) : Nat := 2 * (pa % 68719476736)

/-- The engine as the source of an access. -/
def engSrc (d e : Nat) : Src := .eng (Fin.ofNat 8 d) (Fin.ofNat 64 e)

/-- The words of a far read from `pa`, those that met a panel-side write being undefined (R8, R272). -/
def State.hotWords (s : State) (pa : Nat) : List W18 → State × List W18
  | [] => (s, [])
  | w :: ws =>
    let (s1, v) := s.hotRead pa w
    let (s2, vs) := State.hotWords s1 (pa + 1) ws
    (s2, v :: vs)

/-- What a far read that is performed brings back: the state, the words, and the PA of a word in error. -/
def State.farRead (s : State) (w : FarWait) (data : Option W36) : State × List W18 × Option Nat :=
  let n := match w.kind with | .word _ => 1 | _ => 2
  match w.fwd with
  | some ws => (s, ws, none)
  | none =>
    if w.pa < 68719476736 then
      let (s1, ws, bad) := s.readWords (s.landPa w.pa) n
      let (s2, vs) := s1.hotWords (s.landPa w.pa) ws
      (s2, vs, (bad.filter (fun a => !s.hotWord a)).head?)
    else if w.pa < 137438953472 then
      let (s1, v) := s.busRead (pa2bar w.pa)
      (s1, [v.setWidth 18, (v >>> 18).setWidth 18], none)
    else
      let k := aperPort w.pa
      let failed := (s.incF F.HPT_APERR.COUNT k []).raise F.HPT_ERR.APERR k []
      if s.live k = false ∨ (s.port k).inReset = true then (failed, [0, 0], none)
      else match data with
        | none => (failed.emit k (.apertureRead w.host n), [0, 0], none)
        | some v => (s.emit k (.apertureRead w.host n), [v.setWidth 18, (v >>> 18).setWidth 18], none)

/-- A shared-bit access (R208, R274): the state, the old bit, and whether both copies of the group were in error. -/
def State.sbitAccess (s : State) (d i : Nat) (set : Option Bool) : State × Bool × Bool :=
  let k := 4096 * d + i % 65536 / 16
  let g := s.sbits.get .zero k
  let put (t : State) (x : BitGroup) : State := { t with sbits := t.sbits.set .zero k x }
  if ok16 g.c0 = false ∧ ok16 g.c1 = false then (put s ⟨enc16 0, enc16 0⟩, false, true)
  else
    let h := g.heal
    let v : BitVec 16 := h.c0.setWidth 16
    let j := i % 16
    let new := match set with
      | some true => v ||| BitVec.twoPow 16 j
      | some false => v &&& ~~~BitVec.twoPow 16 j
      | none => v
    (put s ⟨enc16 new, enc16 new⟩, v.getLsbD j, false)

/-- The register results of a far read; the write of a higher slot of its bundle to one register remains (R114). -/
def FarWait.results (w : FarWait) (ws : List W18) (old : Bool) : List Wr :=
  let a : W36 := BitVec.ofNat 36 w.pa
  let put (i : Nat) (v : W18) : List Wr := if w.beaten.contains i then [] else [.d i v]
  match w.kind with
  | .word i => put i (ws.getD 0 0)
  | .double i => put i (ws.getD 0 0) ++ put (i + 1) (ws.getD 1 0)
  | .walk d8 d9 d10 d11 => [.d d8 (ws.getD 0 0), .d d9 (ws.getD 1 0), .d d10 (a.setWidth 18), .d d11 ((a >>> 18).setWidth 18)]
  | .sbit _ _ flag => if flag then [.fl w.sh 1 (if old then 1 else 0)] else []

/-- Results reach their registers at once, or wait in the pending-write file of an entry (R150). -/
def Eng.deliver (x : Eng) (waiting : Bool) (l : List Wr) : Eng :=
  if waiting then { x with pwf := x.pwf ++ l.map (fun r => ⟨0, r, false⟩) } else x.putAll l

/-- A walk result enters the walk cache of 16 entries, displacing the oldest (R302), or its own entry that was in error (R375). -/
def Eng.cacheWalk (x : Eng) (pa : Nat) (v : W36) : Eng :=
  let l := x.walk.filter (fun e => decide (e.1 ≠ pa))
  { x with walk := (if l.length < 16 then l else l.drop 1) ++ [(pa, v, false)] }

/-- Whether a far read may return: its message has come back, the stores that it must not pass have landed, those that were buffered when it issued
if they overlap it, older accesses are over, what its die was delivered before it is done, and no handover holds it (R35, R37, R210, R259, R311, R313). -/
def State.farReady (s : State) (d e : Nat) (w : FarWait) : Bool :=
  let x := s.eng d e
  let n := match w.kind with | .word _ => 1 | _ => 2
  let sbit := match w.kind with | .sbit _ _ _ => true | _ => false
  let older := x.sbuf.filter (fun b => decide (b.seq < w.upTo))
  sbit || ((w.fwd.isSome || (if w.waits then older.isEmpty else !(older.any (fun b => b.overlaps (s.landPa w.pa) n)))) &&
    !x.out (s.live (s.farDie w.pa)) w.toks && s.inTurn d e w.toks && !x.waitsFor w.epoch x.xfers && !(decide (w.pa < 68719476736) && s.mustWait d e (s.landPa w.pa)))

/-- The return of far read `w`, already taken from its list; `waiting` says that an entry interrupted it. -/
def State.farReturn (s : State) (d e : Nat) (w : FarWait) (waiting : Bool) (data : Option W36) : State :=
  match w.kind with
  | .sbit i set _ =>
    let (s1, old, bad) := s.sbitAccess d i set
    if bad then s1.detect d e 6 .plain
    else s1.updEng d e (fun x => x.deliver waiting (w.results [] old))
  | .walk _ _ _ _ =>
    let (s1, ws, bad) := s.farRead w data
    match bad with
    | some pa => s1.walkTrap d e pa w.pc w.br (s1.eng d e).fetched
    | none => s1.updEng d e (fun x => (x.deliver waiting (w.results ws false)).cacheWalk w.pa ((ws.getD 1 0) ++ (ws.getD 0 0)))
  | _ =>
    let (s1, ws, bad) := s.farRead w data
    match bad with
    | some pa => s1.detect d e 6 (.shared pa)
    | none => s1.updEng d e (fun x => x.deliver waiting (w.results ws false))

/-- FAR_LOAD_RETURN (R150, R188, R208, R300, R302, R311): the oldest far read returns, into the pending-write file while the handler that interrupted
it runs. `data` are the words of an aperture read, `none` where it ended in a completion error or a timeout (R459); `cycles` is the length of the
stall. -/
def execFarLoadReturn (die : DieNo) (e : EngNo) (data : Option W36) (cycles : Nat) (s : State) : Host.Outcome State Fault Refusal :=
  let d := die.val
  let x := s.eng d e.val
  if s.live d = false then .next s
  else match x.farOld, x.far with
    | w :: rest, _ =>
      if s.farReady d e.val w = false then .next s
      else .next (((s.setEng d e.val { x with farOld := rest }).farReturn d e.val w x.sh data).addF F.ENG_STALL.CYCLES d [e.val] cycles)
    | [], w :: rest =>
      if s.farReady d e.val w = false then .next s
      else .next (((s.setEng d e.val { x with far := rest }).farReturn d e.val w false data).addF F.ENG_STALL.CYCLES d [e.val] cycles)
    | [], [] => .next s

/-! ### Far stores -/

/-- Whether a buffered store must wait for an older one (R309, R310, R312): entries to one die land in issue order, whatever part of it they
reach, and a store into the host aperture lands after every older one. -/
def State.storeAfter (s : State) (o b : SbEnt) : Bool :=
  decide (137438953472 ≤ b.pa) || decide (s.farDie o.pa = s.farDie b.pa)

/-- A word in a 32-bit container (R7, R33): bits [31:18] copy bit 17. -/
def container (w : W18) : W32 := w.signExtend 32

/-- The landing of a good entry. -/
def State.landStore (s : State) (d e : Nat) (b : SbEnt) : State :=
  if b.pa < 68719476736 then
    let p := s.landPa b.pa
    if paMailbox p then (b.words.mapIdx (fun i w => (i, w))).foldl (fun t (i, w) => t.putFar (p + i) w) s else (s.putWords p b.words).mirror p b.words.length
  else if b.pa < 137438953472 then
    let v : W36 := (b.words.getD 1 0) ++ (b.words.getD 0 0)
    s.busWrite (engSrc d e) (pa2bar b.pa) (v.setWidth 32) 0x0F#8
  else
    let k := aperPort b.pa
    if s.live k = false ∨ (s.port k).inReset = true then (s.incF F.HPT_APERR.COUNT k []).raise F.HPT_ERR.APERR k []
    else (b.words.mapIdx (fun i w => (i, w))).foldl (fun t (i, w) => t.emit k (.aperture (b.host + 4 * i) (container w))) s

/-- FAR_STORE_LAND (R37, R210, R267, R310 to R315, R368): entry i of the store buffer lands, or is discarded where it is in error. -/
def execFarStoreLand (die : DieNo) (e : EngNo) (i : Fin 8) (s : State) : Host.Outcome State Fault Refusal :=
  let d := die.val
  let x := s.eng d e.val
  match x.sbuf[i.val]? with
  | none => .next s
  | some b =>
    let older := x.sbuf.take i.val
    let blocked := older.any (fun o => s.storeAfter o b) || x.out (s.live (s.farDie b.pa)) b.toks || !s.inTurn d e.val b.toks || x.waitsFor b.epoch x.xfers ||
      (decide (b.pa < 68719476736) && s.mustWait d e.val (s.landPa b.pa))
    if s.live d = false ∨ blocked = true then .next s
    else
      let s1 := s.setEng d e.val { x with sbuf := x.sbuf.eraseIdx i.val }
      .next (if b.bad then (s1.updEng d e.val (fun y => y.setBit 41)).detect d e.val 5 .plain else s1.landStore d e.val b)

end Sys2Proof.Machine
end

