-- ==== Sys2Proof/Machine/EngLocal.lean ====
section
/-! DEFINITION. NOP and the local loads, stores and address operations of the L class (R102, R177 to R181). -/

namespace Sys2Proof.Machine

/-- NOP (R102): no operation, in every slot. -/
def execNop (at_ : At) (s : State) : Host.Outcome State Fault Refusal :=
  issueOp at_ { slots := [0, 1, 2, 3, 4, 5, 6, 7], kind := .nop } (fun _ => {}) s

/-- A local load of one word into D, landing at +3 (R180). -/
def Ctx.load (c : Ctx) (ea : Nat) (d : Nat) : Fx := .ld c.port 3 [(ea, .d (physD c.x.sh d))]

/-- A local load of the pair at ea and ea + 1 (R179). -/
def Ctx.loadD (c : Ctx) (ea : Nat) (d : Nat) : Fx :=
  .ld c.port 3 [(ea, .d (physD c.x.sh d)), ((ea + 1) % 65536, .d (physD c.x.sh (d + 1)))]

/-- A local store of words from `ea` upward, with the check of R87. -/
def Ctx.store (c : Ctx) (ea : Nat) (ws : List W18) : OpRes :=
  let items := ws.mapIdx (fun i w => ((ea + i) % 65536, w))
  ⟨[.st c.port items], c.constHit (items.map Prod.fst)⟩

/-- LD Dd, @addr8 (R180). -/
def execLd (at_ : At) (d : BitVec 4) (imm : BitVec 8) (s : State) : Host.Outcome State Fault Refusal :=
  issueOp at_ { slots := classL, ext := true } (fun c => { fx := [c.load (c.direct imm) d.toNat] }) s

/-- LD.D DDd, @addr8 (R179, R180). -/
def execLdD (at_ : At) (d : BitVec 4) (imm : BitVec 8) (s : State) : Host.Outcome State Fault Refusal :=
  issueOp at_ { slots := classL, ext := true }
    (fun c => { fx := [c.loadD (c.direct imm) d.toNat], traps := c.resv (!evenD d) }) s

/-- ST @addr8, Dd (R180). -/
def execSt (at_ : At) (d : BitVec 4) (imm : BitVec 8) (s : State) : Host.Outcome State Fault Refusal :=
  issueOp at_ { slots := classL, ext := true } (fun c => c.store (c.direct imm) [c.rd d]) s

/-- ST.D @addr8, DDd (R179, R180). -/
def execStD (at_ : At) (d : BitVec 4) (imm : BitVec 8) (s : State) : Host.Outcome State Fault Refusal :=
  issueOp at_ { slots := classL, ext := true } (fun c =>
    let r := c.store (c.direct imm) [c.rd d, c.rd (d + 1)]
    { r with traps := c.resv (!evenD d) ++ r.traps }) s

/-- LDP Dd, mode (R177, R180). -/
def execLdp (at_ : At) (d : BitVec 4) (n mode : BitVec 3) (w : BitVec 2) (s : State) : Host.Outcome State Fault Refusal :=
  issueOp at_ { slots := classL } (fun c =>
    let ea := (c.x.ra n.toNat).toNat
    let k : Int := if w = 0 then 1 else 2
    match c.postMod n mode k with
    | none => { traps := [c.trap .resop] }
    | some a =>
      { fx := (if w = 0 then c.load ea d.toNat else c.loadD ea d.toNat) :: a,
        traps := c.resv (decide (2 ≤ w.toNat) || (decide (w = 1) && !evenD d)) }) s

/-- STP Dd, mode (R177, R180). -/
def execStp (at_ : At) (d : BitVec 4) (n mode : BitVec 3) (w : BitVec 2) (s : State) : Host.Outcome State Fault Refusal :=
  issueOp at_ { slots := classL } (fun c =>
    let ea := (c.x.ra n.toNat).toNat
    let k : Int := if w = 0 then 1 else 2
    match c.postMod n mode k with
    | none => { traps := [c.trap .resop] }
    | some a =>
      let r := c.store ea (if w = 0 then [c.rd d] else [c.rd d, c.rd (d + 1)])
      { fx := r.fx ++ a,
        traps := c.resv (decide (2 ≤ w.toNat) || (decide (w = 1) && !evenD d)) ++ r.traps }) s

/-- LDX.L: D(d3) := L[ea] (R180). -/
def execLdxL (at_ : At) (d n : BitVec 3) (imm : BitVec 6) (s : State) : Host.Outcome State Fault Refusal :=
  issueOp at_ { slots := classL, ext := true } (fun c => { fx := [c.load (c.indexed n imm) d.toNat] }) s

/-- LDX.H: D(d3 + 8) := L[ea] (R180). -/
def execLdxH (at_ : At) (d n : BitVec 3) (imm : BitVec 6) (s : State) : Host.Outcome State Fault Refusal :=
  issueOp at_ { slots := classL, ext := true } (fun c => { fx := [c.load (c.indexed n imm) (d.toNat + 8)] }) s

/-- STX.L: L[ea] := D(d3) (R180). -/
def execStxL (at_ : At) (d n : BitVec 3) (imm : BitVec 6) (s : State) : Host.Outcome State Fault Refusal :=
  issueOp at_ { slots := classL, ext := true } (fun c => c.store (c.indexed n imm) [c.x.rd d.toNat]) s

/-- STX.H: L[ea] := D(d3 + 8) (R180). -/
def execStxH (at_ : At) (d n : BitVec 3) (imm : BitVec 6) (s : State) : Host.Outcome State Fault Refusal :=
  issueOp at_ { slots := classL, ext := true } (fun c => c.store (c.indexed n imm) [c.x.rd (d.toNat + 8)]) s

/-- LDAM: An or Mn := L[ea][15:0], then the addressing An is updated (R180). -/
def execLdam (at_ : At) (d : BitVec 4) (n mode : BitVec 3) (w : BitVec 2) (s : State) : Host.Outcome State Fault Refusal :=
  issueOp at_ { slots := classL } (fun c =>
    let ea := (c.x.ra n.toNat).toNat
    let i := physA c.x.sh (d.toNat % 8)
    match c.postMod n mode 1 with
    | none => { traps := [c.trap .resop] }
    | some a =>
      { fx := .ld c.port 3 [(ea, if d.getLsbD 3 then .m i else .a i)] :: a, traps := c.resv (decide (w ≠ 0)) }) s

/-- STAM: L[ea] := zext(An) or sext(Mn), then the addressing An is updated (R180). -/
def execStam (at_ : At) (d : BitVec 4) (n mode : BitVec 3) (w : BitVec 2) (s : State) : Host.Outcome State Fault Refusal :=
  issueOp at_ { slots := classL } (fun c =>
    let ea := (c.x.ra n.toNat).toNat
    let i := d.toNat % 8
    let v : W18 := if d.getLsbD 3 then (c.x.rm i).signExtend 18 else (c.x.ra i).setWidth 18
    match c.postMod n mode 1 with
    | none => { traps := [c.trap .resop] }
    | some a =>
      let r := c.store ea [v]
      { fx := r.fx ++ a, traps := c.resv (decide (w ≠ 0)) ++ r.traps }) s

/-- MVIA An, imm9 (R180). -/
def execMvia (at_ : At) (n : BitVec 3) (imm : BitVec 9) (s : State) : Host.Outcome State Fault Refusal :=
  issueOp at_ { slots := classL, ext := true } (fun c => { fx := [c.wa n.toNat (BitVec.ofNat 16 (c.uimm imm))] }) s

/-- ADDIA An, imm9 (R180): linear. -/
def execAddia (at_ : At) (n : BitVec 3) (imm : BitVec 9) (s : State) : Host.Outcome State Fault Refusal :=
  issueOp at_ { slots := classL, ext := true }
    (fun c => { fx := [c.wa n.toNat (c.x.ra n.toNat + BitVec.ofInt 16 (c.simm imm))] }) s

/-- MOVA: An := Dd[15:0] (R180). -/
def execMova (at_ : At) (n : BitVec 3) (d : BitVec 4) (s : State) : Host.Outcome State Fault Refusal :=
  issueOp at_ { slots := classL } (fun c => { fx := [c.wa n.toNat ((c.rd d).setWidth 16)] }) s

/-- MOVM: Mn := Dd[15:0] (R180). -/
def execMovm (at_ : At) (n : BitVec 3) (d : BitVec 4) (s : State) : Host.Outcome State Fault Refusal :=
  issueOp at_ { slots := classL } (fun c => { fx := [.wr 1 (.m (physA c.x.sh n.toNat) ((c.rd d).setWidth 16))] }) s

/-- SETBS: BSn := Dd[15:0] (R180). -/
def execSetbs (at_ : At) (n : BitVec 3) (d : BitVec 4) (s : State) : Host.Outcome State Fault Refusal :=
  issueOp at_ { slots := classL } (fun c => { fx := [.wr 1 (.bs n.toNat ((c.rd d).setWidth 16))] }) s

/-- SETLN: LNn := Dd[15:0] (R180). -/
def execSetln (at_ : At) (n : BitVec 3) (d : BitVec 4) (s : State) : Host.Outcome State Fault Refusal :=
  issueOp at_ { slots := classL } (fun c => { fx := [.wr 1 (.ln n.toNat ((c.rd d).setWidth 16))] }) s

end Sys2Proof.Machine
end

