-- ==== Sys2Proof/Machine/EngMul.lean ====
section
/-! DEFINITION. The M class: multiplies, quads and accumulator operations (R190 to R192). -/

namespace Sys2Proof.Machine

/-- An accumulator result of the set in use, with latency +3, and its sticky flags (R192). -/
def Ctx.accum (c : Ctx) (n : Nat) (r : Int) (sat : Bool) : List Fx :=
  .chain 3 (.ac (physAC c.x.sh n) (wrap54 r)) :: stickyFx c.x.sh 3 (over54 r) sat

/-- The chained value of an accumulator (R113, R190). -/
def Ctx.acc (c : Ctx) (n : Nat) : Int := (c.x.chainAC n).toInt

/-- A scalar multiply form: `keep` 0 replaces, 1 adds to and −1 subtracts from ACd; `p` is the product (R192). -/
def Ctx.mulAcc (c : Ctx) (acd : Nat) (keep : Int) (p : Int) (sat : Bool) : List Fx :=
  if keep = 0 then c.accum acd p sat else c.accum acd (c.acc acd + keep * p) sat

/-- A signed scalar multiply (R192). -/
def mulOp (at_ : At) (acd : BitVec 3) (a b : BitVec 4) (keep : Int) (s : State) : Host.Outcome State Fault Refusal :=
  issueOp at_ { slots := classM } (fun c =>
    { fx := c.mulAcc acd.toNat keep ((c.rd a).toInt * (c.rd b).toInt) false }) s

/-- A fractional scalar multiply (R192). -/
def mulfOp (at_ : At) (acd : BitVec 3) (a b : BitVec 4) (keep : Int) (s : State) : Host.Outcome State Fault Refusal :=
  issueOp at_ { slots := classM } (fun c =>
    { fx := c.mulAcc acd.toNat keep (fmul (c.rd a) (c.rd b)) (fmulSat (c.rd a) (c.rd b)) }) s

/-- A quad multiply: Da by D(4q) to D(4q + 3) into AC(4g) to AC(4g + 3) (R192). -/
def quadOp (at_ : At) (g : BitVec 1) (a : BitVec 4) (q : BitVec 2) (keep : Int) (frac : Bool) (s : State) :
    Host.Outcome State Fault Refusal :=
  issueOp at_ { slots := classM } (fun c =>
    { fx := (List.range 4).flatMap (fun i =>
        let b := c.x.rd (4 * q.toNat + i)
        if frac then c.mulAcc (4 * g.toNat + i) keep (fmul (c.rd a) b) (fmulSat (c.rd a) b)
        else c.mulAcc (4 * g.toNat + i) keep ((c.rd a).toInt * b.toInt) false) }) s

/-- An accumulator operation of format MS: ACd from the old ACd and ACs (R192). -/
def acOp (at_ : At) (acd acs : BitVec 3) (f : Int → Int → Int) (s : State) : Host.Outcome State Fault Refusal :=
  issueOp at_ { slots := classM } (fun c => { fx := c.accum acd.toNat (f (c.acc acd.toNat) (c.acc acs.toNat)) false }) s

/-- MPY (R192). -/
def execMpy (at_ : At) (acd : BitVec 3) (a b : BitVec 4) (s : State) : Host.Outcome State Fault Refusal := mulOp at_ acd a b 0 s
/-- MAC (R192). -/
def execMac (at_ : At) (acd : BitVec 3) (a b : BitVec 4) (s : State) : Host.Outcome State Fault Refusal := mulOp at_ acd a b 1 s
/-- MSU (R192). -/
def execMsu (at_ : At) (acd : BitVec 3) (a b : BitVec 4) (s : State) : Host.Outcome State Fault Refusal := mulOp at_ acd a b (-1) s
/-- MPYF (R192). -/
def execMpyf (at_ : At) (acd : BitVec 3) (a b : BitVec 4) (s : State) : Host.Outcome State Fault Refusal := mulfOp at_ acd a b 0 s
/-- MACF (R192). -/
def execMacf (at_ : At) (acd : BitVec 3) (a b : BitVec 4) (s : State) : Host.Outcome State Fault Refusal := mulfOp at_ acd a b 1 s
/-- MSUF (R192). -/
def execMsuf (at_ : At) (acd : BitVec 3) (a b : BitVec 4) (s : State) : Host.Outcome State Fault Refusal := mulfOp at_ acd a b (-1) s

/-- MACSU: unsigned Da by signed Db (R192). -/
def execMacsu (at_ : At) (acd : BitVec 3) (a b : BitVec 4) (s : State) : Host.Outcome State Fault Refusal :=
  issueOp at_ { slots := classM } (fun c => { fx := c.mulAcc acd.toNat 1 (uns (c.rd a) * (c.rd b).toInt) false }) s

/-- MACUU: both operands unsigned (R192). -/
def execMacuu (at_ : At) (acd : BitVec 3) (a b : BitVec 4) (s : State) : Host.Outcome State Fault Refusal :=
  issueOp at_ { slots := classM } (fun c => { fx := c.mulAcc acd.toNat 1 (uns (c.rd a) * uns (c.rd b)) false }) s

/-- MPY.Q (R192). -/
def execMpyQ (at_ : At) (g : BitVec 1) (a : BitVec 4) (q : BitVec 2) (s : State) : Host.Outcome State Fault Refusal := quadOp at_ g a q 0 false s
/-- MAC.Q (R192). -/
def execMacQ (at_ : At) (g : BitVec 1) (a : BitVec 4) (q : BitVec 2) (s : State) : Host.Outcome State Fault Refusal := quadOp at_ g a q 1 false s
/-- MSU.Q (R192). -/
def execMsuQ (at_ : At) (g : BitVec 1) (a : BitVec 4) (q : BitVec 2) (s : State) : Host.Outcome State Fault Refusal := quadOp at_ g a q (-1) false s
/-- MPYF.Q (R192). -/
def execMpyfQ (at_ : At) (g : BitVec 1) (a : BitVec 4) (q : BitVec 2) (s : State) : Host.Outcome State Fault Refusal := quadOp at_ g a q 0 true s
/-- MACF.Q (R192). -/
def execMacfQ (at_ : At) (g : BitVec 1) (a : BitVec 4) (q : BitVec 2) (s : State) : Host.Outcome State Fault Refusal := quadOp at_ g a q 1 true s
/-- MSUF.Q (R192). -/
def execMsufQ (at_ : At) (g : BitVec 1) (a : BitVec 4) (q : BitVec 2) (s : State) : Host.Outcome State Fault Refusal := quadOp at_ g a q (-1) true s

/-- CLRA: ACd := 0 (R192). -/
def execClra (at_ : At) (acd : BitVec 3) (s : State) : Host.Outcome State Fault Refusal := acOp at_ acd 0 (fun _ _ => 0) s
/-- ADDAC (R192). -/
def execAddac (at_ : At) (acd acs : BitVec 3) (s : State) : Host.Outcome State Fault Refusal := acOp at_ acd acs (fun x y => x + y) s
/-- SUBAC (R192). -/
def execSubac (at_ : At) (acd acs : BitVec 3) (s : State) : Host.Outcome State Fault Refusal := acOp at_ acd acs (fun x y => x - y) s
/-- The shift of SHAC and VSHA: left by k, or right with the floor (R192). -/
def shacVal (imm : BitVec 6) (y : Int) : Int :=
  if 0 ≤ imm.toInt then y * (2 ^ imm.toInt.toNat : Nat) else ashr y (-imm.toInt).toNat
/-- SHAC (R192). -/
def execShac (at_ : At) (acd acs : BitVec 3) (imm : BitVec 6) (s : State) : Host.Outcome State Fault Refusal :=
  acOp at_ acd acs (fun _ y => shacVal imm y) s
/-- NEGAC (R192). -/
def execNegac (at_ : At) (acd acs : BitVec 3) (s : State) : Host.Outcome State Fault Refusal := acOp at_ acd acs (fun _ y => -y) s
/-- ABSAC (R192). -/
def execAbsac (at_ : At) (acd acs : BitVec 3) (s : State) : Host.Outcome State Fault Refusal := acOp at_ acd acs (fun _ y => y.natAbs) s

/-- SATAC: ACd := sat36(ACs) (R192). -/
def execSatac (at_ : At) (acd acs : BitVec 3) (s : State) : Host.Outcome State Fault Refusal :=
  issueOp at_ { slots := classM } (fun c =>
    let y := c.acc acs.toNat
    { fx := c.accum acd.toNat (sat36 y) (ovf36 y) }) s

/-- RNDAC: ACs + 2^17, wrapped, with bits [17:0] cleared (R192). -/
def execRndac (at_ : At) (acd acs : BitVec 3) (s : State) : Host.Outcome State Fault Refusal :=
  issueOp at_ { slots := classM } (fun c =>
    let r := c.acc acs.toNat + 131072
    { fx := .chain 3 (.ac (physAC c.x.sh acd.toNat) (wrap54 r &&& ~~~0x3FFFF#54)) :: stickyFx c.x.sh 3 (over54 r) false }) s

/-- MVDA: ACd := sext(DDd) (R192); an odd d is reserved (R168). -/
def execMvda (at_ : At) (acd : BitVec 3) (d : BitVec 4) (s : State) : Host.Outcome State Fault Refusal :=
  issueOp at_ { slots := classM } (fun c =>
    { fx := c.accum acd.toNat (c.rd (d + 1) ++ c.rd d).toInt false, traps := c.resv (!evenD d) }) s

/-- MVDAH: ACd := sext(Dd) × 2^18 (R192). -/
def execMvdah (at_ : At) (acd : BitVec 3) (d : BitVec 4) (s : State) : Host.Outcome State Fault Refusal :=
  issueOp at_ { slots := classM } (fun c => { fx := c.accum acd.toNat ((c.rd d).toInt * 262144) false }) s

end Sys2Proof.Machine
end

