-- ==== Sys2Proof/Machine/EngRes.lean ====
section
/-! DEFINITION. Reserved opcodes, reserved forms and reserved bundle forms (R101, R102, R166 to R174, R213, R219 to R222). -/

namespace Sys2Proof.Machine

/-- Whether every bit of the operand field selected by `mask` is 0. -/
def zeroAt (w : W18) (mask : Nat) : Bool := decide ((w &&& BitVec.ofNat 18 mask) = 0)

/-- Bits [hi:lo] of a syllable. -/
def sylBits (w : W18) (hi lo : Nat) : Nat := w.toNat / 2 ^ lo % 2 ^ (hi + 1 - lo)

/-- Whether d [11:8] is odd. -/
def oddD (w : W18) : Bool := w.getLsbD 8

/-- A reserved opcode or form in an L slot (R168, R171). -/
def reservedL (w : W18) : Bool :=
  let op := opcodeOf w
  if op = 0 then !zeroAt w 0xFFF
  else if op = 1 ∨ op = 3 then false
  else if op = 2 ∨ op = 4 then oddD w
  else if op = 5 ∨ op = 6 then decide (6 ≤ sylBits w 4 2) || decide (2 ≤ sylBits w 1 0) || (decide (sylBits w 1 0 = 1) && oddD w)
  else if op ≤ 10 then false
  else if op ≤ 12 then decide (6 ≤ sylBits w 4 2) || decide (sylBits w 1 0 ≠ 0)
  else if op ≤ 14 then false
  else if op ≤ 18 then !zeroAt w 0x1F
  else if op ≤ 22 then false
  else if op ≤ 24 then !zeroAt w 0x18
  else if op = 25 ∨ op = 27 then !zeroAt w 0x1F
  else if op = 26 ∨ op = 28 then !zeroAt w 0x1F || oddD w
  else decide (op ≠ 62)

/-- A reserved opcode or form in an M slot (R168, R172, R192). -/
def reservedM (w : W18) : Bool :=
  let op := opcodeOf w
  if op = 0 then !zeroAt w 0xFFF
  else if op ≤ 8 then !zeroAt w 1
  else if op ≤ 14 then !zeroAt w 0x1F
  else if op = 15 then !zeroAt w 0x1FF
  else if op = 18 then false
  else if op ≤ 22 then !zeroAt w 0x3F
  else if op = 23 then !zeroAt w 0x1F || w.getLsbD 5
  else if op = 24 then !zeroAt w 0x1F
  else decide (op ≠ 62)

/-- A reserved opcode or form in X0 (`first`) or X1 (R168, R173, R193, R194). -/
def reservedX (first : Bool) (w : W18) : Bool :=
  let op := opcodeOf w
  if op = 0 ∨ op = 29 then !zeroAt w 0xFFF
  else if op = 9 ∨ op = 42 then !zeroAt w 0xF00
  else if op = 15 then decide (7 ≤ sylBits w 3 0)
  else if op = 20 then !zeroAt w 0x20
  else if op = 21 ∨ op = 22 ∨ op = 30 then !zeroAt w 7
  else if op = 25 ∨ op = 26 then !zeroAt w 0x100
  else if op = 27 then !zeroAt w 0xF0F
  else if op = 28 ∨ op = 36 ∨ op = 41 then !zeroAt w 0xF
  else if op = 31 then true
  else if op = 43 ∨ op = 44 then !first
  else if 45 ≤ op ∧ op ≤ 47 then first || !zeroAt w 0xFE
  else decide (48 ≤ op ∧ op ≠ 62)

/-- A reserved form in the C slot (R105, R168, R174). -/
def reservedC (w : W18) : Bool :=
  let op := opcodeOf w
  if op = 0 ∨ op = 6 ∨ op = 7 ∨ op = 13 ∨ op = 28 ∨ op = 29 ∨ op = 33 ∨ op = 35 ∨ op = 36 then !zeroAt w 0xFFF
  else if op = 4 ∨ op = 5 then !zeroAt w 0xFF
  else if op = 10 then zeroAt w 0xFF
  else if op = 11 then zeroAt w 0x3F
  else if op = 12 then !zeroAt w 0xF80 || decide (sylBits w 6 0 = 0) || decide (64 < sylBits w 6 0)
  else if op = 14 ∨ op = 15 ∨ op = 27 ∨ op = 34 then !zeroAt w 0x1F
  else if (16 ≤ op ∧ op ≤ 21) ∨ (24 ≤ op ∧ op ≤ 26) ∨ op = 31 then !zeroAt w 0xFF
  else if op = 22 ∨ op = 23 then
    !zeroAt w 0xE0 || ((lcNoC (sylBits w 4 0)) && oddD w) || (decide (op = 23) && decide (24 < sylBits w 4 0))
  else if op = 30 ∨ op = 32 then !zeroAt w 0xF1F
  else decide (39 ≤ op ∧ op ≠ 62)
where
  /-- The numbers of LC0 to LC3, the registers wider than 18 bits. -/
  lcNoC (n : Nat) : Bool := decide (19 ≤ n ∧ n ≤ 22)

/-- A reserved opcode or form in the V slot (R219 to R221). -/
def reservedV (w : W18) : Bool :=
  let op := opcodeOf w
  let vd := sylBits w 11 8
  let badVL (k : Nat) : Bool := !zeroAt w 3 || decide (4 ≤ sylBits w 4 2) || decide (16 < vd + k)
  if op = 0 then !zeroAt w 0xFFF
  else if op = 1 ∨ op = 30 then !zeroAt w 0xF
  else if op = 2 then false
  else if op = 3 ∨ op = 4 then badVL 1
  else if op = 5 ∨ op = 6 then decide (2 ≤ sylBits w 1 0)
  else if op ≤ 9 then badVL (op - 5)
  else if op ≤ 12 then badVL (op - 8)
  else if op = 13 ∨ op = 14 then !zeroAt w 1
  else if op = 15 ∨ op = 16 then false
  else if op = 17 then !zeroAt w 0x3F
  else if op ≤ 26 then false
  else if op = 27 then decide (7 ≤ sylBits w 3 0)
  else if op = 28 then !zeroAt w 0x20
  else if op ≤ 33 then false
  else if op = 34 ∨ op = 35 then oddD w
  else if op = 36 ∨ op = 37 then !zeroAt w 0xF || oddD w
  else if op = 38 then !zeroAt w 0xF0F
  else if op = 39 then !zeroAt w 0xF
  else if op ≤ 48 then !zeroAt w 3
  else if op = 49 then !zeroAt w 0x3FF
  else if op = 50 ∨ op = 52 then !zeroAt w 0xFF
  else if op = 51 then !zeroAt w 0xC0
  else if op = 53 then !zeroAt w 0xF
  else if op = 54 then !zeroAt w 0x3F
  else decide (op ≠ 62)

/-- A reserved opcode or form in slot `i` (R101). -/
def reservedIn (i : Nat) (w : W18) : Bool :=
  match i with
  | 0 | 1 => reservedL w
  | 2 | 3 => reservedM w
  | 4 => reservedX true w
  | 5 => reservedX false w
  | 6 => reservedV w
  | _ => reservedC w

/-- Whether an operation accepts an extension (R169, R222). -/
def takesExt (i : Nat) (w : W18) : Bool :=
  let op := opcodeOf w
  match i with
  | 0 | 1 => decide ((1 ≤ op ∧ op ≤ 4) ∨ (7 ≤ op ∧ op ≤ 10) ∨ op = 13 ∨ op = 14)
  | 4 | 5 => decide (op = 7 ∨ op = 8 ∨ op = 10)
  | 6 => decide (op = 2)
  | _ => false

def isXt (w : W18) : Bool := decide (opcodeOf w = 62)

/-- The slot that an XT in slot `i` donates to (R102). -/
def xtTarget (l : List W18) : Nat → Option Nat
  | 0 => none
  | i + 1 => if isXt (l.getD i 0) then xtTarget l i else some i

/-- Whether the XT in slot `i` makes a reserved bundle form (R102, R170): no slot takes it, its operation takes none, or a
second XT donates to the same slot. -/
def badXt (l : List W18) (i : Nat) : Bool :=
  match xtTarget l i with
  | none => true
  | some t => !takesExt t (l.getD t 0) || decide (t + 1 ≠ i)

/-- The lowest slot of a bundle with a reserved opcode, form or bundle form (R213). -/
def reservedSlot (l : List W18) : Option (Fin 8) :=
  (List.finRange 8).find? (fun i => let w := l.getD i.val 0
    if isXt w then badXt l i.val else reservedIn i.val w)

/-- RESERVED_OPCODE (R157, R213): the bundle of eight syllables traps with cause RESOP and changes no state in any slot. -/
def execReservedOpcode (at_ : At) (syls : List W18) (s : State) : Host.Outcome State Fault Refusal :=
  match reservedSlot syls with
  | none => .fault .notReserved
  | some i =>
    if (s.eng at_.die.val at_.eng.val).bundle.isEmpty = false then .fault .slotTaken
    else issueSyls { at_ with slot := i, ext := none, last := true } { slots := [0, 1, 2, 3, 4, 5, 6, 7] } (some syls)
      (fun c => { traps := [c.trap .resop] }) s

end Sys2Proof.Machine
end

