-- ==== Sys2Proof/Machine/EngSys.lean ====
section
/-! DEFINITION. Queue operations, shared bits, system registers, translation and program-memory writes of the C class
(R105, R204 to R211, R291 to R305). -/

namespace Sys2Proof.Machine

/-! ### Queues and blocks (R204 to R207) -/

/-- The global queue number of DDv, or the trap of R205. -/
def Ctx.queueNo (c : Ctx) (v : BitVec 3) (own : Bool) : Option Nat :=
  let w := (c.x.rdd v.toNat).toNat
  let die := w / 131072
  if w < 1048576 ∧ c.s.populated die = true ∧ (own = false ∨ die = c.d) then some w else none

/-- ENQ Dd, DDv (R204, R205, R207). -/
def execEnq (at_ : At) (d : BitVec 4) (v : BitVec 3) (s : State) : Host.Outcome State Fault Refusal :=
  issueOp at_ { slots := classC } (fun c =>
    match c.queueNo v false with
    | none => { traps := [c.trap .qaddr] }
    | some q =>
      if c.x.run = .idle then { traps := [c.trap .idleout] }
      else { fx := [.act (.enq (c.rd d) q)] }) s

/-- DEQ Dd, DDv (R204 to R206). -/
def execDeq (at_ : At) (d : BitVec 4) (v : BitVec 3) (s : State) : Host.Outcome State Fault Refusal :=
  issueOp at_ { slots := classC } (fun c =>
    match c.queueNo v true with
    | none => { traps := [c.trap .qaddr] }
    | some q => { fx := [.act (.deq (physD c.x.sh d.toNat) q c.x.sh)] }) s

/-- ALLOC Dd (R204). -/
def execAlloc (at_ : At) (d : BitVec 4) (s : State) : Host.Outcome State Fault Refusal :=
  issueOp at_ { slots := classC } (fun c => { fx := [.act (.alloc (physD c.x.sh d.toNat) c.x.sh)] }) s

/-- REL Dd (R204, R207). -/
def execRel (at_ : At) (d : BitVec 4) (s : State) : Host.Outcome State Fault Refusal :=
  issueOp at_ { slots := classC } (fun c =>
    { fx := if c.x.run = .idle then [] else [.act (.rel (c.rd d))] }) s

/-! ### Shared bits (R208) -/

/-- A shared-bit access, which stalls and is performed by its return (R150, R188). -/
def Ctx.sharedBit (c : Ctx) (d : BitVec 4) (set : Option Bool) (flag : Bool) : OpRes :=
  { fx := [.act (.far { kind := .sbit (c.rd d).toNat set flag, pa := 0, sh := c.x.sh, fwd := none, waits := false, epoch := c.x.epoch,
                        upTo := 0, toks := [] })] }

/-- SBSET Dd (R208). -/
def execSbset (at_ : At) (d : BitVec 4) (s : State) : Host.Outcome State Fault Refusal :=
  issueOp at_ { slots := classC, priv := true, kind := .far } (fun c => c.sharedBit d (some true) false) s

/-- SBCLR Dd (R208). -/
def execSbclr (at_ : At) (d : BitVec 4) (s : State) : Host.Outcome State Fault Refusal :=
  issueOp at_ { slots := classC, priv := true, kind := .far } (fun c => c.sharedBit d (some false) false) s

/-- SBTAS Dd (R208). -/
def execSbtas (at_ : At) (d : BitVec 4) (s : State) : Host.Outcome State Fault Refusal :=
  issueOp at_ { slots := classC, priv := true, kind := .far } (fun c => c.sharedBit d (some true) true) s

/-- SBTST Dd (R208). -/
def execSbtst (at_ : At) (d : BitVec 4) (s : State) : Host.Outcome State Fault Refusal :=
  issueOp at_ { slots := classC, kind := .far } (fun c => c.sharedBit d none true) s

/-! ### System registers (R105, R209) -/

/-- The number n of LCn for a system-register number (R105). -/
def lcNo (n : Nat) : Option Nat := if 19 ≤ n ∧ n ≤ 22 then some (n - 19) else none

/-- User reads that R105 permits. -/
def userRead (n : Nat) : Bool := decide (n ≤ 9 ∨ (19 ≤ n ∧ n ≤ 24))

/-- User writes that R105 permits: FL, RC, SCNT, BXS, DBK. -/
def userWrite (n : Nat) : Bool := decide (n = 0 ∨ n = 2 ∨ n = 3 ∨ n = 4 ∨ n = 8)

/-- A loop-stack entry as LCn (R105). -/
def LoopEnt.word (l : LoopEnt) : W36 := l.count ++ l.stop ++ l.start

/-- LCn; 0 at or above LSP. -/
def Eng.lc (x : Eng) (n : Nat) : W36 := match x.loops[n]? with
  | some l => l.word
  | none => 0

/-- A system register of at most 18 bits as MVS reads it; 0 for a reserved number (R105). -/
def Ctx.sysReg (c : Ctx) (n : Nat) : W18 :=
  let x := c.x
  match n with
  | 0 => x.flags.setWidth 18 | 1 => x.stWord | 2 => x.rc | 3 => x.scnt.setWidth 18 | 4 => x.bxs.setWidth 18
  | 5 => x.vl.setWidth 18 | 6 => x.vfi.setWidth 18 | 7 => 16 | 8 => x.dbk.setWidth 18 | 9 => x.asid.setWidth 18
  | 10 => x.epc.setWidth 18 | 11 => x.epc2.setWidth 18 | 12 => x.ecause | 13 => x.evah | 14 => x.eval
  | 15 => x.ivec.setWidth 18 | 16 => x.tvec.setWidth 18 | 17 => x.imask.setWidth 18 | 18 => x.ipend.setWidth 18
  | 23 => BitVec.ofNat 18 (globalEng c.d c.e) | 24 => BitVec.ofNat 18 (c.s.fn c.d) | _ => 0

/-- MVS Dd, sys (R105, R168, R209). -/
def execMvs (at_ : At) (d : BitVec 4) (sys : BitVec 5) (s : State) : Host.Outcome State Fault Refusal :=
  issueOp at_ { slots := classC } (fun c =>
    let n := sys.toNat
    let priv := if c.x.user && !userRead n then [c.trap .priv] else []
    match lcNo n with
    | some k =>
      let v := c.x.lc k
      { fx := [c.wd 1 d.toNat (v.setWidth 18), c.wd 1 (d.toNat + 1) ((v >>> 18).setWidth 18)],
        traps := c.resv (!evenD d) ++ priv }
    | none => { fx := c.wd 1 d.toNat (c.sysReg n) :: (if 15 ≤ n ∧ n ≤ 17 then [.act (.healVec (n - 15))] else []), traps := priv }) s

/-- The write of a system register by MTS (R105, R209, R216); none for those that R105 ignores. -/
def Ctx.sysWrite (c : Ctx) (n : Nat) (v : W18) : List Wr :=
  match n with
  | 0 => [.fl c.x.sh 0x7F#7 (v.setWidth 7)]
  | 1 => [.st 0x3A#18 v]
  | 2 => [.rc v] | 3 => [.scnt (v.setWidth 16)] | 4 => [.bxs (v.setWidth 5)]
  | 5 => [.vl (BitVec.ofNat 7 (min v.toNat 16))]
  | 6 => [.vfi (v.setWidth 6)] | 8 => [.dbk (v.setWidth 8)] | 9 => [.asid (v.setWidth 8)]
  | 10 => [.epc (v.setWidth 12)] | 11 => [.epc2 (v.setWidth 14)] | 12 => [.ecause (v &&& 0x7FF#18)]
  | 13 => [.evah v] | 14 => [.eval v]
  | 15 => [.ivec (v.setWidth 12)] | 16 => [.tvec (v.setWidth 12)] | 17 => [.imask (v.setWidth 16)]
  | _ => []

/-- MTS Dd, sys (R105, R168, R209). -/
def execMts (at_ : At) (d : BitVec 4) (sys : BitVec 5) (s : State) : Host.Outcome State Fault Refusal :=
  issueOp at_ { slots := classC } (fun c =>
    let n := sys.toNat
    let priv := if c.x.user && !userWrite n then [c.trap .priv] else []
    match lcNo n with
    | some k =>
      { fx := if k < c.x.loops.length then [.wr 1 (.lc k (c.rd (d + 1) ++ c.rd d))] else [],
        traps := c.resv (!evenD d) ++ priv }
    | none => { fx := (c.sysWrite n (c.rd d)).map (Fx.wr 1), traps := c.resv (decide (24 < n)) ++ priv }) s

/-! ### Translation (R210, R291 to R305) -/

/-- The entry of an image in D8 to D15, and whether R293 refuses it. -/
def Eng.image (x : Eng) : TlbEnt × Bool :=
  let d (i : Nat) : W18 := x.rd i
  let p := d 12
  let ps : BitVec 6 := (d 9).setWidth 6
  let space : BitVec 2 := ((d 11) >>> 4).setWidth 2
  let bad := decide (ps.toNat < 6) || decide (36 < ps.toNat) || decide (space = 3) || decide ((d 11).toNat % 16 ≠ 0) ||
    decide ((p >>> 1).toNat % 4 ≠ 0) || decide (d 13 ≠ 0) || decide (d 14 ≠ 0) || decide (d 15 ≠ 0)
  (⟨(d 8 ++ ((d 9) >>> 6).setWidth 12), ps, (d 10 ++ ((d 11) >>> 6).setWidth 12), space, (p >>> 10).setWidth 8,
    p.getLsbD 9, p.getLsbD 8, p.getLsbD 7, p.getLsbD 6, p.getLsbD 5, p.getLsbD 4, p.getLsbD 3, p.getLsbD 0 && !bad, false⟩, bad)

/-- A bit of an image word. -/
def bitAt (b : Bool) (i : Nat) : W18 := if b then BitVec.twoPow 18 i else 0

/-- The image of an entry (R292), D8 first. -/
def TlbEnt.words (t : TlbEnt) : List W18 :=
  [(t.vpn >>> 12).setWidth 18, (t.vpn.setWidth 12 ++ t.ps), (t.ppn >>> 12).setWidth 18,
   ((t.ppn.setWidth 12 ++ t.space) ++ (0 : BitVec 4)),
   (t.asid.setWidth 18 <<< 10) ||| bitAt t.g 9 ||| bitAt t.pin 8 ||| bitAt t.se 7 ||| bitAt t.u 6 ||| bitAt t.x 5 |||
     bitAt t.w 4 ||| bitAt t.r 3 ||| bitAt t.v 0, 0, 0, 0]

def tlbInfo : OpInfo := { slots := classC, priv := true }

/-- L2 entry i. -/
def Eng.l2At (x : Eng) (i : Nat) : TlbEnt := x.l2.get .zero i

/-- TLBW Dd (R210, R291). -/
def execTlbw (at_ : At) (d : BitVec 4) (s : State) : Host.Outcome State Fault Refusal :=
  issueOp at_ tlbInfo (fun c =>
    let (t, bad) := c.x.image
    { fx := [.act (.tlbw ((c.rd d).toNat % 128) t bad)] }) s

/-- The entry that TLBWR writes (R291): the first unpinned invalid one, else the first unpinned one at or above `c`, wrapping. -/
def Eng.victim (x : Eng) (c : Nat) : Option Nat :=
  let free := (List.range 128).filter (fun i => !(x.l2At i).pin)
  match free.find? (fun i => !(x.l2At i).v) with
  | some i => some i
  | none => (free.find? (fun i => decide (c ≤ i))) <|> free.head?

/-- TLBWR Dd (R210, R291): `c`, the cycles since wake, is free. -/
def execTlbwr (at_ : At) (d : BitVec 4) (s : State) : Host.Outcome State Fault Refusal :=
  issueOp at_ tlbInfo (fun c =>
    let (t, bad) := c.x.image
    match c.x.victim ((c.free 7 0).toNat) with
    | some i => { fx := [.act (.tlbw i t bad), c.wd 1 d.toNat (BitVec.ofNat 18 i)] }
    | none => { fx := [.act (.bitSet 45), c.wd 1 d.toNat 0x3FFFF#18] }) s

/-- TLBR Dd (R210); an unpinned entry in error reads with V = 0 and is invalidated (R376), a pinned one is read and rewritten from its good copy (R375). -/
def execTlbr (at_ : At) (d : BitVec 4) (s : State) : Host.Outcome State Fault Refusal :=
  issueOp at_ tlbInfo (fun c =>
    let i := (c.rd d).toNat % 128
    let t := (c.x.l2At i).fixed
    { fx := ({ t with v := t.v && !t.perr }).words.mapIdx (fun k w => c.wd 1 (8 + k) w) ++
            (if t.perr then [.act (.l2Bad [i])] else []) }) s

/-- TLBP Dd, DDv (R210, R294). -/
def execTlbp (at_ : At) (d : BitVec 4) (v : BitVec 3) (s : State) : Host.Outcome State Fault Refusal :=
  issueOp at_ tlbInfo (fun c =>
    let r := match findL2 (c.va v) c.x.asid c.x.l2 with
      | some k => BitVec.ofNat 18 k.idx
      | none => 0x3FFFF#18
    { fx := [c.wd 1 d.toNat r, .act (.l2Bad c.x.l2Errs)] }) s

/-- TLBSYNC (R210). -/
def execTlbsync (at_ : At) (s : State) : Host.Outcome State Fault Refusal :=
  issueOp at_ tlbInfo (fun _ => { fx := [.act .tlbsync] }) s

/-- TLBIA (R305). -/
def execTlbia (at_ : At) (s : State) : Host.Outcome State Fault Refusal :=
  issueOp at_ tlbInfo (fun _ => { fx := [.act (.dropIdx (List.range 128))] }) s

/-- The L2 indexes of the entries that satisfy a test. -/
def Eng.l2Where (x : Eng) (p : TlbEnt → Bool) : List Nat := (List.range 128).filter (fun i => p (x.l2At i))

/-- TLBIV DDv (R305). -/
def execTlbiv (at_ : At) (v : BitVec 3) (s : State) : Host.Outcome State Fault Refusal :=
  issueOp at_ tlbInfo (fun c =>
    { fx := [.act (.dropIdx (c.x.l2Where (fun t => t.fixed.hit (c.va v) c.x.asid))), .act (.l2Bad c.x.l2Errs)] }) s

/-- TLBIT Dd (R305). -/
def execTlbit (at_ : At) (d : BitVec 4) (s : State) : Host.Outcome State Fault Refusal :=
  issueOp at_ tlbInfo (fun c =>
    { fx := [.act (.dropIdx (c.x.l2Where (fun t => !t.g && decide (t.asid = (c.rd d).setWidth 8))))] }) s

/-- The directory entry address of a walk descriptor and a VA (R299), or the fault of R301. -/
def walkAddr (desc va : Nat) : Nat ⊕ Cause :=
  let space := desc / 17179869184
  let base := desc / 2048 % 8388608
  let shift := desc / 16 % 64
  let width := desc % 16
  if space = 1 then .inr .walkdev
  else if space = 3 ∨ desc / 1024 % 2 ≠ 0 ∨ width = 0 ∨ 12 < width ∨ 36 < shift + width then .inr .daddr
  else .inl (space * 68719476736 + base * 8192 + 2 * (va / 2 ^ shift % 2 ^ width))

/-- TWK DDv (R299 to R302): the read checks existence, power, owner and the aperture window as an LDF.D does (R210, R459). A walk-cache entry in
error is absent (R375). -/
def execTwk (at_ : At) (v : BitVec 3) (s : State) : Host.Outcome State Fault Refusal :=
  issueOp at_ { tlbInfo with kind := .far } (fun c =>
    let va := (c.x.evah ++ c.x.eval).toNat
    match walkAddr (c.x.rdd v.toNat).toNat va with
    | .inr k => { traps := [c.trap k] }
    | .inl pa =>
      let p := c.s.landPa pa
      let mem := decide (pa < 68719476736)
      let bank := mem && paShared p
      if mem && !c.s.located p then { traps := [c.trap .daddr] }
      else match c.x.walk.find? (fun e => decide (e.1 = pa) && !e.2.2) with
        | some (_, w, _) =>
          let a : W36 := BitVec.ofNat 36 pa
          { fx := [c.wd 1 8 (w.setWidth 18), c.wd 1 9 ((w >>> 18).setWidth 18),
                   c.wd 1 10 (a.setWidth 18), c.wd 1 11 ((a >>> 18).setWidth 18)] }
        | none =>
          if bank && decide (c.s.f F.SHM_PWR.PSTAT (paDie p) [paBank p] ≠ 0) then { traps := [c.trap .daddr] }
          else if bank && !c.s.admits c.d c.e p then { traps := [c.trap .owner] }
          else if !mem && !c.s.aperOk false pa then { traps := [c.trap .daddr] }
          else
            let r (i : Nat) : Nat := physD c.x.sh i
            let side := !mem
            let fwd := match c.x.youngest p 2 with
              | some b => if !side && decide (b.pa = p ∧ b.words.length = 2) && !b.bad then some b.words else none
              | none => none
            { fx := [.act (.far { kind := .walk (r 8) (r 9) (r 10) (r 11), pa := pa, sh := c.x.sh, fwd := fwd, waits := side, epoch := c.x.epoch,
                                  upTo := 0, toks := [] })] }) s

/-- WCINV (R302). -/
def execWcinv (at_ : At) (s : State) : Host.Outcome State Fault Refusal :=
  issueOp at_ tlbInfo (fun _ => { fx := [.act .wcinv] }) s

/-! ### Program memory (R161 to R164, R211) -/

/-- PMW An, Dd (R161, R164, R211). Of PMWACT and DADDR in one operation, the former is taken (DESIGN CHOICE, log entry 171). -/
def execPmw (at_ : At) (n : BitVec 3) (d : BitVec 4) (s : State) : Host.Outcome State Fault Refusal :=
  issueOp at_ { slots := classC, priv := true, kind := .pmw } (fun c =>
    let src := (c.x.ra n.toNat).toNat
    let shadow := (c.rd d).getLsbD 12
    let words := (List.range 8).map (fun i => (src + i) % 65536)
    { fx := [.rd 0 words, .act (.pmw ⟨xor c.x.half shadow, (c.rd d).setWidth 12, src, 0, 0⟩)],
      traps := (if !shadow && !c.x.st.getLsbD 4 then [c.trap .pmwact] else []) ++
               (if src % 8 ≠ 0 then [c.trapAt .daddr (c.free 36 0).toNat false] else []) }) s

/-- IFENCE (R163). -/
def execIfence (at_ : At) (s : State) : Host.Outcome State Fault Refusal :=
  issueOp at_ { slots := classC } (fun _ => { fx := [.act .ifence] }) s

end Sys2Proof.Machine
end

