-- ==== Sys2Proof/Machine/EngVec.lean ====
section
/-! DEFINITION. The V class: vector length, lane arithmetic, local vector access, gather and scatter (R215 to R236). -/

namespace Sys2Proof.Machine

/-! ### Results -/

/-- A V result of the vector ALU class (R223), lane by lane. -/
def Ctx.wv (c : Ctx) (r : Nat) (f : Nat → W18) : Fx := .wr 2 (.v r (c.lanes.map (fun i => (i, f i))))

/-- The issue of a V-class operation. -/
def vecOp (at_ : At) (f : Ctx → OpRes) (s : State) : Host.Outcome State Fault Refusal := issueOp at_ { slots := classV } f s

/-- A lane-by-lane operation on two V registers. -/
def vecBin (at_ : At) (vd va vb : BitVec 4) (f : W18 → W18 → W18) (s : State) : Host.Outcome State Fault Refusal :=
  vecOp at_ (fun c => { fx := [c.wv vd.toNat (fun i => f (c.lane va.toNat i) (c.lane vb.toNat i))] }) s

/-- A saturating lane-by-lane operation, which sets SAT where a lane clamps (R225). -/
def Ctx.vecSat (c : Ctx) (vd : BitVec 4) (f : Nat → Int) : OpRes :=
  { fx := c.wv vd.toNat (fun i => wrap18 (sat18 (f i))) :: stickyFx c.x.sh 2 false (c.lanes.any (fun i => ovf18 (f i))) }

/-- A VA result of latency +3, wrapped, with its sticky flags (R223 to R225). -/
def Ctx.wva (c : Ctx) (r : Nat) (ls : List Nat) (f : Nat → Int) (sat : Bool) : OpRes :=
  { fx := .chain 3 (.va r (ls.map (fun i => (i, wrap54 (f i))))) ::
          stickyFx c.x.sh 3 (ls.any (fun i => over54 (f i))) sat }

/-- A lane of VA in its chain (R224). -/
def Ctx.chainA (c : Ctx) (r : BitVec 2) (i : Nat) : Int := (c.x.chainVA r.toNat i).toInt

/-- A vector multiply: `keep` 0 replaces, 1 adds and −1 subtracts the product (R226). -/
def vecMul (at_ : At) (vad : BitVec 2) (va : BitVec 4) (b : Ctx → Nat → W18) (keep : Int) (frac : Bool) (s : State) :
    Host.Outcome State Fault Refusal :=
  vecOp at_ (fun c =>
    let p (i : Nat) : Int := if frac then fmul (c.lane va.toNat i) (b c i) else (c.lane va.toNat i).toInt * (b c i).toInt
    c.wva vad.toNat c.lanes (fun i => if keep = 0 then p i else c.chainA vad i + keep * p i)
      (frac && c.lanes.any (fun i => fmulSat (c.lane va.toNat i) (b c i)))) s

/-! ### Vector length (R216) -/

/-- VL := min(r, 16) and Dd := VL. -/
def Ctx.setVl (c : Ctx) (d : BitVec 4) (r : Nat) : OpRes :=
  { fx := [.wr 1 (.vl (BitVec.ofNat 7 (min r 16))), c.wd 1 d.toNat (BitVec.ofNat 18 (min r 16))] }

/-- VSETL Dd, Da (R216). -/
def execVsetl (at_ : At) (d a : BitVec 4) (s : State) : Host.Outcome State Fault Refusal :=
  vecOp at_ (fun c => c.setVl d (c.rd a).toNat) s

/-- VSETLI Dd, imm8 (R216, R222). -/
def execVsetli (at_ : At) (d : BitVec 4) (imm : BitVec 8) (s : State) : Host.Outcome State Fault Refusal :=
  issueOp at_ { slots := classV, ext := true } (fun c => c.setVl d (c.uimm imm)) s

/-! ### Lane arithmetic (R226) -/

/-- VADD (R226). -/
def execVadd (at_ : At) (vd va vb : BitVec 4) (s : State) : Host.Outcome State Fault Refusal := vecBin at_ vd va vb (fun x y => x + y) s
/-- VSUB (R226). -/
def execVsub (at_ : At) (vd va vb : BitVec 4) (s : State) : Host.Outcome State Fault Refusal := vecBin at_ vd va vb (fun x y => x - y) s
/-- VADDS (R226). -/
def execVadds (at_ : At) (vd va vb : BitVec 4) (s : State) : Host.Outcome State Fault Refusal :=
  vecOp at_ (fun c => c.vecSat vd (fun i => (c.lane va.toNat i).toInt + (c.lane vb.toNat i).toInt)) s
/-- VSUBS (R226). -/
def execVsubs (at_ : At) (vd va vb : BitVec 4) (s : State) : Host.Outcome State Fault Refusal :=
  vecOp at_ (fun c => c.vecSat vd (fun i => (c.lane va.toNat i).toInt - (c.lane vb.toNat i).toInt)) s
/-- VAND (R226). -/
def execVand (at_ : At) (vd va vb : BitVec 4) (s : State) : Host.Outcome State Fault Refusal := vecBin at_ vd va vb (fun x y => x &&& y) s
/-- VOR (R226). -/
def execVor (at_ : At) (vd va vb : BitVec 4) (s : State) : Host.Outcome State Fault Refusal := vecBin at_ vd va vb (fun x y => x ||| y) s
/-- VXOR (R226). -/
def execVxor (at_ : At) (vd va vb : BitVec 4) (s : State) : Host.Outcome State Fault Refusal := vecBin at_ vd va vb (fun x y => x ^^^ y) s
/-- VMIN (R226). -/
def execVmin (at_ : At) (vd va vb : BitVec 4) (s : State) : Host.Outcome State Fault Refusal :=
  vecBin at_ vd va vb (fun x y => if y.toInt < x.toInt then y else x) s
/-- VMAX (R226). -/
def execVmax (at_ : At) (vd va vb : BitVec 4) (s : State) : Host.Outcome State Fault Refusal :=
  vecBin at_ vd va vb (fun x y => if x.toInt < y.toInt then y else x) s

/-- VUN sub (R194, R226); the other sub codes are reserved (R221). -/
def execVun (at_ : At) (vd va sub : BitVec 4) (s : State) : Host.Outcome State Fault Refusal :=
  vecOp at_ (fun c =>
    let x := c.lane va.toNat
    match sub.toNat with
    | 0 => { fx := [c.wv vd.toNat x] }
    | 1 => { fx := [c.wv vd.toNat (fun i => ~~~ x i)] }
    | 2 => { fx := [c.wv vd.toNat (fun i => - x i)] }
    | 3 => { fx := [c.wv vd.toNat (fun i => wrap18 ((x i).toInt.natAbs : Int))] }
    | 4 => c.vecSat vd (fun i => -(x i).toInt)
    | 5 => c.vecSat vd (fun i => ((x i).toInt.natAbs : Int))
    | 6 => { fx := [c.wv vd.toNat (fun i => BitVec.ofNat 18 (cls (x i)))] }
    | _ => { traps := [c.trap .resop] }) s

/-- VSHI vd, kind, amt (R226). -/
def execVshi (at_ : At) (vd : BitVec 4) (kind : BitVec 2) (amt : BitVec 5) (s : State) : Host.Outcome State Fault Refusal :=
  vecOp at_ (fun c => { fx := [c.wv vd.toNat (fun i => shift18 kind.toNat (c.lane vd.toNat i) amt.toNat)] }) s

/-- The exact result of VSHV on one lane (R226). -/
def shvVal (a b : W18) : Int :=
  let n := clamp (-31) 31 b.toInt
  if 0 ≤ n then a.toInt * (2 ^ n.toNat : Nat) else ashr a.toInt (-n).toNat

/-- VSHV (R226). -/
def execVshv (at_ : At) (vd va vb : BitVec 4) (s : State) : Host.Outcome State Fault Refusal :=
  vecOp at_ (fun c => c.vecSat vd (fun i => shvVal (c.lane va.toNat i) (c.lane vb.toNat i))) s

/-- VBCST vd, Da (R226). -/
def execVbcst (at_ : At) (vd a : BitVec 4) (s : State) : Host.Outcome State Fault Refusal :=
  vecOp at_ (fun c => { fx := [c.wv vd.toNat (fun _ => c.rd a)] }) s

/-- VEXT Dd, va, Db (R226). -/
def execVext (at_ : At) (d va b : BitVec 4) (s : State) : Host.Outcome State Fault Refusal :=
  vecOp at_ (fun c =>
    let i := (c.rd b).toNat % 64
    { fx := [c.wd 2 d.toNat (if i < c.vl then c.lane va.toNat i else 0)] }) s

/-- VINS vd, Da, Db (R226). -/
def execVins (at_ : At) (vd a b : BitVec 4) (s : State) : Host.Outcome State Fault Refusal :=
  vecOp at_ (fun c =>
    let i := (c.rd b).toNat % 64
    { fx := if i < c.vl then [.wr 2 (.v vd.toNat [(i, c.rd a)])] else [] }) s

/-- VSLD vd, va, Db (R226). -/
def execVsld (at_ : At) (vd va b : BitVec 4) (s : State) : Host.Outcome State Fault Refusal :=
  vecOp at_ (fun c => { fx := [c.wv vd.toNat (fun i => if i + 1 < c.vl then c.lane va.toNat (i + 1) else c.rd b)] }) s

/-- The lanes that VMAXI or VMINI takes, into vd and its index register; an odd vd is reserved (R221, R226). -/
def vecPeak (at_ : At) (vd va b : BitVec 4) (better : W18 → W18 → Bool) (s : State) : Host.Outcome State Fault Refusal :=
  vecOp at_ (fun c =>
    let hit := c.lanes.filter (fun i => better (c.lane va.toNat i) (c.lane vd.toNat i))
    { fx := [.wr 2 (.v vd.toNat (hit.map (fun i => (i, c.lane va.toNat i)))), .wr 2 (.v (vd.toNat + 1) (hit.map (fun i => (i, c.rd b))))],
      traps := c.resv (!evenD vd) }) s

/-- VMAXI vd, va, Db (R226). -/
def execVmaxi (at_ : At) (vd va b : BitVec 4) (s : State) : Host.Outcome State Fault Refusal :=
  vecPeak at_ vd va b (fun x y => decide (y.toInt < x.toInt)) s
/-- VMINI vd, va, Db (R226). -/
def execVmini (at_ : At) (vd va b : BitVec 4) (s : State) : Host.Outcome State Fault Refusal :=
  vecPeak at_ vd va b (fun x y => decide (x.toInt < y.toInt)) s

/-- The first lane that no later lane betters, among lanes listed in rising order. -/
def pickLane (better : W18 → W18 → Bool) (f : Nat → W18) : List Nat → Option Nat
  | [] => none
  | i :: l => match pickLane better f l with
    | some j => if better (f j) (f i) then some j else some i
    | none => some i

/-- VRMAXI and VRMINI: the extreme into D(d) and its lowest lane into D(d + 1); an odd d is reserved (R221, R226). -/
def vecReduce (at_ : At) (d va : BitVec 4) (better : W18 → W18 → Bool) (none_ : W18) (s : State) : Host.Outcome State Fault Refusal :=
  vecOp at_ (fun c =>
    let r : W18 × W18 := match pickLane better (c.lane va.toNat) c.lanes with
      | some i => (c.lane va.toNat i, BitVec.ofNat 18 i)
      | none => (none_, 0x3FFFF#18)
    { fx := [c.wd 2 d.toNat r.1, c.wd 2 (d.toNat + 1) r.2], traps := c.resv (!evenD d) }) s

/-- VRMAXI Dd, va (R226). -/
def execVrmaxi (at_ : At) (d va : BitVec 4) (s : State) : Host.Outcome State Fault Refusal :=
  vecReduce at_ d va (fun x y => decide (y.toInt < x.toInt)) 0x20000#18 s
/-- VRMINI Dd, va (R226). -/
def execVrmini (at_ : At) (d va : BitVec 4) (s : State) : Host.Outcome State Fault Refusal :=
  vecReduce at_ d va (fun x y => decide (x.toInt < y.toInt)) 0x1FFFF#18 s

/-- VBEXP va (R226, R227): the fold of the lanes' counts. -/
def execVbexp (at_ : At) (va : BitVec 4) (s : State) : Host.Outcome State Fault Refusal :=
  vecOp at_ (fun c => { fx := [.fold 2 (c.lanes.foldl (fun m i => min m (cls (c.lane va.toNat i))) 31)] }) s

/-- VNORM vd, va (R226). -/
def execVnorm (at_ : At) (vd va : BitVec 4) (s : State) : Host.Outcome State Fault Refusal :=
  vecOp at_ (fun c => { fx := [c.wv vd.toNat (fun i => wrap18 ((c.lane va.toNat i).toInt * (2 ^ c.x.bxs.toNat : Nat)))] }) s

/-! ### Multiplies and accumulators (R226) -/

/-- VMPY (R226). -/
def execVmpy (at_ : At) (vad : BitVec 2) (va vb : BitVec 4) (s : State) : Host.Outcome State Fault Refusal :=
  vecMul at_ vad va (fun c => c.lane vb.toNat) 0 false s
/-- VMAC (R226). -/
def execVmac (at_ : At) (vad : BitVec 2) (va vb : BitVec 4) (s : State) : Host.Outcome State Fault Refusal :=
  vecMul at_ vad va (fun c => c.lane vb.toNat) 1 false s
/-- VMSU (R226). -/
def execVmsu (at_ : At) (vad : BitVec 2) (va vb : BitVec 4) (s : State) : Host.Outcome State Fault Refusal :=
  vecMul at_ vad va (fun c => c.lane vb.toNat) (-1) false s
/-- VMPYF (R226). -/
def execVmpyf (at_ : At) (vad : BitVec 2) (va vb : BitVec 4) (s : State) : Host.Outcome State Fault Refusal :=
  vecMul at_ vad va (fun c => c.lane vb.toNat) 0 true s
/-- VMACF (R226). -/
def execVmacf (at_ : At) (vad : BitVec 2) (va vb : BitVec 4) (s : State) : Host.Outcome State Fault Refusal :=
  vecMul at_ vad va (fun c => c.lane vb.toNat) 1 true s
/-- VMSUF (R226). -/
def execVmsuf (at_ : At) (vad : BitVec 2) (va vb : BitVec 4) (s : State) : Host.Outcome State Fault Refusal :=
  vecMul at_ vad va (fun c => c.lane vb.toNat) (-1) true s
/-- VMPYFS (R226): Db in place of vb[i]. -/
def execVmpyfs (at_ : At) (vad : BitVec 2) (va b : BitVec 4) (s : State) : Host.Outcome State Fault Refusal :=
  vecMul at_ vad va (fun c _ => c.rd b) 0 true s
/-- VMACFS (R226). -/
def execVmacfs (at_ : At) (vad : BitVec 2) (va b : BitVec 4) (s : State) : Host.Outcome State Fault Refusal :=
  vecMul at_ vad va (fun c _ => c.rd b) 1 true s
/-- VMSUFS (R226). -/
def execVmsufs (at_ : At) (vad : BitVec 2) (va b : BitVec 4) (s : State) : Host.Outcome State Fault Refusal :=
  vecMul at_ vad va (fun c _ => c.rd b) (-1) true s

/-- VCLRA (R226). -/
def execVclra (at_ : At) (vad : BitVec 2) (s : State) : Host.Outcome State Fault Refusal :=
  vecOp at_ (fun c => c.wva vad.toNat c.lanes (fun _ => 0) false) s
/-- VADDA (R226). -/
def execVadda (at_ : At) (vad vas : BitVec 2) (s : State) : Host.Outcome State Fault Refusal :=
  vecOp at_ (fun c => c.wva vad.toNat c.lanes (fun i => c.chainA vad i + c.chainA vas i) false) s
/-- VSHA (R226): the shift of SHAC. -/
def execVsha (at_ : At) (vad vas : BitVec 2) (imm : BitVec 6) (s : State) : Host.Outcome State Fault Refusal :=
  vecOp at_ (fun c => c.wva vad.toNat c.lanes (fun i => shacVal imm (c.chainA vas i)) false) s
/-- VRADD (R226): the sum of the lanes into lane 0. -/
def execVradd (at_ : At) (vad vas : BitVec 2) (s : State) : Host.Outcome State Fault Refusal :=
  vecOp at_ (fun c => c.wva vad.toNat (if c.vl = 0 then [] else [0])
    (fun _ => c.lanes.foldl (fun a i => a + c.chainA vas i) 0) false) s
/-- VMVA vd, vas, part (R224, R226). -/
def execVmva (at_ : At) (vd : BitVec 4) (vas part : BitVec 2) (s : State) : Host.Outcome State Fault Refusal :=
  vecOp at_ (fun c =>
    let r (i : Nat) : W18 × Bool := acPart (c.laneA vas.toNat i) part.toNat
    { fx := c.wv vd.toNat (fun i => (r i).1) :: stickyFx c.x.sh 2 false (c.lanes.any (fun i => (r i).2)) }) s
/-- VMVDA vad, va (R226). -/
def execVmvda (at_ : At) (vad : BitVec 2) (va : BitVec 4) (s : State) : Host.Outcome State Fault Refusal :=
  vecOp at_ (fun c => c.wva vad.toNat c.lanes (fun i => (c.lane va.toNat i).toInt * 262144) false) s

/-! ### Local vector access (R228 to R230) -/

/-- The V-port cycles beyond two beats that an access costs (R229). -/
def beatFx (addrs : List Nat) : Fx :=
  let b := (List.range 8).foldl (fun m k => max m ((addrs.filter (fun a => decide (a % 8 = k))).length)) 0
  .act (.beats (b - 2))

/-- The address at offset `delta` from An (R177, R228), the free value `k` outside the circular range. -/
def Ctx.elem (c : Ctx) (n : BitVec 3) (delta : Int) (k : Nat) : Nat :=
  (c.stepOr n.toNat delta (freeBits 16 (c.s.fresh + 1280 + k))).toNat

/-- Field f of element i of a k-field access (R228): V register offset, lane and address. -/
def Ctx.vecItems (c : Ctx) (n : BitVec 3) (k : Nat) : List (Nat × Nat × Nat) :=
  c.lanes.flatMap (fun i => (List.range k).map (fun f => (f, i, c.elem n (k * i + f : Nat) (k * i + f))))

/-- A post-modified An at +2 (R223). -/
def Ctx.vecMod (c : Ctx) (n : BitVec 3) (delta : Int) : List Fx :=
  [.wr 2 (.a (physA c.x.sh n.toNat) (c.step n.toNat delta))]

/-- The post-modify of VLD, VST, VLDk and VSTk; `none` where the mode is reserved (R221, R228). -/
def Ctx.vecPost (c : Ctx) (n mode : BitVec 3) (k : Nat) : Option (List Fx) :=
  match mode.toNat with
  | 0 => some []
  | 1 => some (c.vecMod n (k * c.vl : Nat))
  | 2 => some (c.vecMod n (-(k * c.vl : Nat)))
  | 3 => some (c.vecMod n (c.x.rm n.toNat).toInt)
  | _ => none

/-- A local vector load of (V register, lane, address) items, landing at +4. -/
def vecLoadFx (items : List (Nat × Nat × Nat)) : List Fx :=
  [.ld 3 4 (items.map (fun (r, i, a) => (a, .lane r i))), beatFx (items.map (fun (_, _, a) => a))]

/-- A local vector store, with the check of R87. -/
def Ctx.vecStore (c : Ctx) (items : List (Nat × Nat × Nat)) : OpRes :=
  let addrs := items.map (fun (_, _, a) => a)
  { fx := [.st 3 (items.map (fun (r, i, a) => (a, c.lane r i))), beatFx addrs], traps := c.constHit addrs }

/-- VLD and VLDk (R221, R228). -/
def vecLd (at_ : At) (vd : BitVec 4) (n mode : BitVec 3) (k : Nat) (s : State) : Host.Outcome State Fault Refusal :=
  vecOp at_ (fun c =>
    match c.vecPost n mode k with
    | none => { traps := [c.trap .resop] }
    | some p =>
      { fx := vecLoadFx ((c.vecItems n k).map (fun (f, i, a) => (vd.toNat + f, i, a))) ++ p,
        traps := c.resv (decide (16 < vd.toNat + k)) }) s

/-- VST and VSTk (R221, R228). -/
def vecSt (at_ : At) (vd : BitVec 4) (n mode : BitVec 3) (k : Nat) (s : State) : Host.Outcome State Fault Refusal :=
  vecOp at_ (fun c =>
    match c.vecPost n mode k with
    | none => { traps := [c.trap .resop] }
    | some p =>
      let r := c.vecStore ((c.vecItems n k).map (fun (f, i, a) => (vd.toNat + f, i, a)))
      { fx := r.fx ++ p, traps := c.resv (decide (16 < vd.toNat + k)) ++ r.traps }) s

/-- VLD (R228). -/
def execVld (at_ : At) (vd : BitVec 4) (n mode : BitVec 3) (s : State) : Host.Outcome State Fault Refusal := vecLd at_ vd n mode 1 s
/-- VLD2 (R228). -/
def execVld2 (at_ : At) (vd : BitVec 4) (n mode : BitVec 3) (s : State) : Host.Outcome State Fault Refusal := vecLd at_ vd n mode 2 s
/-- VLD3 (R228). -/
def execVld3 (at_ : At) (vd : BitVec 4) (n mode : BitVec 3) (s : State) : Host.Outcome State Fault Refusal := vecLd at_ vd n mode 3 s
/-- VLD4 (R228). -/
def execVld4 (at_ : At) (vd : BitVec 4) (n mode : BitVec 3) (s : State) : Host.Outcome State Fault Refusal := vecLd at_ vd n mode 4 s
/-- VST (R228). -/
def execVst (at_ : At) (vd : BitVec 4) (n mode : BitVec 3) (s : State) : Host.Outcome State Fault Refusal := vecSt at_ vd n mode 1 s
/-- VST2 (R228). -/
def execVst2 (at_ : At) (vd : BitVec 4) (n mode : BitVec 3) (s : State) : Host.Outcome State Fault Refusal := vecSt at_ vd n mode 2 s
/-- VST3 (R228). -/
def execVst3 (at_ : At) (vd : BitVec 4) (n mode : BitVec 3) (s : State) : Host.Outcome State Fault Refusal := vecSt at_ vd n mode 3 s
/-- VST4 (R228). -/
def execVst4 (at_ : At) (vd : BitVec 4) (n mode : BitVec 3) (s : State) : Host.Outcome State Fault Refusal := vecSt at_ vd n mode 4 s

/-- The items of VLDS and VSTS: An + i × sext(Mm). -/
def Ctx.strideItems (c : Ctx) (n m : BitVec 3) (r : Nat) : List (Nat × Nat × Nat) :=
  c.lanes.map (fun i => (r, i, c.elem n ((i : Int) * (c.x.rm m.toNat).toInt) i))

/-- The post-modify of VLDS and VSTS (R228). -/
def Ctx.stridePost (c : Ctx) (n m : BitVec 3) (u : BitVec 2) : List Fx :=
  if u = 1 then c.vecMod n ((c.vl : Int) * (c.x.rm m.toNat).toInt) else []

/-- VLDS (R221, R228). -/
def execVlds (at_ : At) (vd : BitVec 4) (n m : BitVec 3) (u : BitVec 2) (s : State) : Host.Outcome State Fault Refusal :=
  vecOp at_ (fun c => { fx := vecLoadFx (c.strideItems n m vd.toNat) ++ c.stridePost n m u, traps := c.resv (decide (2 ≤ u.toNat)) }) s

/-- VSTS (R221, R228). -/
def execVsts (at_ : At) (vd : BitVec 4) (n m : BitVec 3) (u : BitVec 2) (s : State) : Host.Outcome State Fault Refusal :=
  vecOp at_ (fun c =>
    let r := c.vecStore (c.strideItems n m vd.toNat)
    { fx := r.fx ++ c.stridePost n m u, traps := c.resv (decide (2 ≤ u.toNat)) ++ r.traps }) s

/-- The items of VGTH and VSCT: (An + vb[i][15:0]) mod 2^16. -/
def Ctx.gatherItems (c : Ctx) (n : BitVec 3) (vb : BitVec 4) (r : Nat) : List (Nat × Nat × Nat) :=
  c.lanes.map (fun i => (r, i, (c.x.ra n.toNat + (c.lane vb.toNat i).setWidth 16).toNat))

/-- VGTH (R228). -/
def execVgth (at_ : At) (vd : BitVec 4) (n : BitVec 3) (vb : BitVec 4) (s : State) : Host.Outcome State Fault Refusal :=
  vecOp at_ (fun c => { fx := vecLoadFx (c.gatherItems n vb vd.toNat) }) s

/-- VSCT (R228, R230). -/
def execVsct (at_ : At) (vd : BitVec 4) (n : BitVec 3) (vb : BitVec 4) (s : State) : Host.Outcome State Fault Refusal :=
  vecOp at_ (fun c => c.vecStore (c.gatherItems n vb vd.toNat)) s

/-! ### Far gather and scatter (R231 to R236) -/

/-- The checks of the elements from `i` on (R231), each with the refills of those before it (R290): the good ones with their PAs and refills, and
the first that fails. -/
def Ctx.elements (c : Ctx) (v vb : BitVec 3) (write : Bool) (s : State) : Nat → Nat → List (Nat × FarOk) × Option (Nat × FarBad)
  | 0, _ => ([], none)
  | n + 1, i =>
    let va := (c.x.rdd v.toNat + (c.lane vb.toNat i).signExtend 36).toNat
    match s.farCheck c.d c.e ⟨va, va, write, false, true, false⟩ with
    | .inr b => ([], some (i, b))
    | .inl ok => let r := Ctx.elements c v vb write (s.setEng c.d c.e ((s.eng c.d c.e).refilled s.fresh ok.acts)) n (i + 1)
                 ((i, ok) :: r.1, r.2)

/-- VGTH.F and VSCT.F: the elements before the first faulting one start (R231 to R234). -/
def Ctx.farVec (c : Ctx) (v vb : BitVec 3) (tag : BitVec 2) (write : Bool) (k : XferKind) (item : Nat → Nat → Nat × Nat) : OpRes :=
  let first := c.x.vfi.toNat
  let r := c.elements v vb write c.s (c.vl - first) first
  let els := r.1.map (fun (i, ok) => item i ok.pa)
  let start : Act := .xfer { tag := tag.toNat, kind := k, pa := 0, loc := 0, len := els.length, elems := els, epoch := c.x.epoch, dirty := [], toks := [] }
  let refills := r.1.flatMap (fun (_, ok) => ok.acts)
  match r.2 with
  | none => { fx := .act start :: .wr 1 (.vfi 0) :: refills.map Fx.act }
  | some (i, bad) => { fx := [], traps := [⟨.vfault, c.at_.slot.val, some (BitVec.ofNat 36 bad.va), false, some (BitVec.ofNat 6 i),
                                            start :: refills ++ bad.acts⟩] }

/-- VGTH.F (R231 to R234). -/
def execVgthF (at_ : At) (vd : BitVec 4) (v vb : BitVec 3) (tag : BitVec 2) (s : State) : Host.Outcome State Fault Refusal :=
  vecOp at_ (fun c => c.farVec v vb tag false (.gather vd.toNat) (fun i pa => (i, pa))) s

/-- VSCT.F (R231 to R235). -/
def execVsctF (at_ : At) (vd : BitVec 4) (v vb : BitVec 3) (tag : BitVec 2) (s : State) : Host.Outcome State Fault Refusal :=
  vecOp at_ (fun c => c.farVec v vb tag true .scatter (fun i pa => (pa, (c.lane vd.toNat i).toNat))) s

/-- VPF: it changes no architectural state (R236). -/
def execVpf (at_ : At) (_v _dl : BitVec 3) (s : State) : Host.Outcome State Fault Refusal := vecOp at_ (fun _ => {}) s

end Sys2Proof.Machine
end

