-- ==== Sys2Proof/Machine/Record.lean ====
section
/-! DEFINITION. Record rings of the host ports (R457), with both port maps during the handover (R419, R420). -/

namespace Sys2Proof.Machine

/-- One channel and segment of a frame as a record ring takes it: its flow, and the words. -/
structure RecItem where
  flow : Option Nat
  words : List W18
  deriving DecidableEq, Repr

/-- The channel and segment of a block. -/
def RecItem.key (x : RecItem) : Nat × Nat := (blkChan x.words, blkSeg x.words)

/-- The format of an item's flow. -/
def State.recFmt (s : State) (x : RecItem) : Nat := match x.flow with
  | some f => (s.flow f).fmt
  | none => 3

/-- The samples of a segment of an item's flow (R317). -/
def State.recLen (s : State) (x : RecItem) : Nat := let f := s.fPrime (s.flow (x.flow.getD 0)); f / segsOf f

/-- One block of a record ring's queue, taken and FREE; one that cannot be sent is silence with MISS (R319, R380). -/
def State.recordTake (s : State) (g h : Nat) : State × RecItem :=
  let f := s.flowOf g
  let (s1, ws0, miss) := s.portTake g h
  let (chan, seg) : Nat × Nat := if miss then (g % 131072 - (s.flow (f.getD 0)).qbase, 0) else (blkChan ws0, blkSeg ws0)
  let (ws, silent) := bfCopy ws0 miss (f.getD 0) (s.fn (g / 131072)) chan seg (s.recLen ⟨f, []⟩)
  (if silent then s1.flowDrop f 1 else s1, ⟨f, ws⟩)

/-- Every block committed to a queue. -/
def State.recordTakes (s : State) (o : Option Nat) : State × List RecItem :=
  match o with
  | none => (s, [])
  | some g =>
    if s.live (g / 131072) = false then (s, [])
    else ((s.que g).com.filter (fun e => !e.held && !e.gone)).foldl (fun (p : State × List RecItem) e =>
      let (t, x) := p.1.recordTake g e.h.toNat
      (t, p.2 ++ [x])) (s, [])

/-- The items of both maps side by side, by channel and segment. -/
def pairItems : List RecItem → List RecItem → List (Option RecItem × Option RecItem)
  | early, [] => early.map (fun a => (some a, none))
  | early, b :: full =>
    let a := early.find? (fun x => decide (x.key = b.key))
    (a, some b) :: pairItems (match a with
      | some x => early.erase x
      | none => early) full

/-- The containers of a record entry that its block gives (R7, R453, R457): header words with bits [31:18] copying bit 17, and the samples. -/
def recContainers (head : List W18) (body : List W32) : List W32 := (head.take 4).map (BitVec.signExtend 32) ++ body

/-- The 128 containers of an entry; those beyond its samples hold undefined values, which free value `fr` and the next ones give (R8, R316). -/
def fillEntry (fr : Nat) (l : List W32) : List W32 := (List.range 128).map (fun i => l.getD i (freeBits 32 (fr + i)))

/-- The containers of an item sent as it is, in its flow's format, and the samples clamped (R321, R453). -/
def recordEntry (fmt : Nat) (ws : List W18) : List W32 × Nat :=
  let body := (List.range (min (blkCount ws) 124)).map (fun i =>
    let m := ws.getD (4 + i) 0
    if fmt = 3 then (BitVec.signExtend 32 m, false)
    else let (v, c) := sendSample fmt (valueV m (blkE ws)); (BitVec.ofInt 32 v, c))
  (recContainers ws (body.map Prod.fst), (body.filter Prod.snd).length)

/-- The containers of a crossfaded entry (R420, R321): in the format BF the values are normalised again (DESIGN CHOICE, log entry 157). -/
def State.recordMixed (s : State) (d fmt n : Nat) (base : RecItem) (va vb : List Int) : List W32 × Nat :=
  let at_ (i : Nat) : Int := (s.mixAt ((s.die d).msc + 96 * blkSeg base.words + i)).value (va.getD i 0) (vb.getD i 0)
  let body := (List.range n).map (fun i => sendSample (if fmt = 3 then 2 else fmt) (at_ i))
  let head (e : Int) : List W18 := mkBlock e (List.replicate n 0) (base.flow.getD 0) (s.fn d) (blkChan base.words) (blkSeg base.words) 0 0
  if fmt = 3 then
    let (e, ms) := toBlock (body.map Prod.fst)
    (recContainers (head e) (ms.map (BitVec.signExtend 32)), 0)
  else (recContainers (head (blkE base.words)) (body.map (fun p => BitVec.ofInt 32 p.1)), (body.filter Prod.snd).length)

/-- What one pair sends in this frame: its flow, the containers and the samples clamped; the early output alone, both, or the full one alone (R420). -/
def State.recordPair (s : State) (d : Nat) (p : Option RecItem × Option RecItem) : Option (RecItem × List W32 × Nat) :=
  let plain (o : Option RecItem) : Option (RecItem × List W32 × Nat) := o.map (fun x => (x, recordEntry (s.recFmt x) x.words))
  match s.mixAt (s.die d).msc, p.2 <|> p.1 with
  | .early, _ => plain p.1
  | .full, _ => plain p.2
  | .both _ _, none => none
  | .both _ _, some base =>
    let n := s.recLen base
    let vals (o : Option RecItem) : List Int := match o with
      | some x => blockValues x.words n
      | none => []
    some (base, s.recordMixed d (s.recFmt base) n base (vals p.1) (vals p.2))

/-- One entry of a record ring, or a block dropped for want of a free one: the state and the blocks dropped. -/
def State.recordPut (s : State) (k r : Nat) (p : State × Nat) (x : RecItem × List W32 × Nat) : State × Nat :=
  if s.takesPart k r = false ∨ s.ringType k r ≠ 4 ∨ p.1.freeEnt k r = 0 then (p.1.flowDrop x.1.flow 1, p.2 + 1)
  else
    let t := match x.1.flow with
      | some f => if x.2.2 = 0 then p.1 else p.1.satOut f x.2.2
      | none => p.1
    (((t.emit k (.record r (t.dev k r) (fillEntry t.fresh x.2.1))).step1 k r).useFree 128, p.2)

/-- One record ring in a frame: every block committed to the queues that the maps in force name becomes an entry or is dropped, and one RECDROP counts
those dropped (R457). -/
def State.recordRing (s : State) (k r : Nat) : State :=
  let (s1, a) := if s.pkg.early.isSome then s.recordTakes (s.recordQ true k r) else (s, [])
  let (s2, b) := s1.recordTakes (s.recordQ false k r)
  let (s3, n) := ((pairItems a b).filterMap (s2.recordPair k)).foldl (State.recordPut s2 k r) (s2, 0)
  if n = 0 then s3 else s3.event 0x34 255 6 [64 * k + r, n]

/-- The record rings of a port in a frame (R457). -/
def State.recordRings (s : State) (k : Nat) : State := (List.range 64).foldl (fun t r => t.recordRing k r) s

end Sys2Proof.Machine
end

