-- ==== Sys2Proof/Machine/Frame.lean ====
section
/-! DEFINITION. The frame: heels, ticks and their commit phase, the flywheel, the discipline source and the guard (R47 to R68,
R90 to R99, R469, R601). -/

namespace Sys2Proof.Machine

/-! ### Heels (R64 to R66) -/

/-- FN of the coming tick, without a load (R53, R54). -/
def State.nextFn (s : State) (d : Nat) : Nat := if (s.die d).ticks = 0 then 0 else (s.fn d + 1) % 281474976710656

/-- Put a heel copy on the heel lane of an outbound direction, which carries every heel in every state (R38, R41). Its cycle counts in SPN_LOAD unless
the direction sends another message in it, which is a free choice where it sent any (R38, R44). -/
def State.laneHeel (s : State) (d : Nat) (dir : Dir) (h : Heel) (hops : Nat) : State :=
  let g := s.seg d dir
  let n := if g.load = 0 then 1 else freeNat 2 s.fresh
  (s.setSeg d dir { g with heels := g.heels ++ [(h, hops)], load := g.load + n }).useFree 1

/-- HEEL_SEND (R64): the tick master sends the heel of the coming tick both ways, and fires from it itself. -/
def execHeelSend (die : DieNo) (s : State) : Host.Outcome State Fault Refusal :=
  let d := die.val
  if s.live d = false then .next s
  else if s.f F.TCK_STAT.MASTER d [] ≠ d ∨ (s.die d).phase ≠ .guard ∨ (s.die d).heel ≠ none then .next s
  else
    let h : Heel := ⟨BitVec.ofNat 48 (s.nextFn d), d, if (s.die d).armT = some (s.nextFn d) then (s.die d).decision else none⟩
    let s1 := s.setDie d { s.die d with heel := some h }
    .next ((s1.laneHeel d .up h 1).laneHeel d .dn h 1)

/-- HEEL_RECEIVE (R64): die `die` receives the oldest heel copy that travels in direction `dir` toward it. The first good copy
for its coming tick is taken; a good copy travels on until it would reach the master. -/
def execHeelReceive (die : DieNo) (dir : Dir) (good : Bool) (s : State) : Host.Outcome State Fault Refusal :=
  let d := die.val
  if s.live d = false then .next s
  else
    let nb := s.next d dir.flip
    let g := s.seg nb dir
    match g.heels with
    | [] => .next s
    | (h, hops) :: rest =>
      let s1 := s.setSeg nb dir { g with heels := rest }
      if good = false then .next s1
      else
        let s2 := if (s1.die d).heel = none ∧ (s1.die d).phase = .guard ∧ h.fn.toNat = s1.nextFn d then
            s1.setDie d { s1.die d with heel := some h }
          else s1
        .next (if s2.next d dir = h.master then s2 else s2.laneHeel d dir h (hops + 1))

/-! ### Time of day (R95, R96, R617) -/

/-- The BCD code of a number of up to four digits. -/
def bcdNat (n : Nat) : Nat := n % 10 + 16 * (n / 10 % 10) + 256 * (n / 100 % 10) + 4096 * (n / 1000 % 10)

/-- The time of day in quarter-milliseconds. -/
def todOf (v : W32) : Nat :=
  ((bcdVal (field v 31 26) * 60 + bcdVal (field v 25 19)) * 60 + bcdVal (field v 18 12)) * 4000 + bcdVal (field v 11 0) * 4

/-- TCK_TOD of a time in quarter-milliseconds, truncated to the millisecond. -/
def todWord (q : Nat) : W32 :=
  let ms := q / 4
  BitVec.ofNat 32 (bcdNat (ms / 3600000) * 67108864 + bcdNat (ms / 60000 % 60) * 524288 + bcdNat (ms / 1000 % 60) * 4096 + bcdNat (ms % 1000))

/-- The date one day on; the year after 9999 is not stated, so it is the free value `yr`. -/
def nextDay (v : W32) (yr : Nat) : W32 :=
  let y := bcdVal (field v 31 16)
  let m := bcdVal (field v 12 8)
  let a := bcdVal (field v 5 0)
  let w := field v 15 13
  let last := monthDays y m
  let (y1, m1, a1) : Nat × Nat × Nat :=
    if a < last then (bcdNat y, m, a + 1) else if m < 12 then (bcdNat y, m + 1, 1) else (if y < 9999 then bcdNat (y + 1) else yr, 1, 1)
  BitVec.ofNat 32 (y1 * 65536 + (if w = 7 then 1 else w + 1) * 8192 + bcdNat m1 * 256 + bcdNat a1)

/-- Quarter-milliseconds in a frame of a period (R52). -/
def quarters (fper : Nat) : Nat := 2 ^ fper

/-- TCK_TOD and TCK_DATE of a tick (R95, R96). No rule says when the time of day begins to run after reset: DESIGN CHOICE, a die's first tick leaves
the registers at their reset values and the time runs on from there (log entry 138). -/
def State.todTick (s : State) (d : Nat) (first : Bool) (fper : Nat) : State :=
  match s.pkg.ldTod with
  | some (t, v) => ((s.setReg .TCK_TOD d [] t).setReg .TCK_DATE d [] v).setDie d { s.die d with sub := 0 }
  | none =>
    if first then s
    else
      let q := todOf (s.reg .TCK_TOD d []) + (s.die d).sub + quarters fper
      let date := s.reg .TCK_DATE d []
      let s1 := s.setReg .TCK_TOD d [] (todWord (q % 345600000))
      let s2 := s1.setDie d { s1.die d with sub := q % 4 }
      if q < 345600000 then s2 else (s2.setReg .TCK_DATE d [] (nextDay date (freeBits 16 s.fresh).toNat)).useFree 1

/-! ### Steps of a tick -/

/-- FN and MSC (R53, R54, R469). `fper` is the period of the frame that ends. -/
def State.countTick (s : State) (d : Nat) (inp : TickIn) (fper : Nat) : State :=
  let x := s.die d
  let first := decide (x.ticks = 0)
  let fn := match s.pkg.ldFn with
    | some n => n
    | none => s.nextFn d
  let rate := s.f F.TCK_CTL.RATE 0 []
  let len := 12 * 2 ^ (fper + rate)
  let ptp := decide (s.f F.TCK_CTL.PHASE 0 [] = 2) && decide (inp.lock = 2)
  let msc := if ptp then inp.ptpMsc.toNat else if first then 0 else (x.msc + len) % 18446744073709551616
  let s1 := (s.setReg .TCK_FN_LO d [] (BitVec.ofNat 32 fn)).setF F.TCK_FN_HI.FN_HI d [] (fn / 4294967296)
  let s2 := s1.setDie d { s1.die d with msc := msc, ticks := x.ticks + 1 }
  if s.pkg.ldFn.isSome then
    let young (e : QEnt) : QEnt := { e with age := 0 }
    { s2 with ques := s2.ques.map (fun (p : Nat × Queue) =>
        (p.1, if p.1 / 131072 = d then { p.2 with com := p.2.com.map young, pend := p.2.pend.map young } else p.2)) }
  else s2

/-- The registers of TCK that a tick sets (R62 to R66, R99). -/
def State.clockTick (s : State) (d : Nat) (inp : TickIn) (own : Bool) : State :=
  let x := s.die d
  let master := match x.heel with
    | some h => h.master
    | none => s.f F.TCK_STAT.MASTER d []
  let s0 := (s.setF F.TCK_STAT.FLYWHEEL d [] own.toNat).setF F.TCK_STAT.LOCK d [] inp.lock.toNat
  let s1 := if own then (s0.raise F.TCK_STAT.HEELMISS d []).event 0x22 d 2 [] else s0
  let s2 := if s1.f F.TCK_STAT.HOLDOVER d [] = 1 then s1
    else
      let p := inp.ppm.toInt
      let t := s1.setF F.TCK_PPM.PPM d [] (BitVec.ofInt 16 (max (-10000) (min 10000 p))).toNat
      if p < -10000 ∨ 10000 < p then t.raise F.TCK_STAT.DISCLIM d [] else t
  let s3 := s2.setF F.TCK_SKEW.SKEW d [] inp.skew.toNat
  let runs := if own then x.ownTicks + 1 else 0
  -- The second tick in a row from the own count: the lowest-numbered die heard, the old master apart, takes over (R66).
  let heard := x.heard
  let take := own && decide (2 ≤ runs) && (List.range d).all (fun i => decide (i = master) || !heard.contains i) && decide (master ≠ d)
  let now := if take then d else master
  let s4 := s3.setDie d { s3.die d with ownTicks := runs }
  if now = s.f F.TCK_STAT.MASTER d [] then s4
  else ((s4.setF F.TCK_STAT.MASTER d [] now).raise F.TCK_STAT.MASTEREV d []).event 0x21 d 2 [now]

/-- Presence (R66, R390): who was heard in the frame that ends. -/
def State.presenceTick (s : State) (d : Nat) : State :=
  let x := s.die d
  let others := (List.range 8).filter (fun i => decide (i ≠ d) && s.populated i && !(s.reg .DIE_LOST d []).getLsbD i)
  let miss := others.foldl (fun m i => m.set 0 i (if x.heard.contains i then 0 else m.get 0 i + 1)) x.missed
  s.setDie d { x with heard := [], missed := if x.ticks ≤ 1 then x.missed else miss, faults := [], faultDue := x.faultDue ++ x.faults }

/-- Counter clears at cycle 0 (R165, R275, R363). KEN_FREEMIN then takes the FREE count that stands. -/
def State.clearTick (s : State) (d : Nat) : State :=
  let s1 := (List.range 64).foldl (fun t e =>
    if t.f F.ENG_CTL.CNTCLR d [e] = 0 then t
    else
      let u := [RegName.ENG_TCNT, .ENG_WPF, .ENG_PMBANK, .ENG_MISP, .ENG_STALL].foldl (fun v r => v.setReg r d [e] 0) t
      ((List.range 4).foldl (fun v m => v.setReg .ENG_LCF d [e, m] 0) u).setF F.ENG_CTL.CNTCLR d [e] 0) s
  let s2 := if s1.f F.SHM_CTL.CNTCLR d [] = 0 then s1
    else (((List.range 13).foldl (fun v m => v.setReg .SHM_CCNT d [m] 0) s1).setF F.SHM_VIOL.COUNT d [] 0).setF F.SHM_CTL.CNTCLR d [] 0
  if s2.f F.KEN_CTL.CNTCLR d [] = 0 then s2
  else
    let u := (List.range 8).foldl (fun v c => v.setReg .KEN_DROP d [c] 0) s2
    let v := (((u.setReg .KEN_BADOP d [] 0).setReg .KEN_LATE d [] 0).setF F.KEN_FREEMIN.MIN d [] 65535).setF F.KEN_CTL.CNTCLR d [] 0
    if v.f F.KEN_BLOCKS.BLOCKS d [] = 0 then v else v.noteMin d

/-- Keys take effect in their slots at cycle 0 (R583, R584). -/
def State.keyTick (s : State) (d : Nat) : State :=
  let due := (s.die d).keyDue
  due.foldl (fun t (slot, ty, key) =>
    let t1 := (t.setF F.SEC_SLOT.V d [slot] (if ty = 0 then 0 else 1)).setF F.SEC_SLOT.TYPE d [slot] ty
    let t2 := (t1.setF F.SEC_SLOT.GEN d [slot] (min 65535 (t1.f F.SEC_SLOT.GEN d [slot] + 1))).event 0x306 255 7 [d, slot, ty]
    t2.setDie d { t2.die d with keys := (t2.die d).keys.set [] slot key }) (s.setDie d { s.die d with keyDue := [] })

/-- The overrun of a run that the guard finds, or whose work has not landed at the tick (R90, R92). -/
def State.overrunAt (s : State) (d e entry : Nat) : State :=
  let x := s.eng d e
  let s1 := (s.setEng d e { x.stopRun with redo := none, next := entry + 1 }).dropWork d x.work true
  ((s1.raise F.ENG_FEV.OVR d [e]).incF F.ENG_FCNT.OVERRUNS d [e]).event 0x18 d 3 [globalEng d e, entry]

/-- The constant regions of an engine whose active map entries changed since its last tick, and those that hold a bad word (R75, R619). -/
def State.regionsDue (s : State) (d e : Nat) : List Nat :=
  let x := s.eng d e
  (List.range 8).filter (fun j => decide (s.fa F.ENG_CMA.LLEN d [e, j] ≠ 0) &&
    (x.consts.contains j || x.badRegs.contains j || decide ((s.act .ENG_CMA d [e, j], s.act .ENG_CMB d [e, j]) ≠ x.cmap.get (0, 0) j)))

/-- The active map entries of an engine. -/
def State.mapNow (s : State) (d e : Nat) : Store (W32 × W32) :=
  (List.range 8).foldl (fun m j => m.set (0, 0) j (s.act .ENG_CMA d [e, j], s.act .ENG_CMB d [e, j])) []

/-- A run whose work has not landed by the last cycle of the guard is aborted there (R92, R450). -/
def State.lastCycle (s : State) (d e : Nat) : State :=
  match (s.eng d e).run with
  | .folio i _ => s.overrunAt d e i
  | _ => s

/-- An engine at a tick: its list starts anew (R68, R75). -/
def State.engTick (s : State) (d e : Nat) : State :=
  if s.f F.ENG_STAT.PWR d [e] = 0 then s
  else
    let gone := s.takenOver d e
    let taken := gone && !s.selfTesting d e
    let due := s.regionsDue d e
    let s2 := s.updEng d e (fun y => { y with next := if gone then 16 else 0, listDone := taken, redo := none, badWords := [],
                                               fended := [], budgetHit := false, consts := due, cmap := s.mapNow d e })
    if s2.moreToRun d e || s2.selfTesting d e then s2.setF F.ENG_FSTAT.SEQ d [e] 0
    else if taken then s2.setF F.ENG_FSTAT.SEQ d [e] 5 else s2.rest d e

/-- The active folio list of an engine owns the leaves of entry i: no entry up to it has V = 0 (R68, R77). -/
def State.listOwns (s : State) (d e i : Nat) : Bool := (List.range (i + 1)).all (fun j => decide (s.fa F.ENG_FLA.V d [e, j] = 1))

/-- Leaves turn whose owners reached FEND and are still in an active list, and created or deleted leaves take effect, their contents written by the
maintenance path (R77, R79, R257). -/
def State.leafTick (s : State) (d : Nat) : State :=
  let s1 := { s with leaves := s.leaves.map (fun (p : Nat × Leaf) =>
    (p.1, if p.1 / 16384 = d ∧ p.2.turn = true then
        { p.2 with side := if s.listOwns d p.2.eng p.2.entry then !p.2.side else p.2.side, turn := false }
      else p.2)) }
  let cmds := (s1.die d).leafCmds
  cmds.foldl (fun t c =>
    let t1 := { t with leaves := t.leaves.set .zero (16384 * d + c.leaf) c.val }
    if c.val.v then (t1.mendWords (bankPa d 0 c.val.recto) c.words).mendWords (bankPa d 0 c.val.verso) c.words else t1)
    (s1.setDie d { s1.die d with leafCmds := [] })

/-- A host port at cycle 0: rings whose EN := 0 takes effect (R432). -/
def State.portTick (s : State) (k : Nat) : State :=
  let s1 := (List.range 64).foldl (fun t r =>
    if (t.ring k r).closing then (t.setF F.HPT_RCFG.EN k [r] 0).updRing k r (fun x => { x with closing := false }) else t) s
  s1.updPort k (fun x => { x with cmdTaken := 0, streamsDone := false })

/-- DIE_MON.RAILOK shows the rails in their operating range (R613), DIE_TEMP the temperature, with its warning and the stop at 115 °C (R601).
RAILOK reads its reset value until the die's first tick (log entry 158). -/
def State.tempTick (s : State) (d : Nat) (temp : BitVec 12) : State :=
  let t := temp.toInt
  let warn : Int := 16 * s.f F.DIE_MON.WARN d []
  let s0 := s.setF F.DIE_MON.RAILOK d [] ((s.die d).railsOut.foldl (fun n r => n &&& (63 - 2 ^ r.bit)) 63)
  let s1 := s0.setF F.DIE_TEMP.TEMP d [] temp.toNat
  let s2 := if warn ≤ t ∧ (s.die d).thermArmed = true then
      ((s1.raise F.DIE_MON.THWARN d []).event 0x25 d 2 [d, temp.toNat]).setDie d { s1.die d with thermArmed := false }
    else if t ≤ warn - 80 then s1.setDie d { s1.die d with thermArmed := true } else s1
  if 1840 ≤ t then (s2.stopDie d).performAll else s2

/-- CONCEAL (R452): what was concealed since the last tick. -/
def State.concealTick (s : State) (d : Nat) : State :=
  let x := s.die d
  if x.concS = 0 ∧ x.concB = 0 then s else (s.event 4 d 0 [x.concS, x.concB]).setDie d { x with concS := 0, concB := 0 }

/-- A host port in the step at cycles 1,280 to 1,535 (R434, R437, R438, R451), and its record rings, whose entries are of the frame that begins (R457). -/
def State.hostTick (s : State) (k : Nat) : State :=
  let s1 := (s.spreadEvents.writeEvents k).statusPage k
  let s2 := if s1.doorbellDue k then (s1.emit k (.doorbellRead (s1.hostAddr .HPT_DBBASE_LO .HPT_DBBASE_HI k))).updPort k (fun x =>
      { x with reading := true, lateRings := [] }) else s1.playRings k
  s2.recordRings k

/-- That step of a round, once every die that runs has made its tick: every completion and entry due at the tick is then written (R438). -/
def State.hostStep (s : State) : State :=
  if s.pkg.rounds ≤ s.pkg.hosted ∨ s.liveDies.all (fun d => decide (s.pkg.rounds ≤ (s.die d).ticks)) = false then s
  else ([0, 1].filter s.live).foldl State.hostTick { s with pkg := { s.pkg with hosted := s.pkg.rounds } }

/-- The phase error after a tick: measured against the PTP epoch where that is the reference, stepped away in BOOT, and steered by at most 100 ppm of
the frame unless the DCO holds its last frequency (R61, R62, R63). An error that is left when PHASE turns to another reference or to free is still
steered away (DESIGN CHOICE, log entry 178). -/
def State.steer (s : State) (inp : TickIn) (fper : Nat) : Int :=
  let most : Int := 25 * 2 ^ fper
  let ptp := decide (s.f F.TCK_CTL.PHASE 0 [] = 2)
  let e := if ptp then inp.ptpPhase else s.pkg.phaseErr
  if ptp = true ∧ s.pkgState = 1 then 0
  else if s.f F.TCK_STAT.HOLDOVER (s.liveDies.headD 0) [] = 1 then e
  else if e < 0 then min 0 (e + most) else max 0 (e - most)

/-- What the first tick of a round samples for the package (R54, R58, R96). -/
def State.sampleTick (s : State) (inp : TickIn) : State :=
  let pair (lo hi : Nat) : Nat := hi * 4294967296 + lo
  let fn := if s.f F.TCK_CTL.FNLD 0 [] = 1 ∧ s.pkgState = 2 ∧ s.f F.PKG_SWAP.ARMED 0 [] = 0 then
      some (pair (s.f F.TCK_FNSET_LO.FNSET_LO 0 []) (s.f F.TCK_FNSET_HI.FNSET_HI 0 [])) else none
  let tod := if s.f F.TCK_CTL.TODLD 0 [] = 1 then some (s.reg .TCK_TODSET 0 [], s.reg .TCK_DATESET 0 []) else none
  let s1 := (s.setF F.TCK_CTL.FNLD 0 [] 0).setF F.TCK_CTL.TODLD 0 [] 0
  let fper := s.fa F.TCK_FRAME.FPER 0 []
  { s1 with pkg := { s1.pkg with rounds := s1.pkg.rounds + 1, stateWas := s1.pkgState, fperWas := fper, ldFn := fn, ldTod := tod, src := s.f F.TCK_CTL.SRC 0 [],
                                 phaseErr := s.steer inp fper } }

/-- The die that drives the clock outputs: FD0, and FD1 from the tick at which FD0 is declared lost; until then none (R595). -/
def State.clockDriver (s : State) : Option Nat :=
  if s.live 0 then some 0 else if s.lost 0 && s.live 1 then some 1 else none

/-- The clock outputs of a round: one pulse of TICK_OUT (R63); PPS_OUT is high for the 100 ms from each media-clock sample whose MSC is a
multiple of the sample rate, and MCLK_OUT runs from the first tick of EARLY on (R596). `d` ticks with MSC set. With no driver the pins are at high
impedance (R595). -/
def State.clockOut (s : State) (d : Nat) : State :=
  let rate := if s.f F.TCK_CTL.RATE 0 [] = 1 then 96000 else 48000
  let msc := (s.die d).msc
  let len := 12 * 2 ^ (s.fa F.TCK_FRAME.FPER 0 [] + s.f F.TCK_CTL.RATE 0 [])
  let (high, edges) := (List.range len).foldl (fun (p : Bool × List (Nat × Bool)) i =>
    let on := decide ((msc + i) % rate < rate / 10)
    if on = p.1 then p else (on, p.2 ++ [(msc + i, on)])) (s.pkg.ppsHigh, [])
  match s.clockDriver with
  | none => { s with pkg := { s.pkg with ppsHigh := false } }
  | some k => { s with pkg := { s.pkg with tickOut := s.pkg.tickOut ++ [k], ppsHigh := high, ppsEdges := s.pkg.ppsEdges ++ edges,
                                           mclkOut := s.pkg.mclkOut || decide (s.pkgState = 2) } }

/-- PKG_STATE after a boot or a recovery (R557). -/
def State.bootTick (s : State) : State :=
  match s.pkg.boot.stage with
  | .enter n => { s with pkg := { s.pkg with boot := { s.pkg.boot with stage := .idle } } }.enterState n
  | _ => s

/-- Cycles 0 to 511 of a tick: the package's part first when the round begins (R58, R385, R413). -/
def State.tickStart (s : State) (d : Nat) (inp : TickIn) (own first : Bool) : State :=
  let s0 := if first then ([0, 1].filter s.live).foldl State.portTick s else s
  let s1 := if first then (s0.sampleTick inp).bootTick else s0
  let s2 := ((s1.spineTick d).countTick d inp s1.pkg.fperWas).clockTick d inp own
  let s3 := ((s2.presenceTick d).clearTick d).releaseTick d
  let s4 := s3.takeovers d
  let s5 := if first then s4.authTick else s4
  let s6 := s5.keyTick d
  let s7 := (if first then s6.copyStart else s6).handoverTick d first
  let s8 := (s7.swapTick d first).chooseSpares d
  let s9 := (List.range 64).foldl (fun t e => t.powerTick d e) s8
  let s10 := ((s9.repairTick d).fuseTick d).tmuTick d inp.pins
  let s11 := (List.range 64).foldl (fun t e => t.engTick d e) s10
  let s12 := if first then s11.clockOut d else s11
  s12.leafTick d

/-- The tick of die d ends a swap that began with `was` armed: its first tick completes SWAP_ARM (R416). -/
def State.swapEnd (s : State) (was : Option Nat) (d : Nat) (first : Bool) : State :=
  if first = true ∧ was = some (s.fn d) then s.swapComplete (s.fn d) else s

/-- Cycles 512 to 1,279: ports of the frame that begins, queue commit, report queue, record rings, collars, tally and audit. -/
def State.tickQueues (s : State) (d : Nat) (inp : TickIn) (oldA oldS : Store FlowP) : State :=
  let lock := decide (inp.lock = 2)
  let s1 := s.finTick d
  let s2 := ([0, 1].foldl (fun t k => (t.linkTick d k).ptpLock d k lock) s1)
  let s3 := [0, 1, 2, 3].foldl (fun t k => t.tdmTick d k) s2
  let handed := match s3.pkg.early with
    | some e => decide (e.t = s3.fn d)
    | none => false
  let s4 := s3.flowCommit d oldA oldS
  let s5 := (if d < 2 then s4.triggerTick d handed else s4).queueCommit d
  let s6 := (s5.reportTick d).auditStep d
  ((s6.refillCollars d).tallyCheck d).egressPorts d

/-- The last step of the commit phase (R58, R95, R438, R601). -/
def State.tickEnd (s : State) (d : Nat) (inp : TickIn) (first : Bool) (was : Option Nat) : State :=
  let fn := s.fn d
  let s1 := s.todTick d (decide ((s.die d).ticks = 1)) s.pkg.fperWas
  let s2 := s1.spineFlood d .presence
  let s3 := if d < 2 then (if s2.pkgState = 2 then ((s2.mixTick d).playersTick d).inputsTick d else s2).panelTick d else s2
  let s4 := (if first then s3.testTick d else s3).tallyBegin d
  let flow (k : WaitKind) : Bool := match k with | .flow i _ => decide (i = d) | _ => false
  let s5 := s4.finish flow .done (fun k => match k with | .flow _ r => r | _ => 0) fn
  let s6 := s5.finish (fun k => decide (k = .leaf d ∨ k = .key d)) .done (fun _ => 0) fn
  let s7 := s6.swapEnd was d first
  let s8 := s7.hostStep
  let s9 := s8.setDie d { s8.die d with phase := .work, heel := none, scrubAge := (s8.die d).scrubAge + s8.f F.DIE_SCRUB.EN d [] }
  let s10 := s9.tempTick d inp.temp
  if s10.live d then (s10.readRows d).performAll else s10

/-- The last cycle of a die's frame: what has not landed is aborted, and what was concealed in the frame is reported (R92, R450, R452). -/
def State.frameEnd (s : State) (d : Nat) : State :=
  ((List.range 64).foldl (fun t e => t.lastCycle d e) s).concealTick d

/-- The whole commit phase of one die's tick, after the last cycle of the frame that ends. -/
def State.fireTick (s : State) (d : Nat) (inp : TickIn) (own : Bool) : State :=
  let first := decide (s.pkg.rounds ≤ (s.die d).ticks)
  let was := (s.die d).armT
  ((((if first then s.hostStep else s).frameEnd d).tickStart d inp own first).tickQueues d inp s.flA s.flS).tickEnd d inp first was

/-- A die may tick: it runs, its guard has begun, no other die is a tick behind it (R64: ticks lie within a few cycles), and the commands that a port took in the
frame have been processed in it (R440). -/
def State.tickReady (s : State) (d : Nat) : Bool :=
  s.live d && decide ((s.die d).phase = .guard) && decide (s.pkgState ≠ 0) && ([0, 1].filter s.live).all (fun k => (s.port k).taken.isEmpty) &&
    s.liveDies.all (fun i => decide ((s.die d).ticks ≤ (s.die i).ticks))

/-- TICK (R58, R64): the tick that a heel scheduled fires. -/
def execTick (die : DieNo) (inp : TickIn) (s : State) : Host.Outcome State Fault Refusal :=
  if s.tickReady die.val = false ∨ (s.die die.val).heel = none then .next s
  else .next (s.fireTick die.val inp false)

/-- FLYWHEEL_TICK (R65, R66): no heel has come, and the tick fires from the die's own count. -/
def execFlywheelTick (die : DieNo) (inp : TickIn) (s : State) : Host.Outcome State Fault Refusal :=
  if s.tickReady die.val = false ∨ (s.die die.val).heel ≠ none then .next s
  else .next (s.fireTick die.val inp true)

/-! ### The discipline source (R63) -/

/-- DISCIPLINE_SOURCE_LOST (R63): holdover. -/
def execDisciplineSourceLost (s : State) : Host.Outcome State Fault Refusal :=
  if s.pkg.src = 0 then .next s
  else .next ((s.liveDies.foldl (fun t d => (t.raise F.TCK_STAT.HOLDOVER d []).raise F.TCK_STAT.SRCLOST d []) s).event 0x23 255 2 [])

/-- DISCIPLINE_SOURCE_RETURN (R63): the part leaves holdover and relocks by steering. -/
def execDisciplineSourceReturn (s : State) : Host.Outcome State Fault Refusal :=
  .next (s.liveDies.foldl (fun t d => (t.setF F.TCK_STAT.HOLDOVER d [] 0).setF F.TCK_STAT.LOCK d [] 1) s)

/-! ### The guard (R60, R90, R92, R412, R471) -/

/-- An engine at the first cycle of the guard: what has not reached FEND is stopped (R90, R92). -/
def State.engGuard (s : State) (d e : Nat) : State :=
  let x := s.eng d e
  let s0 := s.setF F.ENG_STAT.ST d [e] (x.stWord.toNat % 512)
  let s1 := match x.run with
    | .folio i _ => if x.fend then s0 else s0.overrunAt d e i
    | .idle => s0.abort d e
    | .none => match x.redo with
      | some i => s0.overrunAt d e i
      | none => s0
  if s1.f F.ENG_STAT.PWR d [e] = 0 ∨ s1.f F.ENG_FSTAT.SEQ d [e] = 5 then s1 else s1.setF F.ENG_FSTAT.SEQ d [e] 4

/-- GUARD_START (R60, R90, R412, R471); a doorbell read that has not completed has failed (R436). -/
def execGuardStart (die : DieNo) (s : State) : Host.Outcome State Fault Refusal :=
  let d := die.val
  if s.live d = false ∨ (s.die d).phase ≠ .work then .next s
  else
    let s0 := if d < 2 ∧ (s.port d).reading = true then (s.doorbellFail d).afterDoorbell d else s
    let s1 := (List.range 64).foldl (fun t e => t.engGuard d e) s0
    let s2 := (s1.closePorts d).swapDecision d
    .next (s2.setDie d { s2.die d with phase := .guard })

end Sys2Proof.Machine
end

