-- ==== Sys2Proof/Machine/Power.lean ====
section
/-! DEFINITION. RESET_N, the supply rails, SVN programming, the phase reference pin and the test access port (R62, R557, R559,
R586, R597 to R600, R610, R611). -/

namespace Sys2Proof.Machine

/-! ### Fuse records cut short (R611) -/

/-- Programming of a field record is cut short: the record is whole or invalid, which is free; an invalid one is counted as used. -/
def State.cutRecord (s : State) (d : Nat) : State :=
  match (s.die d).progEntry with
  | none => s
  | some (_, v) =>
    let s1 := (s.setF F.REP_STAT.PROG d [] 0).setDie d { s.die d with progEntry := none }
    match (List.range 16).find? (fun k => decide (s.f F.REP_FIELD.V d [k] = 0) && !s.pkg.badFuse.contains (16 * d + k)) with
    | none => s1
    | some k =>
      let s2 := (s1.setF F.REP_STAT.FREE d [] (s.f F.REP_STAT.FREE d [] - 1)).useFree 1
      if freeNat 2 s.fresh = 1 then s2.setReg .REP_FIELD d [k] v
      else { s2 with pkg := { s2.pkg with badFuse := s2.pkg.badFuse ++ [16 * d + k] } }

/-- PKG_SVNUP is cut short: the new minimum stands only if it was programmed on both dies, which is free. -/
def State.cutSvn (s : State) : State :=
  if s.f F.PKG_SVNUP.GO 0 [] = 0 then s
  else
    let s1 := (s.setF F.PKG_SVNUP.GO 0 [] 0).useFree 1
    if freeNat 2 s.fresh = 1 then s1.setReg .PKG_SVNMIN 0 [] (s.reg .PKG_SVN 0 []) else s1

/-- SVN_PROGRAM_END (R586, R611): GO returns to 0; PKG_SVNMIN changes when both dies were programmed. -/
def execSvnProgramEnd (ok0 ok1 : Bool) (s : State) : Host.Outcome State Fault Refusal :=
  if s.f F.PKG_SVNUP.GO 0 [] = 0 then .next s
  else
    let s1 := s.setF F.PKG_SVNUP.GO 0 [] 0
    .next (if ok0 && ok1 then s1.setReg .PKG_SVNMIN 0 [] (s.reg .PKG_SVN 0 []) else s1)

/-! ### Test access port (R610) -/

/-- Cells of the boundary register: 88 for FD0, 61 for FD1, 36 for each further die. -/
def State.cells (s : State) : Nat := 77 + 36 * s.variant.dies

/-- The device identification. -/
def State.idcode (s : State) : W32 :=
  let v := match s.variant with | .dxd2064 => 0x2064 | .dxd4064 => 0x4064 | .dxd6064 => 0x6064 | .dxd8064 => 0x8064
  BitVec.ofNat 32 (s.stepping.toNat * 268435456 + v * 4096 + 0x56C * 2 + 1)

/-- The pins under an instruction: taken only while RESET_N is low. -/
def tapPins (low : Bool) (ir : TapIr) : PinCtl :=
  if low = false then .service
  else match ir with | .extest | .clamp => .boundary | .highz => .highz | _ => .service

/-- Whether an instruction selects the boundary register. -/
def tapScan (low : Bool) (ir : TapIr) : Bool := match ir with | .sample => true | .extest => low | _ => false

/-- An instruction is selected: its data register, the sampled cells being free values, and the pins. -/
def State.tapSelect (s : State) (ir : TapIr) : State :=
  let n := s.cells
  if tapScan s.pkg.resetLow ir then
    { s with pkg := { s.pkg with tap := ⟨ir, (List.range n).map (fun i => decide (freeNat 2 (s.fresh + i) = 1)), tapPins s.pkg.resetLow ir⟩ } }.useFree n
  else
    let dr := match ir with
      | .idcode => (List.range 32).map s.idcode.getLsbD
      | _ => [false]
    { s with pkg := { s.pkg with tap := ⟨ir, dr, tapPins s.pkg.resetLow ir⟩ } }

/-- BYPASS (R610). -/
def execBypass (s : State) : Host.Outcome State Fault Refusal := .next (s.tapSelect .bypass)

/-- IDCODE (R610). -/
def execIdcode (s : State) : Host.Outcome State Fault Refusal := .next (s.tapSelect .idcode)

/-- SAMPLE/PRELOAD (R610). -/
def execSamplePreload (s : State) : Host.Outcome State Fault Refusal := .next (s.tapSelect .sample)

/-- EXTEST (R610). -/
def execExtest (s : State) : Host.Outcome State Fault Refusal := .next (s.tapSelect .extest)

/-- CLAMP (R610). -/
def execClamp (s : State) : Host.Outcome State Fault Refusal := .next (s.tapSelect .clamp)

/-- HIGHZ (R610). -/
def execHighz (s : State) : Host.Outcome State Fault Refusal := .next (s.tapSelect .highz)

/-- TAP_RESET (R610). -/
def execTapReset (s : State) : Host.Outcome State Fault Refusal := .next (s.tapSelect .idcode)

/-! ### RESET_N (R557, R559, R611) -/

/-- OFF: every die stops, and programming is cut short. -/
def State.off (s : State) : State :=
  let s1 := ((List.range 8).filter s.populated).foldl (fun t d => t.cutRecord d) s.cutSvn
  let s2 := if s1.pkgState = 0 then s1 else s1.enterState 0
  let s3 := ((List.range 8).filter s.populated).foldl (fun t d =>
    ((t.haltDie d).setDie d { (t.haltDie d).die d with stopped := true }).setF F.PNL_STAT.IRQ d [] 0) s2
  { s3 with pkg := { s3.pkg with boot := { s3.pkg.boot with stage := .off }, ppsHigh := false, mclkOut := false } }

/-- RESET_ASSERT (R557). -/
def execResetAssert (s : State) : Host.Outcome State Fault Refusal :=
  if s.pkg.resetLow then .next s
  else
    let s1 := s.off
    let t := s1.pkg.tap
    .next { s1 with pkg := { s1.pkg with resetLow := true, tap := { t with pins := tapPins true t.ir } } }

/-- The registers that fuses hold: repair records and counts, key fuses and the minimum SVN. -/
def fuseRegs : List (RegName × Nat × List Nat) :=
  (RegName.PKG_SVNMIN, 0, []) :: (List.range 8).flatMap (fun d =>
    (RegName.REP_STAT, d, []) :: (RegName.SEC_STAT, d, []) :: (List.range 16).map (fun k => (RegName.REP_FIELD, d, [k])))

/-- The machine at reset release: the reset state with this part's fuses, its test access port and its waiting commands (R559). -/
def State.released (s : State) : State :=
  let s0 : State := { State.reset with pending := s.pending, fresh := s.fresh, variant := s.variant, stepping := s.stepping }
  let s1 := fuseRegs.foldl (fun t (r, d, i) => if s.populated d then t.setReg r d i (s.reg r d i) else t) s0
  let s2 := ((List.range 8).filter s.populated).foldl (fun t d => (t.setF F.REP_STAT.SOFTN d [] 0).setF F.REP_STAT.PROG d [] 0) s1
  { s2 with pkg := { s2.pkg with keyHash := s.pkg.keyHash, badFuse := s.pkg.badFuse, tap := { s.pkg.tap with pins := .service } } }

/-- Every supply is in its range (R557). -/
def State.railsOk (s : State) : Bool :=
  (List.range 8).all (fun d => !s.populated d || ((s.die d).trips.isEmpty && (s.die d).railsOut.isEmpty))

/-- RESET_RELEASE (R557, R559): PKG_STATE goes from OFF to BOOT, with its event; with a supply out of its range the part stays in OFF, until RESET_N is
released again (DESIGN CHOICE, log entry 185). -/
def execResetRelease (s : State) : Host.Outcome State Fault Refusal :=
  if s.pkg.resetLow = false then .next s
  else if s.railsOk then .next s.released
  else .next { s with pkg := { s.pkg with resetLow := false, tap := { s.pkg.tap with pins := .service } } }

/-! ### Rails (R599, R600) -/

/-- A rail of the die is beyond a trip limit at this moment (R599). -/
def Die.tripped (x : Die) : Bool := !x.trips.isEmpty

/-- RAIL_TRIP (R599): the die stops; with every die that is not lost tripped at the same moment, the part goes to OFF. -/
def execRailTrip (die : DieNo) (rail : Rail) (s : State) : Host.Outcome State Fault Refusal :=
  let d := die.val
  if s.populated d = false then .fault .noSuchObject
  else if s.pkgState = 0 ∨ rail ∈ (s.die d).trips then .next s
  else
    let s1 := s.setDie d { s.die d with trips := (s.die d).trips ++ [rail] }
    let all := (List.range 8).all (fun i => !s.populated i || s.lost i || (s1.die i).tripped)
    if all then .next s1.off
    else if (s.die d).stopped then .next s1
    else .next ((s1.cutRecord d).stopDie d).performAll

/-- RAIL_WARNING (R600): once for each excursion. -/
def execRailWarning (die : DieNo) (rail : Rail) (s : State) : Host.Outcome State Fault Refusal :=
  let d := die.val
  if s.live d = false ∨ rail ∈ (s.die d).railsOut then .next s
  else
    let v := s.reg .DIE_MON d [] &&& ~~~(BitVec.twoPow 32 rail.bit)
    let s0 := s.setDie d { s.die d with railsOut := (s.die d).railsOut ++ [rail] }
    let s1 := (s0.setReg .DIE_MON d [] v).raise F.DIE_MON.RAILWARN d []
    .next (s1.event 0x26 d 2 [d, s1.f F.DIE_MON.RAILOK d []])

/-- RAIL_RETURN (R599, R600): the rail is in its operating range again, and so is no longer beyond its trip limit; its bit of RAILOK becomes 1
on a die that runs. -/
def execRailReturn (die : DieNo) (rail : Rail) (s : State) : Host.Outcome State Fault Refusal :=
  let d := die.val
  let x := s.die d
  let s1 := if x.trips.contains rail || x.railsOut.contains rail then
      s.setDie d { x with trips := x.trips.filter (fun r => decide (r ≠ rail)), railsOut := x.railsOut.filter (fun r => decide (r ≠ rail)) }
    else s
  if s.live d = false then .next s1
  else .next (s1.setReg .DIE_MON d [] (s.reg .DIE_MON d [] ||| BitVec.twoPow 32 rail.bit))

/-! ### TICK_IN (R61 to R63) -/

/-- TICK_IN_EDGE (R62, R63): in BOOT the tick phase steps to the edge at once; in every other state the distance of the edge from
the expected tick, in cycles, is an error to steer away. -/
def execTickInEdge (phase : Int) (s : State) : Host.Outcome State Fault Refusal :=
  if s.pkgState = 0 then .next s
  else if s.f F.TCK_CTL.PHASE 0 [] ≠ 1 then .next s
  else .next { s with pkg := { s.pkg with phaseErr := if s.pkgState = 1 then 0 else phase } }

end Sys2Proof.Machine
end

