-- ==== Sys2Proof/Machine/Dispatch.lean ====
section
/-! DEFINITION. The dispatch: one arm per command, each one direct call of its meaning. -/

namespace Sys2Proof.Machine

/-- The effect of a command on everything but the queue. -/
def exec (i : Instr) (s : State) : Host.Outcome State Fault Refusal :=
  match i with
  | .registerWrite src space addr val be => Sys2Proof.Machine.execRegisterWrite src space addr val be s
  | .unpopulatedWindowAccess src space addr write val be => Sys2Proof.Machine.execUnpopulatedWindowAccess src space addr write val be s
  | .spineMessageReceive die dir good => Sys2Proof.Machine.execSpineMessageReceive die dir good s
  | .spineRestore src die val => Sys2Proof.Machine.execSpineRestore src die val s
  | .spineTrainingEnd die dir ok => Sys2Proof.Machine.execSpineTrainingEnd die dir ok s
  | .heelSend die => Sys2Proof.Machine.execHeelSend die s
  | .heelReceive die dir good => Sys2Proof.Machine.execHeelReceive die dir good s
  | .tick die inp => Sys2Proof.Machine.execTick die inp s
  | .flywheelTick die inp => Sys2Proof.Machine.execFlywheelTick die inp s
  | .disciplineSourceLost => Sys2Proof.Machine.execDisciplineSourceLost s
  | .disciplineSourceReturn => Sys2Proof.Machine.execDisciplineSourceReturn s
  | .fnLoad src die val => Sys2Proof.Machine.execFnLoad src die val s
  | .todLoad src die val => Sys2Proof.Machine.execTodLoad src die val s
  | .counterClear src die blk val => Sys2Proof.Machine.execCounterClear src die blk val s
  | .constantRegionLoad die e j => Sys2Proof.Machine.execConstantRegionLoad die e j s
  | .folioStart die e => Sys2Proof.Machine.execFolioStart die e s
  | .folioReplay die e => Sys2Proof.Machine.execFolioReplay die e s
  | .idleFolioStart die e => Sys2Proof.Machine.execIdleFolioStart die e s
  | .budgetExceeded die e => Sys2Proof.Machine.execBudgetExceeded die e s
  | .guardStart die => Sys2Proof.Machine.execGuardStart die s
  | .fendCommit die e => Sys2Proof.Machine.execFendCommit die e s
  | .interruptEntry die e spent => Sys2Proof.Machine.execInterruptEntry die e spent s
  | .farLoadReturn die e data cycles => Sys2Proof.Machine.execFarLoadReturn die e data cycles s
  | .transferComplete die e tag => Sys2Proof.Machine.execTransferComplete die e tag s
  | .farStoreLand die e n => Sys2Proof.Machine.execFarStoreLand die e n s
  | .pmwLand die e => Sys2Proof.Machine.execPmwLand die e s
  | .takeover die n => Sys2Proof.Machine.execTakeover die n s
  | .dieRelease src die val => Sys2Proof.Machine.execDieRelease src die val s
  | .dieStop die cause => Sys2Proof.Machine.execDieStop die cause s
  | .dieLossDeclaration lost => Sys2Proof.Machine.execDieLossDeclaration lost s
  | .scrubRead die test target => Sys2Proof.Machine.execScrubRead die test target s
  | .fuseProgrammingEnd die ok => Sys2Proof.Machine.execFuseProgrammingEnd die ok s
  | .enginePowerOff src die e val => Sys2Proof.Machine.execEnginePowerOff src die e val s
  | .engineWake src die e val => Sys2Proof.Machine.execEngineWake src die e val s
  | .engineClearEnd die e => Sys2Proof.Machine.execEngineClearEnd die e s
  | .ownerHandover src die bank val => Sys2Proof.Machine.execOwnerHandover src die bank val s
  | .handoverDrainEnd die bank => Sys2Proof.Machine.execHandoverDrainEnd die bank s
  | .handoverTimeout die bank => Sys2Proof.Machine.execHandoverTimeout die bank s
  | .bankPowerRequest src die bank val => Sys2Proof.Machine.execBankPowerRequest src die bank val s
  | .bankWakeEnd die bank => Sys2Proof.Machine.execBankWakeEnd die bank s
  | .twinEnable src die bank val => Sys2Proof.Machine.execTwinEnable src die bank val s
  | .twinCopyEnd die bank => Sys2Proof.Machine.execTwinCopyEnd die bank s
  | .twinReadReturn die bank word => Sys2Proof.Machine.execTwinReadReturn die bank word s
  | .crossDieSend die dst => Sys2Proof.Machine.execCrossDieSend die dst s
  | .blockPlacement die => Sys2Proof.Machine.execBlockPlacement die s
  | .placementAckReceive die => Sys2Proof.Machine.execPlacementAckReceive die s
  | .creditMessageReceive die => Sys2Proof.Machine.execCreditMessageReceive die s
  | .auditStart src die val => Sys2Proof.Machine.execAuditStart src die val s
  | .auditEnd die => Sys2Proof.Machine.execAuditEnd die s
  | .auditCopy die => Sys2Proof.Machine.execAuditCopy die s
  | .shadowCopy src val => Sys2Proof.Machine.execShadowCopy src val s
  | .shadowCopyEnd => Sys2Proof.Machine.execShadowCopyEnd s
  | .swapCrc die => Sys2Proof.Machine.execSwapCrc die s
  | .swapVote die => Sys2Proof.Machine.execSwapVote die s
  | .swapDecisionReceive die => Sys2Proof.Machine.execSwapDecisionReceive die s
  | .handoverEarlyExchange => Sys2Proof.Machine.execHandoverEarlyExchange s
  | .handoverEnd => Sys2Proof.Machine.execHandoverEnd s
  | .hostPortReset port linkDown => Sys2Proof.Machine.execHostPortReset port linkDown s
  | .ringEnable src port ring val => Sys2Proof.Machine.execRingEnable src port ring val s
  | .ringDisable src port ring val => Sys2Proof.Machine.execRingDisable src port ring val s
  | .doorbellReadComplete port ok heart slots => Sys2Proof.Machine.execDoorbellReadComplete port ok heart slots s
  | .doorbellReadTimeout port => Sys2Proof.Machine.execDoorbellReadTimeout port s
  | .slowPathTransmit port ring pkt => Sys2Proof.Machine.execSlowPathTransmit port ring pkt s
  | .authClaim src val => Sys2Proof.Machine.execAuthClaim src val s
  | .authRelease src val => Sys2Proof.Machine.execAuthRelease src val s
  | .leaseLapse => Sys2Proof.Machine.execLeaseLapse s
  | .cfgWrite desc readBad pairs => Sys2Proof.Machine.execCfgWrite desc readBad pairs s
  | .codeLoad desc readBad eng first count image => Sys2Proof.Machine.execCodeLoad desc readBad eng first count image s
  | .leafInit desc readBad leaf eng entry recto verso len image => Sys2Proof.Machine.execLeafInit desc readBad leaf eng entry recto verso len image s
  | .flowOpen desc words qp => Sys2Proof.Machine.execFlowOpen desc words qp s
  | .flowClose desc fid => Sys2Proof.Machine.execFlowClose desc fid s
  | .flowModContext desc fid words => Sys2Proof.Machine.execFlowModContext desc fid words s
  | .flowModQueue desc fid words qidx qp => Sys2Proof.Machine.execFlowModQueue desc fid words qidx qp s
  | .swapArm desc t crcs => Sys2Proof.Machine.execSwapArm desc t crcs s
  | .swapCancel desc => Sys2Proof.Machine.execSwapCancel desc s
  | .queryRegisters desc addr count => Sys2Proof.Machine.execQueryRegisters desc addr count s
  | .queryFlow desc fid => Sys2Proof.Machine.execQueryFlow desc fid s
  | .queryQueue desc queue => Sys2Proof.Machine.execQueryQueue desc queue s
  | .queryTally desc => Sys2Proof.Machine.execQueryTally desc s
  | .repair desc entry => Sys2Proof.Machine.execRepair desc entry s
  | .scrubFull desc => Sys2Proof.Machine.execScrubFull desc s
  | .scrubRange desc pa words => Sys2Proof.Machine.execScrubRange desc pa words s
  | .testStart desc mask dur => Sys2Proof.Machine.execTestStart desc mask dur s
  | .keyLoad desc readBad slot type len blob => Sys2Proof.Machine.execKeyLoad desc readBad slot type len blob s
  | .keyErase desc slot => Sys2Proof.Machine.execKeyErase desc slot s
  | .audit desc => Sys2Proof.Machine.execAudit desc s
  | .linkEnable src die k val => Sys2Proof.Machine.execLinkEnable src die k val s
  | .linkDisable src die k val => Sys2Proof.Machine.execLinkDisable src die k val s
  | .linkUp die k => Sys2Proof.Machine.execLinkUp die k s
  | .linkDown die k remote => Sys2Proof.Machine.execLinkDown die k remote s
  | .ethFrameReceive die k frame => Sys2Proof.Machine.execEthFrameReceive die k frame s
  | .ptpDelayReqSend die k time => Sys2Proof.Machine.execPtpDelayReqSend die k time s
  | .ptpPdelayReqSend die k time => Sys2Proof.Machine.execPtpPdelayReqSend die k time s
  | .ptpLoss die k => Sys2Proof.Machine.execPtpLoss die k s
  | .ptpGrandmasterSet src die k g0 g1 g2 => Sys2Proof.Machine.execPtpGrandmasterSet src die k g0 g1 g2 s
  | .streamPacketSend die k n early late => Sys2Proof.Machine.execStreamPacketSend die k n early late s
  | .finRingEnable src die val => Sys2Proof.Machine.execFinRingEnable src die val s
  | .finTrainStart die dirB delay => Sys2Proof.Machine.execFinTrainStart die dirB delay s
  | .finSlotReceive die slot good old => Sys2Proof.Machine.execFinSlotReceive die slot good old s
  | .degUpdate die => Sys2Proof.Machine.execDegUpdate die s
  | .finAdmit src die val => Sys2Proof.Machine.execFinAdmit src die val s
  | .tdmEnable src die k val => Sys2Proof.Machine.execTdmEnable src die k val s
  | .tdmInputSlot die k slot pos slip word => Sys2Proof.Machine.execTdmInputSlot die k slot pos slip word s
  | .tdmOutputSlot die k slot pos slip => Sys2Proof.Machine.execTdmOutputSlot die k slot pos slip s
  | .tdmFsLoss die k => Sys2Proof.Machine.execTdmFsLoss die k s
  | .tmuStart src die c val => Sys2Proof.Machine.execTmuStart src die c val s
  | .tmuStop src die c val => Sys2Proof.Machine.execTmuStop src die c val s
  | .tmuWideCommit src die c which val => Sys2Proof.Machine.execTmuWideCommit src die c which val s
  | .tmuCountClock die c src level => Sys2Proof.Machine.execTmuCountClock die c src level s
  | .tmuCapture die c pin rising => Sys2Proof.Machine.execTmuCapture die c pin rising s
  | .testEnd => Sys2Proof.Machine.execTestEnd s
  | .selftestSlotEnd die e => Sys2Proof.Machine.execSelftestSlotEnd die e s
  | .resetAssert => Sys2Proof.Machine.execResetAssert s
  | .resetRelease => Sys2Proof.Machine.execResetRelease s
  | .bootSelftestEnd ok0 ok1 => Sys2Proof.Machine.execBootSelftestEnd ok0 ok1 s
  | .endpaperHeaderRead bytes => Sys2Proof.Machine.execEndpaperHeaderRead bytes s
  | .endpaperPayloadReadEnd payload => Sys2Proof.Machine.execEndpaperPayloadReadEnd payload s
  | .recoveryLoad src val image => Sys2Proof.Machine.execRecoveryLoad src val image s
  | .panelNop k frame => Sys2Proof.Machine.execPanelNop k frame s
  | .panelRead k frame clash => Sys2Proof.Machine.execPanelRead k frame clash s
  | .panelWrite k frame clash => Sys2Proof.Machine.execPanelWrite k frame clash s
  | .panelTrigger k frame late => Sys2Proof.Machine.execPanelTrigger k frame late s
  | .panelKick k frame => Sys2Proof.Machine.execPanelKick k frame s
  | .panelAck k frame => Sys2Proof.Machine.execPanelAck k frame s
  | .panelWatchdogExpire k => Sys2Proof.Machine.execPanelWatchdogExpire k s
  | .triggerStart die k word => Sys2Proof.Machine.execTriggerStart die k word s
  | .triggerLoop die k word => Sys2Proof.Machine.execTriggerLoop die k word s
  | .triggerStop die k word => Sys2Proof.Machine.execTriggerStop die k word s
  | .triggerLiveOn die k word => Sys2Proof.Machine.execTriggerLiveOn die k word s
  | .triggerLiveOff die k word => Sys2Proof.Machine.execTriggerLiveOff die k word s
  | .triggerStopAll die k word => Sys2Proof.Machine.execTriggerStopAll die k word s
  | .svnUpdate src val => Sys2Proof.Machine.execSvnUpdate src val s
  | .svnProgramEnd ok0 ok1 => Sys2Proof.Machine.execSvnProgramEnd ok0 ok1 s
  | .railTrip die rail => Sys2Proof.Machine.execRailTrip die rail s
  | .railWarning die rail => Sys2Proof.Machine.execRailWarning die rail s
  | .bypass => Sys2Proof.Machine.execBypass s
  | .idcode => Sys2Proof.Machine.execIdcode s
  | .samplePreload => Sys2Proof.Machine.execSamplePreload s
  | .extest => Sys2Proof.Machine.execExtest s
  | .clamp => Sys2Proof.Machine.execClamp s
  | .highz => Sys2Proof.Machine.execHighz s
  | .nop at_ => Sys2Proof.Machine.execNop at_ s
  | .ld at_ d imm => Sys2Proof.Machine.execLd at_ d imm s
  | .ldD at_ d imm => Sys2Proof.Machine.execLdD at_ d imm s
  | .st at_ d imm => Sys2Proof.Machine.execSt at_ d imm s
  | .stD at_ d imm => Sys2Proof.Machine.execStD at_ d imm s
  | .ldp at_ d n mode w => Sys2Proof.Machine.execLdp at_ d n mode w s
  | .stp at_ d n mode w => Sys2Proof.Machine.execStp at_ d n mode w s
  | .ldxL at_ d n imm => Sys2Proof.Machine.execLdxL at_ d n imm s
  | .ldxH at_ d n imm => Sys2Proof.Machine.execLdxH at_ d n imm s
  | .stxL at_ d n imm => Sys2Proof.Machine.execStxL at_ d n imm s
  | .stxH at_ d n imm => Sys2Proof.Machine.execStxH at_ d n imm s
  | .ldam at_ d n mode w => Sys2Proof.Machine.execLdam at_ d n mode w s
  | .stam at_ d n mode w => Sys2Proof.Machine.execStam at_ d n mode w s
  | .mvia at_ n imm => Sys2Proof.Machine.execMvia at_ n imm s
  | .addia at_ n imm => Sys2Proof.Machine.execAddia at_ n imm s
  | .mova at_ n d => Sys2Proof.Machine.execMova at_ n d s
  | .movm at_ n d => Sys2Proof.Machine.execMovm at_ n d s
  | .setbs at_ n d => Sys2Proof.Machine.execSetbs at_ n d s
  | .setln at_ n d => Sys2Proof.Machine.execSetln at_ n d s
  | .fetch at_ v n dl tag => Sys2Proof.Machine.execFetch at_ v n dl tag s
  | .stow at_ v n dl tag => Sys2Proof.Machine.execStow at_ v n dl tag s
  | .fetchLf at_ v n dl tag => Sys2Proof.Machine.execFetchLf at_ v n dl tag s
  | .stowLf at_ v n dl tag => Sys2Proof.Machine.execStowLf at_ v n dl tag s
  | .fetchB at_ d n tag => Sys2Proof.Machine.execFetchB at_ d n tag s
  | .stowB at_ d n tag => Sys2Proof.Machine.execStowB at_ d n tag s
  | .ldf at_ d v => Sys2Proof.Machine.execLdf at_ d v s
  | .ldfD at_ d v => Sys2Proof.Machine.execLdfD at_ d v s
  | .stf at_ d v => Sys2Proof.Machine.execStf at_ d v s
  | .stfD at_ d v => Sys2Proof.Machine.execStfD at_ d v s
  | .mpy at_ acd a b => Sys2Proof.Machine.execMpy at_ acd a b s
  | .mac at_ acd a b => Sys2Proof.Machine.execMac at_ acd a b s
  | .msu at_ acd a b => Sys2Proof.Machine.execMsu at_ acd a b s
  | .mpyf at_ acd a b => Sys2Proof.Machine.execMpyf at_ acd a b s
  | .macf at_ acd a b => Sys2Proof.Machine.execMacf at_ acd a b s
  | .msuf at_ acd a b => Sys2Proof.Machine.execMsuf at_ acd a b s
  | .macsu at_ acd a b => Sys2Proof.Machine.execMacsu at_ acd a b s
  | .macuu at_ acd a b => Sys2Proof.Machine.execMacuu at_ acd a b s
  | .mpyQ at_ g a q => Sys2Proof.Machine.execMpyQ at_ g a q s
  | .macQ at_ g a q => Sys2Proof.Machine.execMacQ at_ g a q s
  | .msuQ at_ g a q => Sys2Proof.Machine.execMsuQ at_ g a q s
  | .mpyfQ at_ g a q => Sys2Proof.Machine.execMpyfQ at_ g a q s
  | .macfQ at_ g a q => Sys2Proof.Machine.execMacfQ at_ g a q s
  | .msufQ at_ g a q => Sys2Proof.Machine.execMsufQ at_ g a q s
  | .clra at_ acd => Sys2Proof.Machine.execClra at_ acd s
  | .addac at_ acd acs => Sys2Proof.Machine.execAddac at_ acd acs s
  | .subac at_ acd acs => Sys2Proof.Machine.execSubac at_ acd acs s
  | .shac at_ acd acs imm => Sys2Proof.Machine.execShac at_ acd acs imm s
  | .negac at_ acd acs => Sys2Proof.Machine.execNegac at_ acd acs s
  | .absac at_ acd acs => Sys2Proof.Machine.execAbsac at_ acd acs s
  | .satac at_ acd acs => Sys2Proof.Machine.execSatac at_ acd acs s
  | .rndac at_ acd acs => Sys2Proof.Machine.execRndac at_ acd acs s
  | .mvda at_ acd d => Sys2Proof.Machine.execMvda at_ acd d s
  | .mvdah at_ acd d => Sys2Proof.Machine.execMvdah at_ acd d s
  | .add at_ d a b => Sys2Proof.Machine.execAdd at_ d a b s
  | .addc at_ d a b => Sys2Proof.Machine.execAddc at_ d a b s
  | .sub at_ d a b => Sys2Proof.Machine.execSub at_ d a b s
  | .subb at_ d a b => Sys2Proof.Machine.execSubb at_ d a b s
  | .adds at_ d a b => Sys2Proof.Machine.execAdds at_ d a b s
  | .subs at_ d a b => Sys2Proof.Machine.execSubs at_ d a b s
  | .addi at_ d imm => Sys2Proof.Machine.execAddi at_ d imm s
  | .movi at_ d imm => Sys2Proof.Machine.execMovi at_ d imm s
  | .cmp at_ a b => Sys2Proof.Machine.execCmp at_ a b s
  | .cmpi at_ d imm => Sys2Proof.Machine.execCmpi at_ d imm s
  | .and at_ d a b => Sys2Proof.Machine.execAnd at_ d a b s
  | .or at_ d a b => Sys2Proof.Machine.execOr at_ d a b s
  | .xor at_ d a b => Sys2Proof.Machine.execXor at_ d a b s
  | .andn at_ d a b => Sys2Proof.Machine.execAndn at_ d a b s
  | .unMov at_ d a => Sys2Proof.Machine.execUnMov at_ d a s
  | .unNot at_ d a => Sys2Proof.Machine.execUnNot at_ d a s
  | .unNeg at_ d a => Sys2Proof.Machine.execUnNeg at_ d a s
  | .unAbs at_ d a => Sys2Proof.Machine.execUnAbs at_ d a s
  | .unNegs at_ d a => Sys2Proof.Machine.execUnNegs at_ d a s
  | .unAbss at_ d a => Sys2Proof.Machine.execUnAbss at_ d a s
  | .unCls at_ d a => Sys2Proof.Machine.execUnCls at_ d a s
  | .asr at_ d a b => Sys2Proof.Machine.execAsr at_ d a b s
  | .lsr at_ d a b => Sys2Proof.Machine.execLsr at_ d a b s
  | .shl at_ d a b => Sys2Proof.Machine.execShl at_ d a b s
  | .rol at_ d a b => Sys2Proof.Machine.execRol at_ d a b s
  | .shi at_ d kind amt => Sys2Proof.Machine.execShi at_ d kind amt s
  | .addD at_ v w u => Sys2Proof.Machine.execAddD at_ v w u s
  | .subD at_ v w u => Sys2Proof.Machine.execSubD at_ v w u s
  | .min at_ d a b => Sys2Proof.Machine.execMin at_ d a b s
  | .max at_ d a b => Sys2Proof.Machine.execMax at_ d a b s
  | .mini at_ v a b => Sys2Proof.Machine.execMini at_ v a b s
  | .maxi at_ v a b => Sys2Proof.Machine.execMaxi at_ v a b s
  | .bexp at_ a => Sys2Proof.Machine.execBexp at_ a s
  | .norm at_ d a => Sys2Proof.Machine.execNorm at_ d a s
  | .bxr at_ => Sys2Proof.Machine.execBxr at_ s
  | .mvad at_ d acs part => Sys2Proof.Machine.execMvad at_ d acs part s
  | .dadd at_ d a b => Sys2Proof.Machine.execDadd at_ d a b s
  | .daddc at_ d a b => Sys2Proof.Machine.execDaddc at_ d a b s
  | .dsub at_ d a b => Sys2Proof.Machine.execDsub at_ d a b s
  | .dsubb at_ d a b => Sys2Proof.Machine.execDsubb at_ d a b s
  | .daj at_ d a => Sys2Proof.Machine.execDaj at_ d a s
  | .bset at_ imm => Sys2Proof.Machine.execBset at_ imm s
  | .bclr at_ imm => Sys2Proof.Machine.execBclr at_ imm s
  | .binv at_ imm => Sys2Proof.Machine.execBinv at_ imm s
  | .btst at_ imm => Sys2Proof.Machine.execBtst at_ imm s
  | .bld at_ d a => Sys2Proof.Machine.execBld at_ d a s
  | .bst at_ a b => Sys2Proof.Machine.execBst at_ a b s
  | .div at_ d a b => Sys2Proof.Machine.execDiv at_ d a b s
  | .divf at_ d a b => Sys2Proof.Machine.execDivf at_ d a b s
  | .smov at_ d dir => Sys2Proof.Machine.execSmov at_ d dir s
  | .sfil at_ d dir => Sys2Proof.Machine.execSfil at_ d dir s
  | .scmp at_ d dir => Sys2Proof.Machine.execScmp at_ d dir s
  | .br at_ imm => Sys2Proof.Machine.execBr at_ imm s
  | .call at_ imm => Sys2Proof.Machine.execCall at_ imm s
  | .brcc at_ cond disp => Sys2Proof.Machine.execBrcc at_ cond disp s
  | .bri at_ d => Sys2Proof.Machine.execBri at_ d s
  | .calli at_ d => Sys2Proof.Machine.execCalli at_ d s
  | .ret at_ => Sys2Proof.Machine.execRet at_ s
  | .reti at_ => Sys2Proof.Machine.execReti at_ s
  | .brbs at_ d imm => Sys2Proof.Machine.execBrbs at_ d imm s
  | .brbc at_ d imm => Sys2Proof.Machine.execBrbc at_ d imm s
  | .loop at_ d imm => Sys2Proof.Machine.execLoop at_ d imm s
  | .loopi at_ cnt len => Sys2Proof.Machine.execLoopi at_ cnt len s
  | .rpt at_ cnt => Sys2Proof.Machine.execRpt at_ cnt s
  | .rptr at_ => Sys2Proof.Machine.execRptr at_ s
  | .enq at_ d v => Sys2Proof.Machine.execEnq at_ d v s
  | .deq at_ d v => Sys2Proof.Machine.execDeq at_ d v s
  | .alloc at_ d => Sys2Proof.Machine.execAlloc at_ d s
  | .rel at_ d => Sys2Proof.Machine.execRel at_ d s
  | .sbset at_ d => Sys2Proof.Machine.execSbset at_ d s
  | .sbclr at_ d => Sys2Proof.Machine.execSbclr at_ d s
  | .sbtas at_ d => Sys2Proof.Machine.execSbtas at_ d s
  | .sbtst at_ d => Sys2Proof.Machine.execSbtst at_ d s
  | .mvs at_ d sys => Sys2Proof.Machine.execMvs at_ d sys s
  | .mts at_ d sys => Sys2Proof.Machine.execMts at_ d sys s
  | .tlbw at_ d => Sys2Proof.Machine.execTlbw at_ d s
  | .tlbwr at_ d => Sys2Proof.Machine.execTlbwr at_ d s
  | .tlbr at_ d => Sys2Proof.Machine.execTlbr at_ d s
  | .tlbp at_ d v => Sys2Proof.Machine.execTlbp at_ d v s
  | .tlbsync at_ => Sys2Proof.Machine.execTlbsync at_ s
  | .tlbia at_ => Sys2Proof.Machine.execTlbia at_ s
  | .tlbiv at_ v => Sys2Proof.Machine.execTlbiv at_ v s
  | .tlbit at_ d => Sys2Proof.Machine.execTlbit at_ d s
  | .twk at_ v => Sys2Proof.Machine.execTwk at_ v s
  | .wcinv at_ => Sys2Proof.Machine.execWcinv at_ s
  | .pmw at_ n d => Sys2Proof.Machine.execPmw at_ n d s
  | .ifence at_ => Sys2Proof.Machine.execIfence at_ s
  | .fend at_ => Sys2Proof.Machine.execFend at_ s
  | .sysc at_ imm => Sys2Proof.Machine.execSysc at_ imm s
  | .bkpt at_ imm => Sys2Proof.Machine.execBkpt at_ imm s
  | .vsetl at_ d a => Sys2Proof.Machine.execVsetl at_ d a s
  | .vsetli at_ d imm => Sys2Proof.Machine.execVsetli at_ d imm s
  | .vld at_ vd n mode => Sys2Proof.Machine.execVld at_ vd n mode s
  | .vst at_ vd n mode => Sys2Proof.Machine.execVst at_ vd n mode s
  | .vlds at_ vd n m u => Sys2Proof.Machine.execVlds at_ vd n m u s
  | .vsts at_ vd n m u => Sys2Proof.Machine.execVsts at_ vd n m u s
  | .vld2 at_ vd n mode => Sys2Proof.Machine.execVld2 at_ vd n mode s
  | .vld3 at_ vd n mode => Sys2Proof.Machine.execVld3 at_ vd n mode s
  | .vld4 at_ vd n mode => Sys2Proof.Machine.execVld4 at_ vd n mode s
  | .vst2 at_ vd n mode => Sys2Proof.Machine.execVst2 at_ vd n mode s
  | .vst3 at_ vd n mode => Sys2Proof.Machine.execVst3 at_ vd n mode s
  | .vst4 at_ vd n mode => Sys2Proof.Machine.execVst4 at_ vd n mode s
  | .vgth at_ vd n vb => Sys2Proof.Machine.execVgth at_ vd n vb s
  | .vsct at_ vd n vb => Sys2Proof.Machine.execVsct at_ vd n vb s
  | .vgthF at_ vd v vb tag => Sys2Proof.Machine.execVgthF at_ vd v vb tag s
  | .vsctF at_ vd v vb tag => Sys2Proof.Machine.execVsctF at_ vd v vb tag s
  | .vpf at_ v dl => Sys2Proof.Machine.execVpf at_ v dl s
  | .vadd at_ vd va vb => Sys2Proof.Machine.execVadd at_ vd va vb s
  | .vsub at_ vd va vb => Sys2Proof.Machine.execVsub at_ vd va vb s
  | .vadds at_ vd va vb => Sys2Proof.Machine.execVadds at_ vd va vb s
  | .vsubs at_ vd va vb => Sys2Proof.Machine.execVsubs at_ vd va vb s
  | .vand at_ vd va vb => Sys2Proof.Machine.execVand at_ vd va vb s
  | .vor at_ vd va vb => Sys2Proof.Machine.execVor at_ vd va vb s
  | .vxor at_ vd va vb => Sys2Proof.Machine.execVxor at_ vd va vb s
  | .vmin at_ vd va vb => Sys2Proof.Machine.execVmin at_ vd va vb s
  | .vmax at_ vd va vb => Sys2Proof.Machine.execVmax at_ vd va vb s
  | .vun at_ vd va sub => Sys2Proof.Machine.execVun at_ vd va sub s
  | .vshi at_ vd kind amt => Sys2Proof.Machine.execVshi at_ vd kind amt s
  | .vshv at_ vd va vb => Sys2Proof.Machine.execVshv at_ vd va vb s
  | .vbcst at_ vd a => Sys2Proof.Machine.execVbcst at_ vd a s
  | .vext at_ d va b => Sys2Proof.Machine.execVext at_ d va b s
  | .vins at_ vd a b => Sys2Proof.Machine.execVins at_ vd a b s
  | .vsld at_ vd va b => Sys2Proof.Machine.execVsld at_ vd va b s
  | .vmaxi at_ vd va b => Sys2Proof.Machine.execVmaxi at_ vd va b s
  | .vmini at_ vd va b => Sys2Proof.Machine.execVmini at_ vd va b s
  | .vrmaxi at_ d va => Sys2Proof.Machine.execVrmaxi at_ d va s
  | .vrmini at_ d va => Sys2Proof.Machine.execVrmini at_ d va s
  | .vbexp at_ va => Sys2Proof.Machine.execVbexp at_ va s
  | .vnorm at_ vd va => Sys2Proof.Machine.execVnorm at_ vd va s
  | .vmpy at_ vad va vb => Sys2Proof.Machine.execVmpy at_ vad va vb s
  | .vmac at_ vad va vb => Sys2Proof.Machine.execVmac at_ vad va vb s
  | .vmsu at_ vad va vb => Sys2Proof.Machine.execVmsu at_ vad va vb s
  | .vmpyf at_ vad va vb => Sys2Proof.Machine.execVmpyf at_ vad va vb s
  | .vmacf at_ vad va vb => Sys2Proof.Machine.execVmacf at_ vad va vb s
  | .vmsuf at_ vad va vb => Sys2Proof.Machine.execVmsuf at_ vad va vb s
  | .vmpyfs at_ vad va b => Sys2Proof.Machine.execVmpyfs at_ vad va b s
  | .vmacfs at_ vad va b => Sys2Proof.Machine.execVmacfs at_ vad va b s
  | .vmsufs at_ vad va b => Sys2Proof.Machine.execVmsufs at_ vad va b s
  | .vclra at_ vad => Sys2Proof.Machine.execVclra at_ vad s
  | .vadda at_ vad vas => Sys2Proof.Machine.execVadda at_ vad vas s
  | .vsha at_ vad vas imm => Sys2Proof.Machine.execVsha at_ vad vas imm s
  | .vradd at_ vad vas => Sys2Proof.Machine.execVradd at_ vad vas s
  | .vmva at_ vd vas part => Sys2Proof.Machine.execVmva at_ vd vas part s
  | .vmvda at_ vad va => Sys2Proof.Machine.execVmvda at_ vad va s
  | .reservedOpcode at_ syls => Sys2Proof.Machine.execReservedOpcode at_ syls s
  | .hostLinkUp port speed width => Sys2Proof.Machine.execHostLinkUp port speed width s
  | .playbackReadComplete port ring group => Sys2Proof.Machine.execPlaybackReadComplete port ring group s
  | .railReturn die rail => Sys2Proof.Machine.execRailReturn die rail s
  | .tapReset => Sys2Proof.Machine.execTapReset s
  | .tickInEdge phase => Sys2Proof.Machine.execTickInEdge phase s

end Sys2Proof.Machine
end

