-- ==== Sys2Proof/Machine/Pins.lean ====
section
/-! DEFINITION. The levels of the output and bidirectional pins (R529, R562, R573, R581, R591, R594 to R596). -/

namespace Sys2Proof.Machine

/-- Output and bidirectional pins other than the serial lanes and the test access port (R591). -/
inductive Pin where
  | busyN (k : Nat) | irqN (k : Nat) | miso (k : Nat)
  | bootSck (k : Nat) | bootCsN (k : Nat) | bootIo (k : Nat)
  | tmuOut (n : Nat)
  | tickOut | ppsOut | mclkOut | earlyOk | faultN
  | tdmBclk (d k : Nat) | tdmFs (d k : Nat) | tdmDout (d k : Nat)
  deriving DecidableEq, Repr

/-- What a pin shows between the edges of its signal. -/
inductive Level where
  | high | low
  /-- High impedance; of FAULT_N, released. -/
  | hiz
  /-- The pin carries a signal: a clock, the bits of a transfer, or what the boundary register holds. -/
  | signal
  deriving DecidableEq, Repr

def Level.ofBool (b : Bool) : Level := if b then .high else .low

/-- The boot die reads flash k in BOOT (R561): n-th attempt, its own first. -/
def State.readsFlash (s : State) (k : Nat) : Bool :=
  let own (n : Nat) : Nat := if n = 0 then s.pkg.boot.die else 1 - s.pkg.boot.die
  match s.pkg.boot.stage with
  | .header n | .payload n => decide (k = own n)
  | _ => false

/-- A boot-flash pin of port k (R562, R594): while BOOT reads the flash its signal, before that high impedance; after BOOT CS_N is high and the others are at
high impedance. -/
def State.bootPin (s : State) (k : Nat) (cs : Bool) : Level :=
  if s.pkgState = 0 ∨ (s.die k).stopped = true ∨ s.populated k = false then .hiz
  else if s.pkgState = 1 then (if s.readsFlash k then .signal else .hiz)
  else if cs then .high else .hiz

/-- A TDM pin of a die that runs: an output of a port that is on, else nothing drives it (R504, R505). -/
def State.tdmPin (s : State) (d k : Nat) (master : Bool) : Level :=
  if s.pkgState = 0 ∨ s.live d = false then .hiz
  else if s.f F.TDM_STAT.RUN d [k] = 1 ∧ (master = false ∨ s.f F.TDM_CTL.MASTER d [k] = 1) then .signal
  else .hiz

/-- A clock output in a state of the part in which a die drives it (R595). -/
def State.clockPin (s : State) (v : Level) : Level :=
  match s.clockDriver with
  | none => .hiz
  | some d => if s.pkgState = 0 ∨ (s.die d).ticks = 0 then .hiz else v

/-- The level of a pin in service (R594): what each rule gives while its die drives it, and the levels of reset while RESET_N is low and of a die that has stopped. In
the two frames in which FD0 has stopped and is not yet declared lost, EARLY_OK follows R595, which puts it at high impedance (DEDUCED, log entry 190). -/
def State.servicePin (s : State) : Pin → Level
  | .busyN k => .ofBool (s.panelOn k && !(s.panel k).full && !(s.panel k).busy)
  | .irqN k => .ofBool (!(s.panelOn k && decide (s.f F.PNL_STAT.IRQ k [] = 1)))
  | .miso _ => .hiz
  | .bootSck k => s.bootPin k false
  | .bootCsN k => s.bootPin k true
  | .bootIo k => s.bootPin k false
  | .tmuOut n => match s.tmuOut n with
    | some v => .ofBool v
    | none => .hiz
  | .tickOut => s.clockPin .signal
  | .ppsOut => s.clockPin (.ofBool s.pkg.ppsHigh)
  | .mclkOut => s.clockPin (if s.pkg.mclkOut then .signal else .hiz)
  | .earlyOk => if s.pkgState = 0 ∨ s.pkgState = 1 then .low
      else if s.clockDriver = none then .hiz else .ofBool (decide (s.f F.PKG_STATE.EARLYOK 0 [] = 1))
  | .faultN => if s.faultLow then .low else .hiz
  | .tdmBclk d k => s.tdmPin d k true
  | .tdmFs d k => s.tdmPin d k true
  | .tdmDout d k => s.tdmPin d k false

/-- The level of a pin: while RESET_N is low the test access port may hold it (R610), in EXTEST and CLAMP at what the boundary register gives. -/
def State.pin (s : State) (p : Pin) : Level :=
  match s.pkg.tap.pins with
  | .service => s.servicePin p
  | .boundary => .signal
  | .highz => .hiz

end Sys2Proof.Machine
end

