-- ==== Sys2Proof/WellFormed.lean ====
section
/-! DEFINITION. Which commands the outside world can form: the ranges and counts that an operand's type does not fix. -/

namespace Sys2Proof

open Sys2Proof.Machine

/-- LOCK is not the reserved code 11b (R99). -/
def Machine.TickIn.ok (x : TickIn) : Bool := decide (x.lock.toNat ≤ 2)

/-- A carrier holds one block of 128 words, and service data fits an NCTL slot (R488, R489). -/
def Machine.FinSlot.ok (x : FinSlot) : Bool :=
  match x.body with
  | .empty => true
  | .nctl b => decide (b.data.length ≤ 272)
  | .carrier ws => decide (ws.length = 128)

/-- A command that can arrive. -/
def Instr.wf (i : Instr) : Bool :=
  match i with
  | .registerWrite _ _ _ _ be | .unpopulatedWindowAccess _ _ _ _ _ be => decide (be.toNat < 32)
  | .spineMessageReceive .. => true
  | .spineRestore .. => true
  | .spineTrainingEnd .. => true
  | .heelSend .. => true
  | .heelReceive .. => true
  | .tick _ inp => inp.ok
  | .flywheelTick _ inp => inp.ok
  | .disciplineSourceLost => true
  | .disciplineSourceReturn => true
  | .fnLoad .. => true
  | .todLoad .. => true
  | .counterClear .. => true
  | .constantRegionLoad .. => true
  | .folioStart .. => true
  | .folioReplay .. => true
  | .idleFolioStart .. => true
  | .budgetExceeded .. => true
  | .guardStart .. => true
  | .fendCommit .. => true
  | .interruptEntry _ _ spent => decide (spent ≤ 18)
  | .farLoadReturn .. => true
  | .transferComplete .. => true
  | .farStoreLand .. => true
  | .pmwLand .. => true
  | .takeover .. => true
  | .dieRelease .. => true
  | .dieStop .. => true
  | .dieLossDeclaration .. => true
  | .scrubRead .. => true
  | .fuseProgrammingEnd .. => true
  | .enginePowerOff .. => true
  | .engineWake .. => true
  | .engineClearEnd .. => true
  | .ownerHandover .. => true
  | .handoverDrainEnd .. => true
  | .handoverTimeout .. => true
  | .bankPowerRequest .. => true
  | .bankWakeEnd .. => true
  | .twinEnable .. => true
  | .twinCopyEnd .. => true
  | .twinReadReturn .. => true
  | .crossDieSend .. => true
  | .blockPlacement .. => true
  | .placementAckReceive .. => true
  | .creditMessageReceive .. => true
  | .auditStart .. => true
  | .auditEnd .. => true
  | .auditCopy .. => true
  | .shadowCopy .. => true
  | .shadowCopyEnd => true
  | .swapCrc .. => true
  | .swapVote .. => true
  | .swapDecisionReceive .. => true
  | .handoverEarlyExchange => true
  | .handoverEnd => true
  | .hostPortReset .. => true
  | .ringEnable .. => true
  | .ringDisable .. => true
  | .doorbellReadComplete _ _ _ slots => decide ((slots.map DbSlot.ring).Nodup)
  | .doorbellReadTimeout .. => true
  | .slowPathTransmit _ _ pkt => decide (pkt.bytes.length = pkt.len.toNat)
  | .authClaim .. => true
  | .authRelease .. => true
  | .leaseLapse => true
  | .cfgWrite .. => true
  | .codeLoad _ readBad _ _ count image => readBad || decide (image.length = count.toNat)
  | .leafInit _ _ _ _ _ _ _ len image => (match image with | some ws => decide (ws.length = len.toNat) | none => true)
  | .flowOpen .. => true
  | .flowClose .. => true
  | .flowModContext .. => true
  | .flowModQueue .. => true
  | .swapArm _ _ crcs => decide (crcs.length = 8)
  | .swapCancel .. => true
  | .queryRegisters .. => true
  | .queryFlow .. => true
  | .queryQueue .. => true
  | .queryTally .. => true
  | .repair .. => true
  | .scrubFull .. => true
  | .scrubRange .. => true
  | .testStart .. => true
  | .keyLoad _ readBad _ type len blob => decide (type ≠ 0) && (readBad || decide (blob.length = len.toNat))
  | .keyErase .. => true
  | .audit .. => true
  | .linkEnable .. => true
  | .linkDisable .. => true
  | .linkUp .. => true
  | .linkDown .. => true
  | .ethFrameReceive .. => true
  | .ptpDelayReqSend .. => true
  | .ptpPdelayReqSend .. => true
  | .ptpLoss .. => true
  | .ptpGrandmasterSet .. => true
  | .streamPacketSend .. => true
  | .finRingEnable .. => true
  | .finTrainStart .. => true
  | .finSlotReceive _ slot _ _ => slot.ok
  | .degUpdate .. => true
  | .finAdmit .. => true
  | .tdmEnable .. => true
  | .tdmInputSlot .. => true
  | .tdmOutputSlot .. => true
  | .tdmFsLoss .. => true
  | .tmuStart .. => true
  | .tmuStop .. => true
  | .tmuWideCommit .. => true
  | .tmuCountClock .. => true
  | .tmuCapture .. => true
  | .testEnd => true
  | .selftestSlotEnd .. => true
  | .resetAssert => true
  | .resetRelease => true
  | .bootSelftestEnd .. => true
  | .endpaperHeaderRead bytes => (match bytes with | some b => decide (b.length = 256) | none => true)
  | .endpaperPayloadReadEnd .. => true
  | .recoveryLoad .. => true
  | .panelNop .. => true
  | .panelRead .. => true
  | .panelWrite .. => true
  | .panelTrigger .. => true
  | .panelKick .. => true
  | .panelAck .. => true
  | .panelWatchdogExpire .. => true
  | .triggerStart .. => true
  | .triggerLoop .. => true
  | .triggerStop .. => true
  | .triggerLiveOn .. => true
  | .triggerLiveOff .. => true
  | .triggerStopAll .. => true
  | .svnUpdate .. => true
  | .svnProgramEnd .. => true
  | .railTrip .. => true
  | .railWarning .. => true
  | .bypass => true
  | .idcode => true
  | .samplePreload => true
  | .extest => true
  | .clamp => true
  | .highz => true
  | .nop .. => true
  | .ld .. => true
  | .ldD .. => true
  | .st .. => true
  | .stD .. => true
  | .ldp .. => true
  | .stp .. => true
  | .ldxL .. => true
  | .ldxH .. => true
  | .stxL .. => true
  | .stxH .. => true
  | .ldam .. => true
  | .stam .. => true
  | .mvia .. => true
  | .addia .. => true
  | .mova .. => true
  | .movm .. => true
  | .setbs .. => true
  | .setln .. => true
  | .fetch .. => true
  | .stow .. => true
  | .fetchLf .. => true
  | .stowLf .. => true
  | .fetchB .. => true
  | .stowB .. => true
  | .ldf .. => true
  | .ldfD .. => true
  | .stf .. => true
  | .stfD .. => true
  | .mpy .. => true
  | .mac .. => true
  | .msu .. => true
  | .mpyf .. => true
  | .macf .. => true
  | .msuf .. => true
  | .macsu .. => true
  | .macuu .. => true
  | .mpyQ .. => true
  | .macQ .. => true
  | .msuQ .. => true
  | .mpyfQ .. => true
  | .macfQ .. => true
  | .msufQ .. => true
  | .clra .. => true
  | .addac .. => true
  | .subac .. => true
  | .shac .. => true
  | .negac .. => true
  | .absac .. => true
  | .satac .. => true
  | .rndac .. => true
  | .mvda .. => true
  | .mvdah .. => true
  | .add .. => true
  | .addc .. => true
  | .sub .. => true
  | .subb .. => true
  | .adds .. => true
  | .subs .. => true
  | .addi .. => true
  | .movi .. => true
  | .cmp .. => true
  | .cmpi .. => true
  | .and .. => true
  | .or .. => true
  | .xor .. => true
  | .andn .. => true
  | .unMov .. => true
  | .unNot .. => true
  | .unNeg .. => true
  | .unAbs .. => true
  | .unNegs .. => true
  | .unAbss .. => true
  | .unCls .. => true
  | .asr .. => true
  | .lsr .. => true
  | .shl .. => true
  | .rol .. => true
  | .shi .. => true
  | .addD .. => true
  | .subD .. => true
  | .min .. => true
  | .max .. => true
  | .mini .. => true
  | .maxi .. => true
  | .bexp .. => true
  | .norm .. => true
  | .bxr .. => true
  | .mvad .. => true
  | .dadd .. => true
  | .daddc .. => true
  | .dsub .. => true
  | .dsubb .. => true
  | .daj .. => true
  | .bset .. => true
  | .bclr .. => true
  | .binv .. => true
  | .btst .. => true
  | .bld .. => true
  | .bst .. => true
  | .div .. => true
  | .divf .. => true
  | .smov .. => true
  | .sfil .. => true
  | .scmp .. => true
  | .br .. => true
  | .call .. => true
  | .brcc .. => true
  | .bri .. => true
  | .calli .. => true
  | .ret .. => true
  | .reti .. => true
  | .brbs .. => true
  | .brbc .. => true
  | .loop .. => true
  | .loopi .. => true
  | .rpt .. => true
  | .rptr .. => true
  | .enq .. => true
  | .deq .. => true
  | .alloc .. => true
  | .rel .. => true
  | .sbset .. => true
  | .sbclr .. => true
  | .sbtas .. => true
  | .sbtst .. => true
  | .mvs .. => true
  | .mts .. => true
  | .tlbw .. => true
  | .tlbwr .. => true
  | .tlbr .. => true
  | .tlbp .. => true
  | .tlbsync .. => true
  | .tlbia .. => true
  | .tlbiv .. => true
  | .tlbit .. => true
  | .twk .. => true
  | .wcinv .. => true
  | .pmw .. => true
  | .ifence .. => true
  | .fend .. => true
  | .sysc .. => true
  | .bkpt .. => true
  | .vsetl .. => true
  | .vsetli .. => true
  | .vld .. => true
  | .vst .. => true
  | .vlds .. => true
  | .vsts .. => true
  | .vld2 .. => true
  | .vld3 .. => true
  | .vld4 .. => true
  | .vst2 .. => true
  | .vst3 .. => true
  | .vst4 .. => true
  | .vgth .. => true
  | .vsct .. => true
  | .vgthF .. => true
  | .vsctF .. => true
  | .vpf .. => true
  | .vadd .. => true
  | .vsub .. => true
  | .vadds .. => true
  | .vsubs .. => true
  | .vand .. => true
  | .vor .. => true
  | .vxor .. => true
  | .vmin .. => true
  | .vmax .. => true
  | .vun .. => true
  | .vshi .. => true
  | .vshv .. => true
  | .vbcst .. => true
  | .vext .. => true
  | .vins .. => true
  | .vsld .. => true
  | .vmaxi .. => true
  | .vmini .. => true
  | .vrmaxi .. => true
  | .vrmini .. => true
  | .vbexp .. => true
  | .vnorm .. => true
  | .vmpy .. => true
  | .vmac .. => true
  | .vmsu .. => true
  | .vmpyf .. => true
  | .vmacf .. => true
  | .vmsuf .. => true
  | .vmpyfs .. => true
  | .vmacfs .. => true
  | .vmsufs .. => true
  | .vclra .. => true
  | .vadda .. => true
  | .vsha .. => true
  | .vradd .. => true
  | .vmva .. => true
  | .vmvda .. => true
  | .reservedOpcode _ syls => decide (syls.length = 8)
  | .hostLinkUp .. => true
  | .playbackReadComplete _ _ group => group.all (fun e => decide (e.length = 128))
  | .railReturn .. => true
  | .tapReset => true
  | .tickInEdge .. => true

end Sys2Proof
end

