-- ==== Sys2Proof/Safety.lean ====
section
/-! DEFINITION. What counts as a good state and a good step, in the terms that claims use. -/

namespace Sys2Proof.Machine

/-- Memory.wf: the package memory lists stored words at strictly rising addresses, none equal to what an unlisted word reads as. -/
def Memory.wf (m : Store Stored) : Bool := Store.wf (fun _ => 0) m

/-- Every waiting command is one that can arrive. -/
def State.queueWf (s : State) : Bool := s.pending.all Instr.wf

/-- The invariant that every step keeps: canonical package memory, and a queue of commands that can arrive. -/
def State.Inv (s : State) : Prop := Memory.wf s.shm = true ∧ s.queueWf = true

/-- A step that neither faults nor refuses. -/
def Completes (o : Host.Outcome State Fault Refusal) : Prop := ∃ t, o = .next t

/-! ### One operation in a bundle of its own -/

/-- Nothing of an earlier bundle reaches into the next: no vector access of beat 1, no PMW on its way or replaced bundle still read, no done bit of
an empty transfer due, no result in the pending-write file, no FETCH waiting for a bank (R148, R162, R183, R229, R244). -/
def Eng.still (x : Eng) : Bool :=
  x.pwf.isEmpty && x.hand.isEmpty && x.carry.isEmpty && x.pmws.isEmpty && x.pmOld.isEmpty && x.zdone.isEmpty && x.fullRun.isEmpty

/-- An engine that can issue a bundle of one syllable, with nothing of an earlier bundle still to happen: no branch, repeat,
DIV or result in flight, no loop that ends here, no transfer in progress, a good bundle in program memory, and supervisor mode
or a page that the instruction lookup finds at its first level and may execute (R100, R111, R118, R127, R133, R183, R287). -/
def State.solo (s : State) (a : At) : Bool :=
  let x := s.eng a.die.val a.eng.val
  s.issues a.die.val a.eng.val && x.bundle.isEmpty && x.div.isNone && !x.popU && !x.popS && x.br.isNone && x.rpt.isNone
    && x.pw.isEmpty && x.still && x.xfers.isEmpty
    && (match x.loops with | [] => true | l :: _ => decide (l.stop ≠ x.pc)) && a.last && a.err.isNone
    && okBundle (x.pmAt 1 x.half x.pc.toNat)
    && (!x.user || (match x.lookI (68719472640 + x.pc.toNat) with
        | some k => k.acts.isEmpty && k.ent.ent.x && k.ent.ent.u
        | none => false))

/-- The engine that an operation issues in. -/
def State.engOf (s : State) (a : At) : Eng := s.eng a.die.val a.eng.val

/-- A lone operation in one of the slots that define it, without an extension. -/
abbrev Lone (s : State) (a : At) (slots : List Nat) : Prop := s.solo a = true ∧ a.slot.val ∈ slots ∧ a.ext = none

/-- A lone operation in one of the slots that define it, with or without an extension (R102, R169). -/
abbrev LoneX (s : State) (a : At) (slots : List Nat) : Prop := s.solo a = true ∧ a.slot.val ∈ slots

/-- The package after a bundle of engine `a` that leaves the engine as `y` and the registers of the map as `u` has them: no other
engine changes, and nothing else does but the counter of free values. -/
structure Retired (s t : State) (a : At) (y : Eng) (u : State) : Prop where
  eng : t.eng a.die.val a.eng.val = y
  others : ∀ k, k ≠ 64 * a.die.val + a.eng.val → t.engs.get {} k = s.engs.get {} k
  regs : t.regs = u.regs
  rest : { t with engs := s.engs, regs := s.regs, fresh := s.fresh } = s

/-- One more bundle of engine `a` is counted in ENG_PMBANK (R165). -/
def State.counted (s : State) (a : At) : State := s.incF F.ENG_PMBANK.COUNT a.die.val [a.eng.val]

/-- The command runs and leaves its engine as `y`, with the requests sampled at its issue (R144); of the registers of the map only the bank count
changes. -/
def LeavesEng (c : Instr) (s : State) (a : At) (y : Eng) : Prop := ∃ t, exec c s = .next t ∧ Retired s t a (y.sampled (s.engOf a)) (s.counted a)

/-- The engine with the writes of `now` landed in order, the results of `later` on their way, each with the bundles still owed
(R111), and the PC one bundle further. -/
def Eng.after (x : Eng) (now : List Wr) (later : List PendW) : Eng := { now.foldl Eng.put x with pw := later, pc := x.pc + 1 }

/-- The command runs: the writes of `now` land at once, the results of `later` follow, the PC moves on by one bundle, and
nothing else changes. -/
def Retires (c : Instr) (s : State) (a : At) (now : List Wr) (later : List PendW) : Prop :=
  LeavesEng c s a ((s.eng a.die.val a.eng.val).after now later)

/-- A write of D(i), A(n), M(n) or AC(n) of the register set in use (R103). -/
def Eng.toD (x : Eng) (i : Nat) (v : W18) : Wr := .d (physD x.sh i) v
def Eng.toA (x : Eng) (n : Nat) (v : BitVec 16) : Wr := .a (physA x.sh n) v
def Eng.toM (x : Eng) (n : Nat) (v : BitVec 16) : Wr := .m (physA x.sh n) v
def Eng.toAC (x : Eng) (n : Nat) (v : W54) : Wr := .ac (physAC x.sh n) v

/-- A write of the listed flags (R105: C 0, Z 1, N 2, V 3, SV 4, DC 5, SAT 6) of the register set in use; V raised also sets SV (R176). -/
def Eng.toFl (x : Eng) (l : List (Nat × Bool)) : List Wr :=
  .fl x.sh (flagBits l).1 (flagBits l).2 :: (if l.contains (3, true) then [.flSet x.sh 0x10#7] else [])

/-- A set of the sticky flags SV and SAT (R176). -/
def Eng.toSticky (x : Eng) (sv sat : Bool) : List Wr :=
  if sv || sat then [.flSet x.sh ((if sv then 0x10#7 else 0) ||| (if sat then 0x40#7 else 0))] else []

/-- Z and N of a result (R105). -/
def zeroNeg (r : W18) : List (Nat × Bool) := [(1, decide (r = 0)), (2, decide (r.toInt < 0))]

/-- A result with `n` bundles still owed. -/
def owed (n : Nat) (w : Wr) : PendW := ⟨n, w, false⟩

/-- A result of a chained operation with `n` bundles still owed (R113). -/
def chained (n : Nat) (w : Wr) : PendW := ⟨n, w, true⟩

/-- An immediate read as signed, with the twelve bits of an extension above it (R169). -/
def simmOf {k : Nat} (a : At) (imm : BitVec k) : Int := match a.ext with
  | some e => (e ++ imm).toInt
  | none => imm.toInt

/-- An immediate read as unsigned, with the twelve bits of an extension above it (R169). -/
def uimmOf {k : Nat} (a : At) (imm : BitVec k) : Nat := match a.ext with
  | some e => (e ++ imm).toNat
  | none => imm.toNat

/-- The address of the direct mode: DBK × 256 + addr8, or the low 16 bits of XT:addr8 (R177). -/
def Eng.directAt (x : Eng) (a : At) (imm : BitVec 8) : Nat := match a.ext with
  | some e => (e ++ imm).toNat % 65536
  | none => x.dbk.toNat * 256 + imm.toNat

/-- Circular mode is in force for An (R104). -/
def Eng.ringed (x : Eng) (n : Nat) : Bool := decide (x.ln.get 0 n ≠ 0) && !(x.sh && decide (4 ≤ n))

/-- An lies in its ring and the step fits it (R178); true of linear mode. -/
def Eng.inRing (x : Eng) (n : Nat) (delta : Int) : Bool :=
  let A := (x.ra n).toNat; let B := (x.bs.get 0 n).toNat; let L := (x.ln.get 0 n).toNat
  !x.ringed n || (decide (B ≤ A) && decide (A < B + L) && decide (delta.natAbs ≤ L))

/-- An after an update by `delta` (R177). -/
def Eng.moved (x : Eng) (n : Nat) (delta : Int) : BitVec 16 :=
  let A : Int := (x.ra n).toNat; let B : Int := (x.bs.get 0 n).toNat; let L : Int := (x.ln.get 0 n).toNat
  if x.ringed n then BitVec.ofInt 16 (B + (A - B + delta) % L) else BitVec.ofInt 16 (A + delta)

/-- The new An of a post-modify mode of R177, for accesses of `k` words, where R168 and R178 leave it defined. -/
def Eng.postA (x : Eng) (n mode : BitVec 3) (k : Int) : Option (BitVec 16) :=
  let i := n.toNat
  let go (delta : Int) : Option (BitVec 16) := if x.inRing i delta then some (x.moved i delta) else none
  match mode.toNat with
  | 0 => go 0
  | 1 => go k
  | 2 => go (-k)
  | 3 => go (x.rm i).toInt
  | 4 => go (-(x.rm i).toInt)
  | 5 => some ((x.ra i).reverse + (x.rm i).reverse).reverse
  | _ => none

/-- No word of `addrs` lies in a constant region that the running entry declares, or the store is not a user's (R87). -/
def State.mayStore (s : State) (a : At) (addrs : List Nat) : Bool :=
  let x := s.eng a.die.val a.eng.val
  match x.run with
  | .folio i _ => !x.user || addrs.all (fun k => (s.regionOf a.die.val a.eng.val i k).isNone)
  | _ => true

/-- A local word whose signature bits are right (R367), and its 18 bits. -/
def Eng.goodL (x : Eng) (k : Nat) : Bool := ok18 (x.lmem.get 0 k)
def Eng.atL (x : Eng) (k : Nat) : W18 := (x.lmem.get 0 k).setWidth 18

/-- The command answers a next state of which `P` holds. -/
def Nexts (c : Instr) (s : State) (P : State → Prop) : Prop := ∃ t, exec c s = .next t ∧ P t

/-- The frame of a command: beside what `u` allows, only the listed register cells, engines (64 × die + engine) and dies may have
changed, and the events that arose and the counter of free values. -/
structure Same (s t : State) (cells engs dies : List Nat) (u : State) : Prop where
  cells : ∀ k, k ∉ cells → Store.find t.regs k = Store.find s.regs k
  engs : ∀ k, k ∉ engs → t.engs.get {} k = s.engs.get {} k
  dies : ∀ k, k ∉ dies → t.dies.get {} k = s.dies.get {} k
  rest : { t with regs := s.regs, engs := s.engs, dies := s.dies, events := s.events, fresh := s.fresh } = u

/-- No words of the running entry's constant regions can be overwritten: no region is declared, or the code is not a user's (R185). -/
def State.noConst (s : State) (a : At) : Bool :=
  match (s.engOf a).run with
  | .folio i _ => !(s.engOf a).user || decide ((s.act .ENG_FLB a.die.val [a.eng.val, i]).toNat % 256 = 0)
  | _ => true

/-- A far access that passes every check of R296 with first-level copies alone, and where it lands. -/
abbrev State.farLands (s : State) (a : At) (r : FarReq) (pa : Nat) (side : Bool) : Prop :=
  s.farCheck a.die.val a.eng.val r = .inl ⟨pa, side, []⟩

/-- DDv as a 36-bit value (R103). -/
def Eng.ddv (x : Eng) (v : BitVec 3) : Nat := (x.rd (2 * v.toNat + 1)).toNat * 262144 + (x.rd (2 * v.toNat)).toNat

/-- One bit of a register written. -/
def putBit (x : W18) (i : Nat) (b : Bool) : W18 := if b then x ||| BitVec.twoPow 18 i else x &&& ~~~BitVec.twoPow 18 i

/-- ST after an entry (R147): PS := S, S := 1, IE := 0, SH := 1. -/
def entrySt (x : W18) : W18 := putBit (putBit (putBit (putBit x 5 (x.getLsbD 0)) 0 true) 1 false) 2 true

/-- The engine as an entry from a bundle with nothing in flight leaves it, `epc` in EPC and `pc` next (R145 to R149). -/
def Eng.entered (x : Eng) (epc pc : BitVec 12) : Eng :=
  { x with epc := epc, epc2 := 0, st := entrySt x.st, pc := pc, brSave := none, strV := none, gap := false, smp := 0, smpEn := 0 }

/-- The engine as a trap leaves it (R154): ECAUSE names the cause and the slot, and the handler is at TVEC, which is read (R375). -/
def Eng.trapped (x : Eng) (epc : BitVec 12) (c : Cause) (slot : Nat) : Eng :=
  { x.entered epc x.tvec with ecause := BitVec.ofNat 18 (c.code + 64 * slot), vecBad := x.vecBad.filter (fun k => decide (k ≠ 1)) }

/-- ENG_TRAP and ENG_TCNT after a trap of the bundle at `pc` (R165). -/
def State.trapCounted (s : State) (a : At) (c : Cause) (pc : BitVec 12) : State :=
  let d := a.die.val; let i := [a.eng.val]
  (((s.setF F.ENG_TRAP.CAUSE d i c.code).setF F.ENG_TRAP.EPC d i pc.toNat).raise F.ENG_TRAP.TEV d i).incF F.ENG_TCNT.TRAPS d i

/-- The command runs, leaves its engine as `y`, with the requests sampled at its issue (R144), and of the registers of the map those that `u` has. -/
def LeavesWith (c : Instr) (s : State) (a : At) (y : Eng) (u : State) : Prop :=
  ∃ t, exec c s = .next t ∧ Retired s t a (y.sampled (s.engOf a)) u

/-- A bundle of engine `a` is counted in ENG_PMBANK with `k` more that were fetched behind it (R110, R165). -/
def State.countedOn (s : State) (a : At) (k : Nat) : State := (s.counted a).addF F.ENG_PMBANK.COUNT a.die.val [a.eng.val] k

/-- The command runs, leaves its engine as `y`, and stops the fetch: beside its own bundle at most ten more are counted (R110, R165). -/
def LeavesStopped (c : Instr) (s : State) (a : At) (y : Eng) : Prop := ∃ k ≤ 10, LeavesWith c s a y (s.countedOn a k)

/-- The command takes a trap of cause `k` and leaves its engine as `y`: the trap is counted, and the bundles fetched behind it (R110, R154, R165). -/
def Traps (c : Instr) (s : State) (a : At) (k : Cause) (y : Eng) : Prop :=
  ∃ n ≤ 10, ∃ t, exec c s = .next t ∧ Retired s t a y ((s.countedOn a n).trapCounted a k (s.engOf a).pc)

/-- The command sends out its accesses at `pas` to other dies (R35); the package is then as that left it but for its engine, which is `y` of the
engine that sent them and of their tokens, and the registers of the map, which are as `u` has them. -/
def EndsAcross (c : Instr) (s : State) (a : At) (pas : List Nat) (reply : Bool) (y : Eng → List Nat → Eng) (u : State → State) : Prop :=
  let p := s.accessFor a.die.val a.eng.val pas reply
  ∃ t, exec c s = .next t ∧ Retired p.1 t a (y (p.1.engOf a) p.2) (u p.1)

/-- The same of a command whose bundle runs, which samples the requests at its issue (R144). -/
def LeavesAcross (c : Instr) (s : State) (a : At) (pas : List Nat) (reply : Bool) (y : Eng → List Nat → Eng) (u : State → State) : Prop :=
  EndsAcross c s a pas reply (fun x ks => (y x ks).sampled (s.engOf a)) u

/-! ### Commands of the block -/

/-- A write by `src` is admitted to the window of register `r`: its source runs, the window answers, and the port has authority or writes its own host-port
block (R15, R460). -/
def State.admitted (s : State) (src : Src) (r : RegName) (d : Nat) (idx : List Nat) : Bool :=
  let a := r.addr d idx
  s.srcLive src && !s.unpop a && !s.noAuth src a && ownHpt src a && decide (a < 2 ^ 24) && decide (s.target a = some ⟨r, d, idx, false⟩)

/-- A write by `src` reaches register `r` at once: it is admitted, crosses to no other die, and a register with RWS fields is neither locked by an armed
swap nor part of a takeover (R35, R386, R408). -/
def State.writable (s : State) (src : Src) (r : RegName) (d : Nat) (idx : List Nat) : Bool :=
  s.admitted src r d idx && (crosses src (r.addr d idx)).isNone
    && (!r.banked || (decide (s.f F.PKG_SWAP.ARMED 0 [] = 0) && !s.inTakeover ⟨r, d, idx, false⟩))

/-- Registers whose write does more, or less, than their field types say. -/
def specialRegs : List RegName := [.PKG_RECOVLEN, .PKG_SVNUP, .PKG_SWAPCTL, .PKG_AUTH, .TCK_CTL, .TCK_DATESET, .ENG_CTL, .SHM_OWN, .SHM_PWR,
  .SHM_TWIN, .KEN_AUD, .TMU_CTL, .TMU_PERHI, .TMU_CMPHI, .TMU_LDHI, .LNK_CTL, .LNK_PTPGM0, .LNK_PTPGM1, .LNK_PTPGM2, .LNK_MSCTL, .LNK_MSRXLO,
  .LNK_MSRXHI, .LNK_MSRXCFG, .FIN_CTL, .FIN_ADMIT, .TDM_CTL, .SPN_CTL, .HPT_RCFG, .PNL_CTL]

/-- What a write of `new` leaves in a field that held `old` (R9, R14). -/
def fieldAfter (x : FieldDesc) (d old new : Nat) : Nat := match x.ty with
  | .ro => old
  | .rw | .rws => if x.resv.bad d new then old else new
  | .w1c => (BitVec.ofNat 32 old &&& ~~~(BitVec.ofNat 32 new)).toNat
  | .w1s => (BitVec.ofNat 32 old ||| BitVec.ofNat 32 new).toNat

end Sys2Proof.Machine
end

