-- ==== Sys2Proof/Certificates/Slice0/Obligations.lean ====
section
/-! DEFINITION. The statements about the block, for the provers. Each docstring names the rules of spec/ that its Lean follows. -/

open Sys2Proof Sys2Proof.Machine

/-- A step takes the command at the front of the queue and executes it with the queue's rest; with no command waiting the block idles (log
entry 7, the model's choice). -/
def Obligations.StepRunsTheFrontCommand : Prop :=
  (∀ (s : State) (c : Instr) (rest : List Instr), s.pending = c :: rest → step s = exec c { s with pending := rest }) ∧
  (∀ s : State, s.pending = [] → step s = .next s)

/-- The invariant State.Inv, that package memory is listed in its canonical form and that every waiting command is one that can arrive, is
kept by every step. -/
def Obligations.EveryStepKeepsTheInvariant : Prop :=
  ∀ s t : State, s.Inv → step s = .next t → t.Inv

/-- The machine after reset meets the invariant. -/
def Obligations.ResetMeetsTheInvariant : Prop :=
  State.reset.Inv

/-- The machine after reset (R54, R249, R251, R264, R556, R557, R559): the part is in BOOT with every register of the map at the value of
its table, both copies of an RWS register alike; shared memory, local memory, program memory and the shared bits hold zeros with valid
check bits; every TLB entry is invalid and every walk cache empty; no key is held, no queue has a block, no flow is open, every bank is
ON, and the first tick carries FN = 0. -/
def Obligations.ResetState : Prop :=
  let s := State.reset
  s.pkgState = 1 ∧ s.pending = [] ∧ s.pkg.waits = [] ∧ s.pkg.claims = [] ∧ s.pkg.arm = none ∧
  (∀ (r : RegName) (d : Nat) (idx : List Nat), s.reg r d idx = r.desc.reset ∧ s.act r d idx = r.desc.reset) ∧
  (∀ pa : Nat, data18 (s.word pa) = 0 ∧ ok18 (s.word pa) = true) ∧
  (∀ k : Nat, let g := s.sbits.get .zero k; g.c0 = g.c1 ∧ g.c0.setWidth 16 = 0#16 ∧ ok16 g.c0 = true) ∧
  (∀ d e k : Nat, let x := s.eng d e
    data18 (x.lmem.get 0 k) = 0 ∧ ok18 (x.lmem.get 0 k) = true ∧ dataBundle (x.pmem.get 0 k) = 0 ∧ okBundle (x.pmem.get 0 k) = true ∧
    (x.l2.get .zero k).v = false ∧ x.itlb = [] ∧ x.dtlb = [] ∧ x.walk = [] ∧ x.half = false ∧ x.run = .none ∧ x.xfers = [] ∧ x.sbuf = []) ∧
  (∀ d k : Nat, (s.die d).keys.get [] k = [] ∧ s.f F.SHM_PWR.PSTAT d [k] = 0 ∧ s.nextFn d = 0 ∧ (s.die d).stopped = false) ∧
  (∀ g : Nat, (s.que g).com = [] ∧ (s.que g).pend = [] ∧ (s.flow g).isOpen = false)

/-- ADD, ADDC, SUB, SUBB and CMP (R176, R193): the wrapped sum or difference lands for the next bundle; C is the carry out of bit 17, or the
absence of a borrow, V says that the signed result is not the exact one, Z and N describe the result; CMP writes flags alone. Nothing
else changes. ADDI, MOVI and CMPI with and without an extension (R169, R193): the immediate is sign-extended from its top bit, which an
extension moves up by twelve, and its low 18 bits are the operand. -/
def Obligations.SumsAndCompares : Prop :=
  (∀ (s : State) (a : At) (d p q : BitVec 4), Lone s a [4, 5] →
     let x := s.engOf a; let P := x.rd p.toNat; let Q := x.rd q.toNat; let c := x.flC.toNat; let b := 1 - c
     Retires (.add a d p q) s a (x.toD d.toNat (P + Q) :: x.toFl
       ((0, decide (262144 ≤ P.toNat + Q.toNat)) :: (3, decide ((P + Q).toInt ≠ P.toInt + Q.toInt)) :: zeroNeg (P + Q))) [] ∧
     Retires (.addc a d p q) s a (x.toD d.toNat (P + Q + BitVec.ofNat 18 c) :: x.toFl
       ((0, decide (262144 ≤ P.toNat + Q.toNat + c)) ::
         (3, decide ((P + Q + BitVec.ofNat 18 c).toInt ≠ P.toInt + Q.toInt + (c : Int))) :: zeroNeg (P + Q + BitVec.ofNat 18 c))) [] ∧
     Retires (.sub a d p q) s a (x.toD d.toNat (P - Q) :: x.toFl
       ((0, decide (Q.toNat ≤ P.toNat)) :: (3, decide ((P - Q).toInt ≠ P.toInt - Q.toInt)) :: zeroNeg (P - Q))) [] ∧
     Retires (.subb a d p q) s a (x.toD d.toNat (P - Q - BitVec.ofNat 18 b) :: x.toFl
       ((0, decide (Q.toNat + b ≤ P.toNat)) ::
         (3, decide ((P - Q - BitVec.ofNat 18 b).toInt ≠ P.toInt - Q.toInt - (b : Int))) :: zeroNeg (P - Q - BitVec.ofNat 18 b))) [] ∧
     Retires (.cmp a p q) s a (x.toFl
       ((0, decide (Q.toNat ≤ P.toNat)) :: (3, decide ((P - Q).toInt ≠ P.toInt - Q.toInt)) :: zeroNeg (P - Q))) []) ∧
  (∀ (s : State) (a : At) (d : BitVec 4) (imm : BitVec 8), LoneX s a [4, 5] →
     let x := s.engOf a; let P := x.rd d.toNat; let I : W18 := BitVec.ofInt 18 (simmOf a imm)
     Retires (.addi a d imm) s a (x.toD d.toNat (P + I) :: x.toFl
       ((0, decide (262144 ≤ P.toNat + I.toNat)) :: (3, decide ((P + I).toInt ≠ P.toInt + I.toInt)) :: zeroNeg (P + I))) [] ∧
     Retires (.movi a d imm) s a (x.toD d.toNat I :: x.toFl (zeroNeg I)) [] ∧
     Retires (.cmpi a d imm) s a (x.toFl
       ((0, decide (I.toNat ≤ P.toNat)) :: (3, decide ((P - I).toInt ≠ P.toInt - I.toInt)) :: zeroNeg (P - I))) [])

/-- ADDS, SUBS and the UN operations (R175, R193, R194): a saturating result is the exact one clamped to 18 signed bits, with V and the
sticky SAT set when it clamps; ABS of −2^17 gives −2^17 and sets V; CLS writes Z alone. The count of R175: cls(x) is at most 17, Da ×
2^cls(Da) still fits in 18 signed bits, and for a word that is neither 0 nor all ones one more doubling does not. -/
def Obligations.SaturatingAndUnary : Prop :=
  (∀ (s : State) (a : At) (d p q : BitVec 4), Lone s a [4, 5] →
     let x := s.engOf a; let P := x.rd p.toNat; let Q := x.rd q.toNat
     let sat (r : Int) : W18 := BitVec.ofInt 18 (max (-131072) (min 131071 r))
     let off (r : Int) : Bool := decide ((sat r).toInt ≠ r)
     let satW (r : Int) (fl : List (Nat × Bool)) : List Wr :=
       x.toD d.toNat (sat r) :: x.toFl (fl ++ (3, off r) :: zeroNeg (sat r)) ++ x.toSticky false (off r)
     let A : W18 := BitVec.ofNat 18 P.toInt.natAbs
     Retires (.adds a d p q) s a (satW (P.toInt + Q.toInt) [(0, decide (262144 ≤ P.toNat + Q.toNat))]) [] ∧
     Retires (.subs a d p q) s a (satW (P.toInt - Q.toInt) [(0, decide (Q.toNat ≤ P.toNat))]) [] ∧
     Retires (.unMov a d p) s a (x.toD d.toNat P :: x.toFl (zeroNeg P)) [] ∧
     Retires (.unNot a d p) s a (x.toD d.toNat (~~~P) :: x.toFl (zeroNeg (~~~P))) [] ∧
     Retires (.unNeg a d p) s a (x.toD d.toNat (-P) :: x.toFl
       ((0, decide (P = 0)) :: (3, decide (P.toInt = -131072)) :: zeroNeg (-P))) [] ∧
     Retires (.unAbs a d p) s a (x.toD d.toNat A :: x.toFl ((3, decide (P.toInt = -131072)) :: zeroNeg A)) [] ∧
     Retires (.unNegs a d p) s a (satW (-P.toInt) []) [] ∧
     Retires (.unAbss a d p) s a (satW P.toInt.natAbs []) [] ∧
     Retires (.unCls a d p) s a (x.toD d.toNat (BitVec.ofNat 18 (cls P)) :: x.toFl [(1, decide (cls P = 0))]) []) ∧
  (∀ x : W18, cls x ≤ 17 ∧ -131072 ≤ x.toInt * 2 ^ cls x ∧ x.toInt * 2 ^ cls x ≤ 131071 ∧
     (x ≠ 0 → x ≠ 0x3FFFF#18 → x.toInt * 2 ^ (cls x + 1) < -131072 ∨ 131071 < x.toInt * 2 ^ (cls x + 1)))

/-- AND, OR, XOR, ANDN, MIN and MAX (R193): Z and N of the result; C of MIN and MAX says that Db was chosen, which it is not when the two
are equal. -/
def Obligations.LogicAndExtremes : Prop :=
  ∀ (s : State) (a : At) (d p q : BitVec 4), Lone s a [4, 5] →
    let x := s.engOf a; let P := x.rd p.toNat; let Q := x.rd q.toNat
    let bits (f : Bool → Bool → Bool) : W18 := BitVec.ofNat 18 (((List.range 18).map (fun i => if f (P.getLsbD i) (Q.getLsbD i) then 2 ^ i else 0)).sum)
    let lo : W18 := BitVec.ofInt 18 (min P.toInt Q.toInt); let hi : W18 := BitVec.ofInt 18 (max P.toInt Q.toInt)
    Retires (.and a d p q) s a (x.toD d.toNat (bits and) :: x.toFl (zeroNeg (bits and))) [] ∧
    Retires (.or a d p q) s a (x.toD d.toNat (bits or) :: x.toFl (zeroNeg (bits or))) [] ∧
    Retires (.xor a d p q) s a (x.toD d.toNat (bits xor) :: x.toFl (zeroNeg (bits xor))) [] ∧
    Retires (.andn a d p q) s a (x.toD d.toNat (bits fun u v => u && !v) :: x.toFl (zeroNeg (bits fun u v => u && !v))) [] ∧
    Retires (.min a d p q) s a (x.toD d.toNat lo :: x.toFl ((0, decide (Q.toInt < P.toInt)) :: zeroNeg lo)) [] ∧
    Retires (.max a d p q) s a (x.toD d.toNat hi :: x.toFl ((0, decide (P.toInt < Q.toInt)) :: zeroNeg hi)) []

/-- ASR, LSR, SHL, ROL and SHI (R193): by 0 to 31 places; C is the last bit shifted out and 0 for an amount of 0; V of SHL says that the
result is not Da × 2^amount. -/
def Obligations.Shifts : Prop :=
  ∀ (s : State) (a : At) (d p q : BitVec 4) (kind : BitVec 2) (amt : BitVec 5), Lone s a [4, 5] →
    let x := s.engOf a
    let res (k : Nat) (P : W18) (n : Nat) : W18 := match k with
      | 0 => BitVec.ofInt 18 (P.toInt / 2 ^ n)
      | 1 => BitVec.ofNat 18 (P.toNat / 2 ^ n)
      | 2 => BitVec.ofNat 18 (P.toNat * 2 ^ n)
      | _ => P.rotateLeft (n % 18)
    let out (k : Nat) (P : W18) (n : Nat) : Bool := decide (n ≠ 0) && (match k with
      | 0 => decide (P.toInt / 2 ^ (n - 1) % 2 = 1)
      | 1 => decide (P.toNat / 2 ^ (n - 1) % 2 = 1)
      | 2 => decide (P.toNat * 2 ^ n / 262144 % 2 = 1)
      | _ => decide ((P.rotateLeft (n % 18)).toNat % 2 = 1))
    let sh (k : Nat) (P : W18) (n : Nat) : List Wr := x.toD d.toNat (res k P n) :: x.toFl
      ((0, out k P n) :: zeroNeg (res k P n) ++ (if k = 2 then [(3, decide ((res 2 P n).toInt ≠ P.toInt * 2 ^ n))] else []))
    let P := x.rd p.toNat; let n := (x.rd q.toNat).toNat % 32
    Retires (.asr a d p q) s a (sh 0 P n) [] ∧ Retires (.lsr a d p q) s a (sh 1 P n) [] ∧
    Retires (.shl a d p q) s a (sh 2 P n) [] ∧ Retires (.rol a d p q) s a (sh 3 P n) [] ∧
    Retires (.shi a d kind amt) s a (sh kind.toNat (x.rd d.toNat) amt.toNat) []

/-- ADD.D, SUB.D, MINI and MAXI on register pairs (R176, R193, R195): a pair holds its low word in D(2v); the running extreme moves only on
a strict improvement, together with its index, and C says so. -/
def Obligations.PairOperations : Prop :=
  ∀ (s : State) (a : At) (v w u : BitVec 3) (p q : BitVec 4), Lone s a [4, 5] →
    let x := s.engOf a
    let pair (n : Nat) : W36 := x.rd (2 * n + 1) ++ x.rd (2 * n)
    let W := pair w.toNat; let U := pair u.toNat
    let set (r : W36) (c : Bool) (exact : Int) : List Wr :=
      x.toD (2 * v.toNat) (BitVec.ofNat 18 r.toNat) :: x.toD (2 * v.toNat + 1) (BitVec.ofNat 18 (r.toNat / 262144)) ::
        x.toFl [(0, c), (1, decide (r = 0)), (2, decide (r.toInt < 0)), (3, decide (r.toInt ≠ exact))]
    let P := x.rd p.toNat; let Q := x.rd q.toNat; let best := (x.rd (2 * v.toNat)).toInt
    let run (take : Bool) : List Wr :=
      (if take then [x.toD (2 * v.toNat) P, x.toD (2 * v.toNat + 1) Q] else []) ++ x.toFl [(0, take)]
    Retires (.addD a v w u) s a (set (W + U) (decide (2 ^ 36 ≤ W.toNat + U.toNat)) (W.toInt + U.toInt)) [] ∧
    Retires (.subD a v w u) s a (set (W - U) (decide (U.toNat ≤ W.toNat)) (W.toInt - U.toInt)) [] ∧
    Retires (.mini a v p q) s a (run (decide (P.toInt < best))) [] ∧
    Retires (.maxi a v p q) s a (run (decide (best < P.toInt))) []

/-- BEXP, BXR, NORM and MVAD (R193, R196): the block exponent falls to the count of Da or returns to 17, NORM scales by it, and MVAD moves a
part of an accumulator, the rounded part clamped with SAT. -/
def Obligations.BlockExponent : Prop :=
  ∀ (s : State) (a : At) (d p : BitVec 4) (acs : BitVec 3) (part : BitVec 2), Lone s a [4, 5] →
    let x := s.engOf a; let P := x.rd p.toNat; let S := (x.rac acs.toNat).toInt
    let r : W18 := BitVec.ofInt 18 (P.toInt * 2 ^ x.bxs.toNat)
    let round := (S + 131072) / 262144
    let m : Int := if part = 0 then S / 2 ^ 36 else if part = 1 then S / 2 ^ 18 else if part = 2 then S
      else max (-131072) (min 131071 round)
    Retires (.bexp a p) s a [.bxs (BitVec.ofNat 5 (min x.bxs.toNat (cls P)))] [] ∧
    Retires (.bxr a) s a [.bxs 17] [] ∧
    Retires (.norm a d p) s a (x.toD d.toNat r :: x.toFl (zeroNeg r)) [] ∧
    Retires (.mvad a d acs part) s a (x.toD d.toNat (BitVec.ofInt 18 m) :: x.toSticky false (decide (part = 3 ∧ m ≠ round))) []

/-- DADD, DADDC, DSUB, DSUBB and DAJ (R197) on decimal words: four-digit sums and differences modulo 10,000 with the decimal carry, Z of the
low 16 bits, and V only from a value that is not four digits. A decimal operation on a word that is not decimal runs (R197): it sets V,
writes some word and some carry, and Z describes the word it wrote. -/
def Obligations.DecimalArithmetic : Prop :=
  (∀ (s : State) (a : At) (d p q : BitVec 4) (m n : Nat), Lone s a [4, 5] →
     let x := s.engOf a; let P := x.rd p.toNat; let c := x.flDC.toNat
     let res (r : Nat) (k : Bool) : List Wr := x.toD d.toNat (toBcd r) :: x.toFl [(1, decide (r = 0)), (3, false), (5, k)]
     (m ≤ 9999 → n ≤ 9999 → P = toBcd m → x.rd q.toNat = toBcd n →
       Retires (.dadd a d p q) s a (res ((m + n) % 10000) (decide (10000 ≤ m + n))) [] ∧
       Retires (.daddc a d p q) s a (res ((m + n + c) % 10000) (decide (10000 ≤ m + n + c))) [] ∧
       Retires (.dsub a d p q) s a (res ((m + 10000 - n) % 10000) (decide (m < n))) [] ∧
       Retires (.dsubb a d p q) s a (res ((m + 10000 - n - c) % 10000) (decide (m < n + c))) []) ∧
     (m ≤ 9999 → P = BitVec.ofNat 18 m → Retires (.daj a d p) s a (x.toD d.toNat (toBcd m) :: x.toFl [(1, decide (m = 0)), (3, false)]) []) ∧
     (P.toInt < 0 ∨ 9999 < P.toInt → Retires (.daj a d p) s a (x.toD d.toNat 0x9999#18 :: x.toFl [(1, false), (3, true)]) [])) ∧
  (∀ (s : State) (a : At) (d p q : BitVec 4), Lone s a [4, 5] →
     let x := s.engOf a
     (∀ m n : Nat, m ≤ 9999 → n ≤ 9999 → ¬(x.rd p.toNat = toBcd m ∧ x.rd q.toNat = toBcd n)) →
     ∀ c ∈ [Instr.dadd a d p q, .daddc a d p q, .dsub a d p q, .dsubb a d p q],
       ∃ (r : W18) (k : Bool), Retires c s a (x.toD d.toNat r :: x.toFl [(1, decide (r.toNat % 65536 = 0)), (3, true), (5, k)]) [])

/-- BSET, BCLR, BINV, BTST, BLD and BST (R193, R200, R201): software clears any hardware bit and sets only bits 0 to 15 and 512 to 4,095;
bits 16 to 31 read 0, bit 40 reads whether the store buffer has room and bit 44 whether it is empty. -/
def Obligations.LocalBits : Prop :=
  ∀ (s : State) (a : At) (d p q : BitVec 4) (imm : BitVec 12), Lone s a [4, 5] →
    let x := s.engOf a
    let bit (i : Nat) : Bool := if i = 40 then decide (x.sbuf.length < 8) else if i = 44 then x.sbuf.isEmpty
      else if 16 ≤ i ∧ i < 32 then false else x.bits.get false i
    let wr (i : Nat) (v : Bool) : Eng :=
      { x with bits := if v = true ∧ 16 ≤ i ∧ i < 512 then x.bits else x.bits.set false i v, pc := x.pc + 1 }
    let i := imm.toNat; let j := (x.rd p.toNat).toNat % 4096
    LeavesEng (.bset a imm) s a (wr i true) ∧ LeavesEng (.bclr a imm) s a (wr i false) ∧ LeavesEng (.binv a imm) s a (wr i (!bit i)) ∧
    LeavesEng (.bst a q p) s a (wr j (decide ((x.rd q.toNat).toNat % 2 = 1))) ∧
    Retires (.btst a imm) s a (x.toFl [(0, bit i), (1, !bit i)]) [] ∧
    Retires (.bld a d p) s a (x.toD d.toNat (BitVec.ofNat 18 (bit j).toNat) :: x.toFl [(1, !bit j)]) []

/-- DIV and DIVF (R141, R198): the bundle waits inside its stall, and when the stall of 18 cycles has ended the truncated quotient, or its
saturation with V, has landed. -/
def Obligations.Divide : Prop :=
  ∀ (s : State) (a : At) (d p q : BitVec 4), Lone s a [4] →
    let x := s.engOf a; let P := (x.rd p.toNat).toInt; let Q := (x.rd q.toNat).toInt
    let quo (m : Int) : Int := (if (m < 0 ↔ Q < 0) then 1 else -1) * ((m.natAbs / Q.natAbs : Nat) : Int)
    let out (m : Int) : List Wr :=
      let v : Int := if Q = 0 then (if 0 ≤ P then 131071 else -131072) else max (-131072) (min 131071 (quo m))
      let r : W18 := BitVec.ofInt 18 v
      x.toD d.toNat r :: x.toFl ((3, decide (Q = 0 ∨ v ≠ quo m)) :: zeroNeg r)
    let done (t : State) (l : List Wr) : Prop := t.regs = (s.counted a).regs ∧ (t.engOf a).d = x.d ∧ (t.engOf a).pc = x.pc ∧
      Retired s (t.settle a.die.val a.eng.val) a ((x.after l []).sampled x) ((s.counted a).addF F.ENG_STALL.CYCLES a.die.val [a.eng.val] 18)
    (∃ t, exec (.div a d p q) s = .next t ∧ done t (out P)) ∧ (∃ t, exec (.divf a d p q) s = .next t ∧ done t (out (P * 131072)))

/-- SMOV, SFIL and SCMP (R138, R199): each issue moves, fills or compares one word at A6 and A7, which step by one up or down, SCNT falls by
one, and the bundle reissues until SCNT is 0; SCMP stops at a mismatch with the flags of the difference, and sets Z when it ends without
one. -/
def Obligations.StringOperations : Prop :=
  ∀ (s : State) (a : At) (d : BitVec 4) (dir : BitVec 1), Lone s a [5] →
    let x := s.engOf a; let k : Int := if dir = 0 then 1 else -1
    let src := (x.ra 6).toNat; let dst := (x.ra 7).toNat; let last := decide (x.scnt = 1)
    let pc := if last then x.pc + 1 else x.pc
    let to7 : Eng := [x.toA 7 (x.moved 7 k), .scnt (x.scnt - 1)].foldl Eng.put x
    let to67 : Eng := [x.toA 6 (x.moved 6 k), x.toA 7 (x.moved 7 k), .scnt (x.scnt - 1)].foldl Eng.put x
    (x.scnt = 0 → LeavesEng (.smov a d dir) s a { x with pc := x.pc + 1 } ∧ LeavesEng (.sfil a d dir) s a { x with pc := x.pc + 1 } ∧
      Retires (.scmp a d dir) s a (x.toFl [(1, true)]) []) ∧
    (x.scnt ≠ 0 → x.inRing 7 k = true → s.mayStore a [dst] = true →
      LeavesEng (.sfil a d dir) s a { to7 with
        lmem := x.lmem.set 0 dst (enc18 (x.strV.getD (x.rd d.toNat)))
        strV := if last then none else some (x.strV.getD (x.rd d.toNat)), pc := pc }) ∧
    (x.scnt ≠ 0 → x.inRing 6 k = true → x.inRing 7 k = true → x.goodL src = true → src ≠ dst →
      (s.mayStore a [dst] = true →
        LeavesEng (.smov a d dir) s a { to67 with
          lmem := x.lmem.set 0 dst (enc18 (x.atL src)), strV := if last then none else x.strV, pc := pc }) ∧
      (x.goodL dst = true →
        (x.atL src ≠ x.atL dst → Retires (.scmp a d dir) s a
          (x.toFl ((0, decide ((x.atL dst).toNat ≤ (x.atL src).toNat)) :: zeroNeg (x.atL src - x.atL dst))) []) ∧
        (x.atL src = x.atL dst → LeavesEng (.scmp a d dir) s a
          { (if last then (x.toFl [(1, true)]).foldl Eng.put to67 else to67) with
            strV := if last then none else x.strV, pc := pc })))

/-- The scalar multiplies (R112, R192): ACd receives, adds or subtracts the product, wrapped to 54 bits, two bundles after the next; SV says
that the exact result did not fit, SAT that the one fractional product did not. The quad multiplies (R192): Da by the four words D(4q)
to D(4q + 3), into AC(4g) to AC(4g + 3), each as the scalar form. -/
def Obligations.Multiplies : Prop :=
  (∀ (s : State) (a : At) (acd : BitVec 3) (p q : BitVec 4), Lone s a [2, 3] →
     let x := s.engOf a; let P := x.rd p.toNat; let Q := x.rd q.toNat; let A := (x.rac acd.toNat).toInt
     let big := decide (P.toInt = -131072 ∧ Q.toInt = -131072)
     let fm : Int := if big then 2 ^ 35 - 1 else 2 * (P.toInt * Q.toInt)
     let out (r : Int) (sat : Bool) : List PendW := chained 2 (x.toAC acd.toNat (BitVec.ofInt 54 r)) ::
       (x.toSticky (decide ((BitVec.ofInt 54 r).toInt ≠ r)) sat).map (owed 2)
     Retires (.mpy a acd p q) s a [] [chained 2 (x.toAC acd.toNat (BitVec.ofInt 54 (P.toInt * Q.toInt)))] ∧
     Retires (.mac a acd p q) s a [] (out (A + P.toInt * Q.toInt) false) ∧
     Retires (.msu a acd p q) s a [] (out (A - P.toInt * Q.toInt) false) ∧
     Retires (.mpyf a acd p q) s a [] (chained 2 (x.toAC acd.toNat (BitVec.ofInt 54 fm)) :: (x.toSticky false big).map (owed 2)) ∧
     Retires (.macf a acd p q) s a [] (out (A + fm) big) ∧
     Retires (.msuf a acd p q) s a [] (out (A - fm) big) ∧
     Retires (.macsu a acd p q) s a [] (out (A + P.toNat * Q.toInt) false) ∧
     Retires (.macuu a acd p q) s a [] (out (A + P.toNat * Q.toNat) false)) ∧
  (∀ (s : State) (a : At) (g : BitVec 1) (p : BitVec 4) (q : BitVec 2), Lone s a [2, 3] →
     let x := s.engOf a; let P := (x.rd p.toNat).toInt
     let ac (i : Nat) := 4 * g.toNat + i; let A (i : Nat) := (x.rac (ac i)).toInt; let Q (i : Nat) := (x.rd (4 * q.toNat + i)).toInt
     let big (i : Nat) := decide (P = -131072 ∧ Q i = -131072)
     let fm (i : Nat) : Int := if big i then 2 ^ 35 - 1 else 2 * (P * Q i)
     let all (r : Nat → Int) (sat : Nat → Bool) : List PendW := [0, 1, 2, 3].flatMap (fun i =>
       chained 2 (x.toAC (ac i) (BitVec.ofInt 54 (r i))) ::
         (x.toSticky (decide ((BitVec.ofInt 54 (r i)).toInt ≠ r i)) (sat i)).map (owed 2))
     Retires (.mpyQ a g p q) s a [] (all (fun i => P * Q i) fun _ => false) ∧
     Retires (.macQ a g p q) s a [] (all (fun i => A i + P * Q i) fun _ => false) ∧
     Retires (.msuQ a g p q) s a [] (all (fun i => A i - P * Q i) fun _ => false) ∧
     Retires (.mpyfQ a g p q) s a [] (all fm big) ∧
     Retires (.macfQ a g p q) s a [] (all (fun i => A i + fm i) big) ∧
     Retires (.msufQ a g p q) s a [] (all (fun i => A i - fm i) big))

/-- The accumulator operations (R112, R168, R192): clears, sums, shifts by −32 to 31 with the floor, negation, magnitude, saturation to 36
bits, rounding, and the moves from D. -/
def Obligations.AccumulatorOperations : Prop :=
  ∀ (s : State) (a : At) (acd acs : BitVec 3) (imm : BitVec 6) (d : BitVec 4), Lone s a [2, 3] →
    let x := s.engOf a; let A := (x.rac acd.toNat).toInt; let B := (x.rac acs.toNat).toInt; let k := imm.toInt
    let out (r : Int) (sat : Bool) : List PendW := chained 2 (x.toAC acd.toNat (BitVec.ofInt 54 r)) ::
      (x.toSticky (decide ((BitVec.ofInt 54 r).toInt ≠ r)) sat).map (owed 2)
    let clip := max (-(2 ^ 35)) (min (2 ^ 35 - 1) B)
    Retires (.clra a acd) s a [] [chained 2 (x.toAC acd.toNat 0)] ∧
    Retires (.addac a acd acs) s a [] (out (A + B) false) ∧ Retires (.subac a acd acs) s a [] (out (A - B) false) ∧
    Retires (.shac a acd acs imm) s a [] (out (if 0 ≤ k then B * 2 ^ k.toNat else B / 2 ^ k.natAbs) false) ∧
    Retires (.negac a acd acs) s a [] (out (-B) false) ∧ Retires (.absac a acd acs) s a [] (out B.natAbs false) ∧
    Retires (.satac a acd acs) s a [] (chained 2 (x.toAC acd.toNat (BitVec.ofInt 54 clip)) :: (x.toSticky false (decide (clip ≠ B))).map (owed 2)) ∧
    Retires (.rndac a acd acs) s a [] (chained 2 (x.toAC acd.toNat (BitVec.ofInt 54 ((B + 131072) / 262144 * 262144))) ::
      (x.toSticky (decide ((BitVec.ofInt 54 (B + 131072)).toInt ≠ B + 131072)) false).map (owed 2)) ∧
    Retires (.mvdah a acd d) s a [] [chained 2 (x.toAC acd.toNat (BitVec.ofInt 54 ((x.rd d.toNat).toInt * 262144)))] ∧
    (d.toNat % 2 = 0 → Retires (.mvda a acd d) s a []
      [chained 2 (x.toAC acd.toNat (BitVec.ofInt 54 (x.rd (d.toNat + 1) ++ x.rd d.toNat : W36).toInt))])

/-- The local loads (R177 to R180): good words at the direct, post-modified or indexed address, with an extension where one donates, are in
their registers three bundles later; a post-modified An is there for the next bundle. -/
def Obligations.LocalLoads : Prop :=
  ∀ (s : State) (a : At) (d : BitVec 4) (e n mode : BitVec 3) (imm : BitVec 8) (off : BitVec 6),
    let x := s.engOf a; let even := d.toNat % 2 = 0
    let dir := x.directAt a imm; let ptr := (x.ra n.toNat).toNat; let idx := (ptr + uimmOf a off) % 65536
    let next (k : Nat) := (k + 1) % 65536
    let one (i k : Nat) : List PendW := [owed 2 (x.toD i (x.atL k))]
    let two (i k : Nat) : List PendW := [owed 2 (x.toD i (x.atL k)), owed 2 (x.toD (i + 1) (x.atL (next k)))]
    (LoneX s a [0, 1] →
      (x.goodL dir = true → Retires (.ld a d imm) s a [] (one d.toNat dir)) ∧
      (even → x.goodL dir = true → x.goodL (next dir) = true → Retires (.ldD a d imm) s a [] (two d.toNat dir)) ∧
      (x.goodL idx = true →
        Retires (.ldxL a e n off) s a [] (one e.toNat idx) ∧ Retires (.ldxH a e n off) s a [] (one (e.toNat + 8) idx))) ∧
    (Lone s a [0, 1] → x.goodL ptr = true →
      (∀ v ∈ x.postA n mode 1, Retires (.ldp a d n mode 0) s a [x.toA n.toNat v] (one d.toNat ptr) ∧
        Retires (.ldam a d n mode 0) s a [x.toA n.toNat v] [owed 2 (if d.toNat < 8 then x.toA d.toNat ((x.atL ptr).setWidth 16)
          else x.toM (d.toNat - 8) ((x.atL ptr).setWidth 16))]) ∧
      (∀ v ∈ x.postA n mode 2, even → x.goodL (next ptr) = true →
        Retires (.ldp a d n mode 1) s a [x.toA n.toNat v] (two d.toNat ptr)))

/-- The local stores (R87, R177 to R180, R254): the registers of before the bundle, each word with its signature bits, at the direct,
post-modified or indexed address; A is zero-extended and M sign-extended. -/
def Obligations.LocalStores : Prop :=
  ∀ (s : State) (a : At) (d : BitVec 4) (e n mode : BitVec 3) (imm : BitVec 8) (off : BitVec 6),
    let x := s.engOf a; let even := d.toNat % 2 = 0
    let dir := x.directAt a imm; let ptr := (x.ra n.toNat).toNat; let idx := (ptr + uimmOf a off) % 65536
    let next (k : Nat) := (k + 1) % 65536
    let am : W18 := if d.toNat < 8 then BitVec.ofNat 18 (x.ra d.toNat).toNat else BitVec.ofInt 18 (x.rm (d.toNat - 8)).toInt
    let one (y : Eng) (k : Nat) (v : W18) : Eng := { y with lmem := x.lmem.set 0 k (enc18 v), pc := x.pc + 1 }
    let two (y : Eng) (k : Nat) : Eng := { y with
      lmem := (x.lmem.set 0 k (enc18 (x.rd d.toNat))).set 0 (next k) (enc18 (x.rd (d.toNat + 1))), pc := x.pc + 1 }
    (LoneX s a [0, 1] →
      (s.mayStore a [dir] = true → LeavesEng (.st a d imm) s a (one x dir (x.rd d.toNat))) ∧
      (even → s.mayStore a [dir, next dir] = true → LeavesEng (.stD a d imm) s a (two x dir)) ∧
      (s.mayStore a [idx] = true →
        LeavesEng (.stxL a e n off) s a (one x idx (x.rd e.toNat)) ∧ LeavesEng (.stxH a e n off) s a (one x idx (x.rd (e.toNat + 8))))) ∧
    (Lone s a [0, 1] →
      (∀ v ∈ x.postA n mode 1, s.mayStore a [ptr] = true →
        LeavesEng (.stp a d n mode 0) s a (one (x.put (x.toA n.toNat v)) ptr (x.rd d.toNat)) ∧
        LeavesEng (.stam a d n mode 0) s a (one (x.put (x.toA n.toNat v)) ptr am)) ∧
      (∀ v ∈ x.postA n mode 2, even → s.mayStore a [ptr, next ptr] = true →
        LeavesEng (.stp a d n mode 1) s a (two (x.put (x.toA n.toNat v)) ptr)))

/-- The address registers (R180): MVIA, ADDIA, MOVA, MOVM, SETBS and SETLN, and NOP, which only lets the PC move on (R102). -/
def Obligations.AddressRegisters : Prop :=
  ∀ (s : State) (a : At) (n : BitVec 3) (d : BitVec 4) (imm : BitVec 9),
    let x := s.engOf a; let v : BitVec 16 := BitVec.ofNat 16 (x.rd d.toNat).toNat
    (LoneX s a [0, 1] →
      Retires (.mvia a n imm) s a [x.toA n.toNat (BitVec.ofNat 16 (uimmOf a imm))] [] ∧
      Retires (.addia a n imm) s a [x.toA n.toNat (BitVec.ofInt 16 ((x.ra n.toNat).toNat + simmOf a imm))] []) ∧
    (Lone s a [0, 1] → Retires (.mova a n d) s a [x.toA n.toNat v] [] ∧ Retires (.movm a n d) s a [x.toM n.toNat v] [] ∧
      Retires (.setbs a n d) s a [.bs n.toNat v] [] ∧ Retires (.setln a n d) s a [.ln n.toNat v] []) ∧
    (Lone s a [0, 1, 2, 3, 4, 5, 6, 7] → Retires (.nop a) s a [] [])

/-- FETCH and STOW (R35, R182, R183), after the checks of R296: the transfer of the length in Ddl is in progress between the address that DDv
translates to and local memory at An, one access for each sixteen words crosses to another die, and the done bit is clear; a length of 0 moves
nothing, and its done bit is due when the next bundle has issued. -/
def Obligations.RangeTransfers : Prop :=
  ∀ (s : State) (a : At) (v n dl tag : BitVec 3) (pa : Nat) (side : Bool), Lone s a [0, 1] →
    let x := s.engOf a; let len := (x.rd dl.toNat).toNat % 65536; let va := x.ddv v
    let req (w : Bool) : FarReq := ⟨va, (va + (len - 1)) % 2 ^ 36, w, false, true, true⟩
    let parts : List Nat := (List.range ((len + 15) / 16)).map (fun i => pa + 16 * i)
    let go (k : XferKind) (y : Eng) (ks : List Nat) : Eng := { y with
      bits := x.bits.set false (32 + tag.toNat) false, pc := x.pc + 1
      zdone := if len = 0 then [tag.toNat] else []
      xfers := if len = 0 then [] else [⟨tag.toNat, k, pa, x.ra n.toNat, len, [], x.epoch, [], ks, false⟩] }
    (s.farLands a (req false) pa side → s.noConst a = true →
      LeavesAcross (.fetch a v n dl tag) s a parts true (go .fetch) (fun u => u.counted a)) ∧
    (s.farLands a (req true) pa side → LeavesAcross (.stow a v n dl tag) s a parts true (go .stow) (fun u => u.counted a)) ∧
    (x.xfers = [] → x.pmws = [] → ({ x with zdone := [tag.toNat] }.aged [tag.toNat] [] x.carry).bits.get false (32 + tag.toNat) = true)

/-- FETCH.LF and STOW.LF (R76, R182 to R184): a run that owns the leaf reads its read side and writes its write side, at the offset in
D(2v), where the range fits the side and the bank is ON and admits the engine. FETCH.B and STOW.B (R182 to R184): the 128 words of a
block that the run holds or allocated, while its bank is ON. -/
def Obligations.LeafAndBlockTransfers : Prop :=
  (∀ (s : State) (a : At) (v n dl tag : BitVec 3) (l : Leaf) (i : Nat) (again : Bool), Lone s a [0, 1] →
     let x := s.engOf a; let len := (x.rd dl.toNat).toNat % 65536
     let num := (x.rd (2 * v.toNat + 1)).toNat % 16384; let ofs := (x.rd (2 * v.toNat)).toNat
     let pa (write : Bool) := bankPa a.die.val 0 ((if write = l.side then l.recto else l.verso) + ofs)
     let open_ (write : Bool) : Prop := s.f F.SHM_PWR.PSTAT (paDie (pa write)) [paBank (pa write)] = 0 ∧ s.admits a.die.val a.eng.val (pa write) = true
     let go (k : XferKind) (write : Bool) : Eng := { x with
       bits := x.bits.set false (32 + tag.toNat) false, pc := x.pc + 1
       zdone := if len = 0 then [tag.toNat] else []
       xfers := if len = 0 then [] else [⟨tag.toNat, k, pa write, x.ra n.toNat, len, [], x.epoch, [], [], false⟩] }
     (∀ w, paDie (pa w) = a.die.val ∧ paDie (pa w + len) = a.die.val) →
     x.run = .folio i again → s.leaves.get .zero (16384 * a.die.val + num) = l → l.v = true → l.eng = a.eng.val → l.entry = i →
     ofs + max len 1 ≤ l.len →
     (open_ false → s.noConst a = true → LeavesEng (.fetchLf a v n dl tag) s a (go .fetch false)) ∧
     (open_ true → LeavesEng (.stowLf a v n dl tag) s a (go .stow true))) ∧
  (∀ (s : State) (a : At) (d : BitVec 4) (n tag : BitVec 3), Lone s a [0, 1] →
     let x := s.engOf a; let h := (x.rd d.toNat).toNat; let pa := s.blkPa a.die.val h
     let go (k : XferKind) : Eng := { x with bits := x.bits.set false (32 + tag.toNat) false, pc := x.pc + 1
                                             xfers := [⟨tag.toNat, k, pa, x.ra n.toNat, 128, [], x.epoch, [], [], false⟩] }
     s.validH a.die.val h = true → x.work.has (BitVec.ofNat 16 h) = true → x.run ≠ .idle → s.f F.SHM_PWR.PSTAT a.die.val [paBank pa] = 0 →
     (s.noConst a = true → LeavesEng (.fetchB a d n tag) s a (go (.fetchB (BitVec.ofNat 16 h)))) ∧
     LeavesEng (.stowB a d n tag) s a (go (.stowB (BitVec.ofNat 16 h))))

/-- LDF, LDF.D, STF and STF.D (R33, R35, R182, R188, R189, R310, R311), after the checks of R296: a load waits on its way, across the spine where
another die serves it, and holds the engine, with the words of a lone buffered store of the same words forwarded; a store enters the buffer, or is
lost with bit 41 set when the buffer is full. -/
def Obligations.FarLoadsAndStores : Prop :=
  ∀ (s : State) (a : At) (d : BitVec 4) (v : BitVec 3) (pa : Nat) (side : Bool) (b : SbEnt), Lone s a [0, 1] →
    let x := s.engOf a; let va := x.ddv v; let i := physD x.sh d.toNat
    let req (w dbl : Bool) : FarReq := ⟨va, va, w, dbl, false, false⟩
    let wait (k : FarKind) (f : Option (List W18)) (y : Eng) (ks : List Nat) : Eng := { y with
      far := [{ kind := k, pa := pa, sh := x.sh, fwd := f, waits := side, epoch := x.epoch, upTo := x.sbN, toks := ks, pc := x.pc, host := s.aperHost pa }]
      pc := x.pc + 1 }
    let away (c : Instr) (k : FarKind) : Prop := LeavesAcross c s a [pa] true (wait k none) (fun u => u.counted a)
    let buf (l : List W18) (y : Eng) (ks : List Nat) : Eng := { y with
      sbuf := x.sbuf ++ [{ pa := pa, words := l, bad := false, epoch := x.epoch, seq := x.sbN, toks := ks, host := s.aperHost pa }]
      sbN := x.sbN + 1, pc := x.pc + 1 }
    let post (c : Instr) (l : List W18) : Prop :=
      (x.sbuf.length < 8 → LeavesAcross c s a [pa] false (buf l) (fun u => u.counted a)) ∧
      (8 ≤ x.sbuf.length → LeavesEng c s a { x with bits := x.bits.set false 41 true, pc := x.pc + 1 })
    (s.farLands a (req false false) pa side →
      (x.sbuf = [] → away (.ldf a d v) (.word i)) ∧
      (x.sbuf = [b] → b.pa = pa → b.words.length = 1 → b.bad = false → side = false → LeavesEng (.ldf a d v) s a (wait (.word i) (some b.words) x []))) ∧
    (s.farLands a (req false true) pa side → d.toNat % 2 = 0 → x.sbuf = [] → away (.ldfD a d v) (.double i)) ∧
    (s.farLands a (req true false) pa side → post (.stf a d v) [x.rd d.toNat]) ∧
    (s.farLands a (req true true) pa side → d.toNat % 2 = 0 → post (.stfD a d v) [x.rd d.toNat, x.rd (d.toNat + 1)])

/-- What a far access finds (R283, R294 to R296): with one first-level data copy, that holds the address, grants the right and the mode, and
maps to a located word of package memory whose bank is ON and admits the engine, the access reaches the page's physical address with the
offset of the virtual one. -/
def Obligations.FarTranslation : Prop :=
  ∀ (s : State) (a : At) (va i : Nat) (e : TlbEnt) (write : Bool),
    let x := s.engOf a; let page := 2 ^ e.ps.toNat; let pa := e.ppn.toNat * 64 / page * page + va % page
    x.dtlb = [some ⟨i, e⟩] → e.v = true → e.perr = false → e.vpn.toNat * 64 / page = va / page → (e.g = true ∨ e.asid = x.asid) →
    6 ≤ e.ps.toNat → e.ps.toNat ≤ 36 → e.space = 0 → (if write then e.w else e.r) = true → (e.u = true ∨ x.user = false) →
    va < 68719472640 → s.live (paDie pa) = true → paShared pa = true → s.f F.SHM_PWR.PSTAT (paDie pa) [paBank pa] = 0 →
    s.admits a.die.val a.eng.val pa = true →
    s.farLands a ⟨va, va, write, false, false, false⟩ pa e.se

/-- The control transfers (R118, R122, R202, R203): the target, or none where the condition is false, waits for two delay slots; CALL and
CALLI write the PC of bundle t + 3 to D15 and push it; RET takes D15 and pops; BRI and CALLI that were predicted right enter their
target in the table and the history; RETI, which is privileged, goes to EPC. A misprediction costs counts alone (R121 to R126): BRI,
CALLI and RET reach the same place, a table or stack entry in error being a misprediction (R375); ENG_MISP rises by one, and ENG_WPF and
ENG_PMBANK by the wrong-path bundles, at most four. Two delay
slots (R118, R203): after BR, two NOP bundles issue at the next two addresses and then the target does. -/
def Obligations.ControlTransfers : Prop :=
  (∀ (s : State) (a : At) (imm : BitVec 12) (cond d : BitVec 4) (disp : BitVec 8), Lone s a [7] →
     let x := s.engOf a; let near := BitVec.ofInt 12 (x.pc.toNat + disp.toInt); let t : BitVec 12 := BitVec.ofNat 12 (x.rd d.toNat).toNat
     let back : BitVec 12 := x.pc + 3; let f := x.flags
     let go (y : Eng) (k : JKind) (goal : Option (BitVec 12)) : Eng := { y with br := some ⟨2, goal, k⟩, pc := x.pc + 1 }
     let c := f.getLsbD 0; let z := f.getLsbD 1; let n := f.getLsbD 2; let v := f.getLsbD 3
     let holds := [z, !z, c, !c, n, !n, v, !v, !z && (n == v), n == v, n != v, z || n != v, c && !z, !c || z, f.getLsbD 5, true].getD cond.toNat true
     let bit (i : Nat) : Bool := if i = 40 then decide (x.sbuf.length < 8) else if i = 44 then x.sbuf.isEmpty
       else if 16 ≤ i ∧ i < 32 then false else x.bits.get false i
     let b := bit ((x.rd d.toNat).toNat % 4096)
     let called : Eng := { x.put (x.toD 15 (BitVec.ofNat 18 back.toNat)) with rstack := ((back, false) :: x.rstack).take 8 }
     let six (w : BitVec 12) (k : Nat) : BitVec 6 := (BitVec.ofNat 6 w.toNat).rotateLeft k
     let slot := (BitVec.ofNat 6 x.pc.toNat ^^^ six (x.hist.getD 0 0) 0 ^^^ six (x.hist.getD 1 0) 1 ^^^ six (x.hist.getD 2 0) 2 ^^^ six (x.hist.getD 3 0) 3).toNat
     let seen (y : Eng) : Eng := { y with itab := x.itab.set none slot (some t), hist := t :: x.hist.take 3 }
     let r15 : BitVec 12 := BitVec.ofNat 12 (x.rd 15).toNat
     LeavesEng (.br a imm) s a (go x .br (some imm)) ∧ LeavesEng (.call a imm) s a (go called .call (some imm)) ∧
     LeavesEng (.brcc a cond disp) s a (go x .br (if holds then some near else none)) ∧
     LeavesEng (.brbs a d disp) s a (go x .br (if b then some near else none)) ∧
     LeavesEng (.brbc a d disp) s a (go x .br (if b then none else some near)) ∧
     (x.itab.get none slot = some t → x.itabBad.contains slot = false →
       LeavesEng (.bri a d) s a (go (seen x) .br (some t)) ∧ LeavesEng (.calli a d) s a (go (seen called) .call (some t))) ∧
     (x.rstack.head? = some (r15, false) → LeavesEng (.ret a) s a (go { x with rstack := x.rstack.tail } .ret (some r15))) ∧
     (x.user = false → LeavesEng (.reti a) s a (go x (.reti x.epc2) (some x.epc)))) ∧
  (∀ (s : State) (a : At) (d : BitVec 4), Lone s a [7] →
     let x := s.engOf a; let t : BitVec 12 := BitVec.ofNat 12 (x.rd d.toNat).toNat; let r15 : BitVec 12 := BitVec.ofNat 12 (x.rd 15).toNat
     let slot := (BitVec.ofNat 6 x.pc.toNat ^^^ histHash x.hist).toNat
     let costs (f : Fld) (k : Nat) : State :=
       ((s.countedOn a k).incF f a.die.val [a.eng.val]).addF F.ENG_WPF.COUNT a.die.val [a.eng.val] k
     (x.itab.get none slot ≠ some t ∨ x.itabBad.contains slot = true → ∃ k ≤ 4, LeavesWith (.bri a d) s a
       { x with itab := x.itab.set none slot (some t), itabBad := x.itabBad.filter (fun j => decide (j ≠ slot)), hist := t :: x.hist.take 3,
                br := some ⟨2, some t, .br⟩, gap := true, pc := x.pc + 1 }
       (costs F.ENG_MISP.IND k)) ∧
     (x.itab.get none slot ≠ some t ∨ x.itabBad.contains slot = true → ∃ k ≤ 4, LeavesWith (.calli a d) s a
       { x.put (x.toD 15 (BitVec.ofNat 18 (x.pc + 3).toNat)) with
                rstack := ((x.pc + 3, false) :: x.rstack).take 8, itab := x.itab.set none slot (some t)
                itabBad := x.itabBad.filter (fun j => decide (j ≠ slot)), hist := t :: x.hist.take 3
                br := some ⟨2, some t, .call⟩, gap := true, pc := x.pc + 1 }
       (costs F.ENG_MISP.IND k)) ∧
     (x.rstack.head? ≠ some (r15, false) → ∃ k ≤ 4, LeavesWith (.ret a) s a
       { x with rstack := x.rstack.tail, br := some ⟨2, some r15, .ret⟩, gap := true, pc := x.pc + 1 } (costs F.ENG_MISP.RET k))) ∧
  (∀ (s : State) (a : At) (imm : BitVec 12), Lone s a [7] →
     let x := s.engOf a
     x.user = false → x.loops = [] → (∀ k, okBundle (x.pmem.get 0 k) = true) →
     ∃ t u w, exec (.br a imm) s = .next t ∧ exec (.nop a) t = .next u ∧ exec (.nop a) u = .next w ∧
       (t.engOf a).pc = x.pc + 1 ∧ (u.engOf a).pc = x.pc + 2 ∧ (w.engOf a).pc = imm ∧ (w.engOf a).br = none)

/-- LOOP, LOOPI, RPT and RPTR (R127 to R129, R133 to R135, R156, R203): a loop of a count above 0 is pushed with its START and END, or traps with
LOOPOVF when four are active, and one of count 0 is skipped whole; a repeat latches its count, or traps with ILLBUN before a bundle that must not
be repeated; RPTR of 0 skips the next bundle (before such a bundle too: the model's choice, log entry 143) and RPTR of more than 64 traps with
RPTCNT. -/
def Obligations.LoopsAndRepeats : Prop :=
  ∀ (s : State) (a : At) (d : BitVec 4) (len : BitVec 8) (cnt l6 : BitVec 6) (k : BitVec 7), Lone s a [7] →
    let x := s.engOf a; let n := (x.rd d.toNat).toNat % 4096
    let push (k : Instr) (c l : Nat) : Prop := if c = 0 then LeavesStopped k s a { x with pc := x.pc + BitVec.ofNat 12 (l + 2) }
      else LeavesEng k s a { x with loops := ⟨BitVec.ofNat 12 c, x.pc + BitVec.ofNat 12 (l + 1), x.pc + 1⟩ :: x.loops, pc := x.pc + 1 }
    let rep (n : Nat) : Eng := if n = 0 then { x with pc := x.pc + 2 } else { x with rpt := some n, pc := x.pc + 1 }
    let next := dataBundle (x.pmem.get 0 ((if x.half then 4096 else 0) + (x.pc + 1).toNat))
    (len ≠ 0 → (n = 0 ∨ x.loops.length < 4) → push (.loop a d len) n len.toNat) ∧
    (l6 ≠ 0 → (cnt = 0 ∨ x.loops.length < 4) → push (.loopi a cnt l6) cnt.toNat l6.toNat) ∧
    (noRepeat next = false → (1 ≤ k.toNat → k.toNat ≤ 64 → LeavesEng (.rpt a k) s a (rep k.toNat)) ∧
      (x.rc.toNat ≤ 64 → LeavesEng (.rptr a) s a (rep x.rc.toNat))) ∧
    (noRepeat next = true → (x.rc = 0 → LeavesEng (.rptr a) s a (rep 0)) ∧ (x.sh = false →
      (1 ≤ k.toNat → k.toNat ≤ 64 → Traps (.rpt a k) s a .illbun (x.trapped x.pc .illbun 7)) ∧
      (x.rc ≠ 0 → Traps (.rptr a) s a .illbun (x.trapped x.pc .illbun 7)))) ∧
    (noRepeat next = false → x.sh = false → 64 < x.rc.toNat → Traps (.rptr a) s a .rptcnt (x.trapped x.pc .rptcnt 7)) ∧
    (x.sh = false → x.loops.length = 4 →
      (len ≠ 0 → n ≠ 0 → Traps (.loop a d len) s a .loopovf (x.trapped x.pc .loopovf 7)) ∧
      (l6 ≠ 0 → cnt ≠ 0 → Traps (.loopi a cnt l6) s a .loopovf (x.trapped x.pc .loopovf 7)))

/-- ENQ and REL (R204, R207): the first of them that a run makes of a block it holds or allocated joins the run's work, one of handle 0 does
nothing, and one of any other block is ignored and counted in KEN_BADOP. -/
def Obligations.EnqueueAndRelease : Prop :=
  ∀ (s : State) (a : At) (d : BitVec 4) (v : BitVec 3) (i : Nat) (again : Bool), Lone s a [7] →
    let x := s.engOf a; let h := (x.rd d.toNat).toNat; let b : BitVec 16 := BitVec.ofNat 16 h; let q := x.ddv v; let w := x.work
    let on : Eng := { x with pc := x.pc + 1 }
    x.run = .folio i again → q < 1048576 → q / 131072 < s.variant.dies →
    (h ≠ 0 → h < s.slots a.die.val → w.has b = true → w.used b = false →
      LeavesEng (.enq a d v) s a { on with work := { w with enq := w.enq ++ [(b, q)] } } ∧
      LeavesEng (.rel a d) s a { on with work := { w with rel := w.rel ++ [b] } }) ∧
    (h = 0 → LeavesEng (.enq a d v) s a on ∧ LeavesEng (.rel a d) s a on) ∧
    (h ≠ 0 → h < s.slots a.die.val → (w.has b = false ∨ w.used b = true) →
      let u := (s.incF F.KEN_BADOP.COUNT a.die.val []).counted a
      LeavesWith (.enq a d v) s a on u ∧ LeavesWith (.rel a d) s a on u)

/-- DEQ and ALLOC (R204 to R207, R328, R345, R389): the oldest committed block that no run holds becomes HELD, or a FREE block TENT, its handle comes with
Z = 0 after eight bundles, and the run's work has it; with none to give, of a closed queue or in the idle folio the handle is 0 and Z 1; so it is of
a port queue, which also sets QUE_EV.PORTDEQ. A queue whose words are in error in both arrays stops the die (R389). DEQ of what is no queue
of the engine's own die traps with cause QADDR, in the idle folio too. -/
def Obligations.DequeueAndAllocate : Prop :=
  ∀ (s : State) (a : At) (d : BitVec 4), Lone s a [7] →
    let x := s.engOf a; let D := a.die.val; let w := x.work
    let gives (n : Nat) (work : Work) : Eng := { x with pc := x.pc + 1, work := work
                                                        pw := [owed 7 (x.toD d.toNat (BitVec.ofNat 18 n)), owed 7 (.fl x.sh 2 (if n = 0 then 2 else 0))] }
    let frame (t : State) (h : Nat) : Prop := Same s t (RegName.KEN_STAT.cell D [] :: RegName.KEN_FREEMIN.cell D [] :: RegName.ENG_PMBANK.cell D [a.eng.val] ::
      (List.range 80).map (fun k => RegName.KEN_LACT.cell D [k])) [64 * D + a.eng.val] [D] { s with blks := t.blks, ques := t.ques } ∧
      (∀ k, k ≠ h → t.blk D k = s.blk D k)
    (∀ h : Nat, x.run ≠ .idle → s.pickFree D = some h → 0 < h → h < 65536 → Nexts (.alloc a d) s (fun t =>
      t.engOf a = (gives h { w with alloc := w.alloc ++ [BitVec.ofNat 16 h] }).sampled x ∧ (t.blk D h).st = .tent ∧ t.ques = s.ques ∧ frame t h)) ∧
    (x.run = .idle ∨ s.pickFree D = none → LeavesEng (.alloc a d) s a (gives 0 w)) ∧
    (∀ v : BitVec 3, let q := x.ddv v; let front := (s.que q).com.find? (fun e => !e.held && !e.gone)
      (q < 1048576 → q / 131072 = D →
        (x.run ≠ .idle → s.queOpen q = true → s.portQueue q = false → s.rowsLost q = true → Nexts (.deq a d v) s (fun t => (t.die D).stopped = true)) ∧
        (∀ e, x.run ≠ .idle → s.queOpen q = true → s.portQueue q = false → s.rowsLost q = false → front = some e → 0 < e.h.toNat → Nexts (.deq a d v) s (fun t =>
          t.engOf a = (gives e.h.toNat { w with held := w.held ++ [(e.h, q)] }).sampled x ∧ (t.blk D e.h.toNat).st = .held ∧
          (t.que q).com = markEnt e.h.toNat (fun z => { z with held := true }) (s.que q).com ∧ (t.que q).pend = (s.que q).pend ∧
          (∀ k, k ≠ q → t.que k = s.que k) ∧ frame t e.h.toNat)) ∧
        (x.run = .idle ∨ (s.portQueue q = false ∧ (s.queOpen q = false ∨ (front = none ∧ (s.die D).qbad = []))) → LeavesEng (.deq a d v) s a (gives 0 w)) ∧
        (x.run ≠ .idle → s.portQueue q = true → ∃ t, exec (.deq a d v) s = .next t ∧
          Retired s t a ((gives 0 w).sampled x) ((s.counted a).raise F.QUE_EV.PORTDEQ D []))) ∧
      (1048576 ≤ q ∨ q / 131072 ≠ D → x.sh = false → Traps (.deq a d v) s a .qaddr (x.trapped x.pc .qaddr 7)))

/-- The shared-bit operations (R188, R208): one indivisible access to bit Dd[15:0] is on its way and holds the engine; the three that write
are privileged. -/
def Obligations.SharedBitOperations : Prop :=
  ∀ (s : State) (a : At) (d : BitVec 4), Lone s a [7] →
    let x := s.engOf a
    let wait (set : Option Bool) (flag : Bool) : Eng :=
      { x with far := [{ kind := .sbit (x.rd d.toNat).toNat set flag, pa := 0, sh := x.sh, fwd := none, waits := false, epoch := x.epoch, upTo := x.sbN,
                         toks := [], pc := x.pc }], pc := x.pc + 1 }
    LeavesEng (.sbtst a d) s a (wait none true) ∧
    (x.user = false → LeavesEng (.sbset a d) s a (wait (some true) false) ∧ LeavesEng (.sbclr a d) s a (wait (some false) false) ∧
      LeavesEng (.sbtas a d) s a (wait (some true) true))

/-- MVS and MTS (R105, R106, R209, R216): every system register by its number, LCn as a double, ST with the loop depth in LSP and only IE,
PMWA, BZ and PS writable, VL stored as at most 16, the read-only ones unchanged by a write; user code reads and writes those that R105
permits; a read of IVEC, TVEC or IMASK restores a copy in error (R375). -/
def Obligations.SystemRegisters : Prop :=
  ∀ (s : State) (a : At) (d : BitVec 4) (sys : BitVec 5), Lone s a [7] →
    let x := s.engOf a; let n := sys.toNat; let v := x.rd d.toNat; let bits (lo k : Nat) : Nat := v.toNat / 2 ^ lo % 2 ^ k
    let pend := ((List.range 16).map (fun i => if x.bits.get false i && x.imask.getLsbD i then 2 ^ i else 0)).sum
    let reads := [x.flags.toNat, x.st.toNat / 512 * 512 + 64 * x.loops.length + x.st.toNat % 64, x.rc.toNat, x.scnt.toNat, x.bxs.toNat,
      x.vl.toNat, x.vfi.toNat, 16, x.dbk.toNat, x.asid.toNat, x.epc.toNat, x.epc2.toNat, x.ecause.toNat, x.evah.toNat, x.eval.toNat,
      x.ivec.toNat, x.tvec.toNat, x.imask.toNat, pend, 0, 0, 0, 0, 64 * a.die.val + a.eng.val, s.fn a.die.val % 262144]
    let writes : List (List Wr) := [[.fl x.sh 0x7F (BitVec.ofNat 7 (bits 0 7))], [.st 0x3A v], [.rc v], [.scnt (BitVec.ofNat 16 (bits 0 16))],
      [.bxs (BitVec.ofNat 5 (bits 0 5))], [.vl (BitVec.ofNat 7 (min v.toNat 16))], [.vfi (BitVec.ofNat 6 (bits 0 6))], [],
      [.dbk (BitVec.ofNat 8 (bits 0 8))], [.asid (BitVec.ofNat 8 (bits 0 8))], [.epc (BitVec.ofNat 12 (bits 0 12))],
      [.epc2 (BitVec.ofNat 14 (bits 0 14))], [.ecause (BitVec.ofNat 18 (bits 0 11))], [.evah v], [.eval v], [.ivec (BitVec.ofNat 12 (bits 0 12))],
      [.tvec (BitVec.ofNat 12 (bits 0 12))], [.imask (BitVec.ofNat 16 (bits 0 16))], []]
    let loop := (x.loops[n - 19]?).map (fun l => l.count.toNat * 2 ^ 24 + l.stop.toNat * 2 ^ 12 + l.start.toNat)
    (x.loops.length ≤ 4 → x.st.toNat / 64 % 8 = 0 →
      (n < 19 ∨ 22 < n → x.user = false ∨ n ≤ 9 ∨ n = 23 ∨ n = 24 → LeavesEng (.mvs a d sys) s a
        { x.after [x.toD d.toNat (BitVec.ofNat 18 (reads.getD n 0))] [] with
          vecBad := if 15 ≤ n ∧ n ≤ 17 then x.vecBad.filter (fun k => decide (k ≠ n - 15)) else x.vecBad }) ∧
      (19 ≤ n → n ≤ 22 → d.toNat % 2 = 0 → Retires (.mvs a d sys) s a
        [x.toD d.toNat (BitVec.ofNat 18 (loop.getD 0)), x.toD (d.toNat + 1) (BitVec.ofNat 18 (loop.getD 0 / 262144))] [])) ∧
    (n < 19 ∨ n = 23 ∨ n = 24 → x.user = false ∨ n ∈ [0, 2, 3, 4, 8] → Retires (.mts a d sys) s a (writes.getD n []) []) ∧
    (19 ≤ n → n ≤ 22 → d.toNat % 2 = 0 → x.user = false → LeavesEng (.mts a d sys) s a { x with
      loops := if n - 19 < x.loops.length then x.loops.set (n - 19) ⟨BitVec.ofNat 12 ((x.rd (d.toNat + 1)).toNat / 64),
        BitVec.ofNat 12 ((x.rd (d.toNat + 1)).toNat % 64 * 64 + v.toNat / 4096), BitVec.ofNat 12 (v.toNat % 4096)⟩ else x.loops
      pc := x.pc + 1 })

/-- TLBW, TLBWR and TLBR (R210, R291 to R293): the image in D8 to D15 of a good entry is the entry that the L2 TLB then holds, at Dd[6:0] or
at the lowest unpinned invalid index, and an entry reads back as its image; with every entry pinned TLBWR writes none, answers 3_FFFFh
and sets bit 45. An entry's image is eight words that determine it (R292): no field of a good entry is dropped. -/
def Obligations.TlbEntries : Prop :=
  (∀ (s : State) (a : At) (d : BitVec 4) (e : TlbEnt) (i : Nat), Lone s a [7] →
     let x := s.engOf a; let k := (x.rd d.toNat).toNat % 128
     let at_ (j : Nat) : TlbEnt := x.l2.get .zero j
     x.user = false →
     (6 ≤ e.ps.toNat → e.ps.toNat ≤ 36 → e.space ≠ 3 → e.perr = false → (List.range 8).map (fun j => x.rd (8 + j)) = e.words →
       LeavesEng (.tlbw a d) s a { x with l2 := x.l2.set .zero k e, pc := x.pc + 1 } ∧
       (i < 128 → (at_ i).pin = false → (at_ i).v = false → (∀ j < i, (at_ j).pin = true ∨ (at_ j).v = true) →
         LeavesEng (.tlbwr a d) s a { x.put (x.toD d.toNat (BitVec.ofNat 18 i)) with l2 := x.l2.set .zero i e, pc := x.pc + 1 })) ∧
     ((∀ j < 128, (at_ j).pin = true) → LeavesEng (.tlbwr a d) s a
       { x.put (x.toD d.toNat 0x3FFFF) with bits := x.bits.set false 45 true, pc := x.pc + 1 }) ∧
     ((at_ k).perr = false → Retires (.tlbr a d) s a ((List.range 8).map (fun j => x.toD (8 + j) ((at_ k).words.getD j 0))) [])) ∧
  (∀ (e f : TlbEnt), e.perr = false → f.perr = false → e.words = f.words → e = f)

/-- TLBP, TLBSYNC, TLBIA, TLBIV, TLBIT and WCINV (R210, R294, R302, R305): a probe answers the lowest matching index or 3_FFFFh, TLBSYNC drops every
first-level copy, the invalidations clear V of the entries they name with their first-level copies and of no other, and WCINV empties the walk cache.
A lookup mends every entry in error: an unpinned one is invalidated, a pinned one rewritten from its other copy (R375, R376). TWK (R299 to R302): one
directory lookup of the address in EVAH:EVAL at the entry that the descriptor in DDv selects; a walk-cache hit gives the entry and its address at once,
a miss reads it on its way, from memory or through an aperture, and holds the engine; space 01b traps with cause WALKDEV and a reserved descriptor
with DADDR. -/
def Obligations.TlbInvalidationAndWalk : Prop :=
  (∀ (s : State) (a : At) (d : BitVec 4) (v : BitVec 3), Lone s a [7] →
     let x := s.engOf a; let va := x.ddv v
     let hit (e : TlbEnt) : Bool := e.v && (!e.perr || e.pin) && decide (va / 2 ^ e.ps.toNat = e.vpn.toNat * 64 / 2 ^ e.ps.toNat) && (e.g || decide (e.asid = x.asid))
     let at_ (y : Eng) (j : Nat) : TlbEnt := y.l2.get .zero j
     let seen (e : TlbEnt) : TlbEnt := if e.perr then { e with perr := false, v := e.v && e.pin } else e
     let gone (c : Instr) (f : TlbEnt → TlbEnt) (l : Nat → Bool) (now : List Wr) : Prop := Nexts c s (fun t =>
       Retired s t a (({ now.foldl Eng.put x with l2 := (t.engOf a).l2, itlb := (t.engOf a).itlb, dtlb := (t.engOf a).dtlb, pc := x.pc + 1 } : Eng).sampled x)
         (s.counted a) ∧
       (∀ j, at_ (t.engOf a) j = if l j then { f (at_ x j) with v := false } else if j < 128 then f (at_ x j) else at_ x j) ∧
       (t.engOf a).itlb = x.itlb.map (fun o => o.filter (fun c => !l c.idx)) ∧ (t.engOf a).dtlb = x.dtlb.map (fun o => o.filter (fun c => !l c.idx)))
     x.user = false →
     gone (.tlbp a d v) seen (fun _ => false)
       [x.toD d.toNat (match (List.range 128).find? (fun j => hit (at_ x j)) with | some j => BitVec.ofNat 18 j | none => 0x3FFFF)] ∧
     LeavesEng (.tlbsync a) s a { x with itlb := [], dtlb := [], epoch := x.epoch + 1, pc := x.pc + 1 } ∧
     gone (.tlbia a) id (fun j => decide (j < 128)) [] ∧
     gone (.tlbiv a v) seen (fun j => decide (j < 128) && hit (at_ x j)) [] ∧
     gone (.tlbit a d) id (fun j => decide (j < 128 ∧ (at_ x j).g = false ∧ (at_ x j).asid = BitVec.ofNat 8 (x.rd d.toNat).toNat)) [] ∧
     LeavesEng (.wcinv a) s a { x with walk := [], pc := x.pc + 1 }) ∧
  (∀ (s : State) (a : At) (v : BitVec 3) (k : Nat) (w : W36), Lone s a [7] →
     let x := s.engOf a; let desc := x.ddv v; let va := x.evah.toNat * 262144 + x.eval.toNat
     let space := desc / 2 ^ 34; let base := desc / 2 ^ 11 % 2 ^ 23; let sh := desc / 16 % 64; let wid := desc % 16
     let pa := space * 2 ^ 36 + base * 8192 + 2 * (va / 2 ^ sh % 2 ^ wid); let p := s.landPa pa
     let cached := x.walk.find? (fun e => decide (e.1 = pa) && !e.2.2)
     let away (waits : Bool) : Prop := LeavesAcross (.twk a v) s a [pa] true (fun y ks => { y with
       far := [{ kind := .walk (physD x.sh 8) (physD x.sh 9) (physD x.sh 10) (physD x.sh 11), pa := pa, sh := x.sh, fwd := none, waits := waits,
                 epoch := x.epoch, upTo := x.sbN, toks := ks, pc := x.pc, host := s.aperHost pa }], pc := x.pc + 1 }) (fun u => u.counted a)
     x.user = false →
     (desc / 1024 % 2 = 0 → 0 < wid → wid ≤ 12 → sh + wid ≤ 36 →
       ((space = 0 ∧ s.located p = true) ∨ space = 2 → cached = some (k, w, false) →
         Retires (.twk a v) s a [x.toD 8 (BitVec.ofNat 18 w.toNat), x.toD 9 (BitVec.ofNat 18 (w.toNat / 262144)),
           x.toD 10 (BitVec.ofNat 18 pa), x.toD 11 (BitVec.ofNat 18 (pa / 262144))] []) ∧
       (space = 0 → s.live (paDie p) = true → paShared p = true → s.f F.SHM_PWR.PSTAT (paDie p) [paBank p] = 0 → s.admits a.die.val a.eng.val p = true →
         cached = none → (∀ b ∈ x.sbuf, b.pa + b.words.length ≤ p ∨ p + 2 ≤ b.pa) → ok18 (s.word p) = true → ok18 (s.word (p + 1)) = true → away false) ∧
       (space = 2 → cached = none → s.aperOk false pa = true → away true) ∧
       (space = 2 → cached = none → s.aperOk false pa = false → x.sh = false → Traps (.twk a v) s a .daddr (x.trapped x.pc .daddr 7))) ∧
     (space = 1 → x.sh = false → Traps (.twk a v) s a .walkdev (x.trapped x.pc .walkdev 7)) ∧
     (space = 3 ∨ (space ≠ 1 ∧ (desc / 1024 % 2 = 1 ∨ wid = 0 ∨ 12 < wid ∨ 36 < sh + wid)) → x.sh = false →
       Traps (.twk a v) s a .daddr (x.trapped x.pc .daddr 7)))

/-- PMW, IFENCE and FEND (R71, R160 to R164, R211): a bundle of eight good local words waits to land in the half that Dd[12] selects, the
active half only while PMWA permits; IFENCE waits while such writes are on their way, which are one bundle older, and not where the last of them
lands as it issues; FEND of a user run ends its issue. -/
def Obligations.ProgramWrites : Prop :=
  ∀ (s : State) (a : At) (n : BitVec 3) (d : BitVec 4) (i : Nat) (again : Bool), Lone s a [7] →
    let x := s.engOf a; let A := (x.ra n.toNat).toNat; let t := (x.rd d.toNat).toNat
    let other := decide (t / 4096 % 2 = 1)
    let data : BitVec 144 := BitVec.ofNat 144 (((List.range 8).map (fun k => (x.atL (A + k)).toNat * 2 ^ (18 * k))).sum)
    (x.user = false → A % 8 = 0 → (other = true ∨ x.st.getLsbD 4 = true) → (∀ k < 8, x.goodL (A + k) = true) →
      LeavesEng (.pmw a n d) s a { x with pmws := [⟨xor x.half other, BitVec.ofNat 12 t, A, data, 0⟩], pc := x.pc + 1 }) ∧
    LeavesStopped (.ifence a) s a { x with fence := false, pc := x.pc + 1 } ∧
    (∀ l : List PmwEnt, l ≠ [] → (∀ p ∈ l, p.age < 7) →
      let u := s.setEng a.die.val a.eng.val { x with pmws := l }
      LeavesStopped (.ifence a) u a { x with pmws := l.map (fun p => { p with age := p.age + 1 }), fence := true, pc := x.pc + 1 }) ∧
    (∀ l : List PmwEnt, l ≠ [] → (∀ p ∈ l, p.age = 7) →
      let u := s.setEng a.die.val a.eng.val { x with pmws := l }
      LeavesStopped (.ifence a) u a { (l.map (fun p => { p with age := p.age + 1 })).foldl Eng.landPmw x with fence := false, pc := x.pc + 1 }) ∧
    (x.user = true → x.run = .folio i again → LeavesStopped (.fend a) s a { x with fend := true, pc := x.pc + 1 })

/-- SYSC, BKPT and RESERVED_OPCODE take their traps (R147, R154, R155, R157, R212, R213): EPC, ECAUSE and, for the first two, EVAH and EVAL
are written, ST changes as R147 gives and the handler at TVEC is next; the bundle with a reserved opcode is handed over in the shadow D8
to D15. A privileged operation in user mode traps with cause PRIV and has no other effect (R109, R147, R154, R155). -/
def Obligations.TrapsTaken : Prop :=
  (∀ (s : State) (a : At) (imm : BitVec 12) (syls : List W18) (i : Fin 8), s.solo a = true →
     let x := s.engOf a; let v : W18 := BitVec.ofNat 18 imm.toNat
     x.sh = false →
     (Lone s a [7] →
       Traps (.sysc a imm) s a .sysc { x.trapped (x.pc + 1) .sysc 7 with evah := 0, eval := v } ∧
       Traps (.bkpt a imm) s a .bkpt { x.trapped x.pc .bkpt 7 with evah := 0, eval := v }) ∧
     (reservedSlot syls = some i → Traps (.reservedOpcode a syls) s a .resop
       { x.trapped x.pc .resop i.val with d := (List.range 8).foldl (fun m k => m.set 0 (16 + k) (syls.getD k 0)) x.d })) ∧
  (∀ (s : State) (a : At) (d : BitVec 4) (v : BitVec 3), Lone s a [7] →
     let x := s.engOf a
     x.user = true → x.sh = false →
     ∀ c ∈ [Instr.reti a, .sbset a d, .sbclr a d, .sbtas a d, .tlbw a d, .tlbwr a d, .tlbr a d, .tlbp a d v, .tlbsync a, .tlbia a,
            .tlbiv a v, .tlbit a d, .twk a v, .wcinv a, .pmw a v d],
       Traps c s a .priv (x.trapped x.pc .priv 7))

/-- An interrupt and its RETI are invisible to the interrupted code (R143 to R149): the lowest line sampled in the cycle of the last issue (R136, R144,
R145) enters its handler with the state of R147, none enters where none was sampled, and RETI with two NOPs restores PC, mode, register set and every register but EPC, EPC2 and ST.PS; copies of IVEC and IMASK in
error are restored (R375), and at most ten bundles fetched behind the last one are counted (R165). -/
def Obligations.InterruptAndReturn : Prop :=
  ∀ (s : State) (a : At) (k n : Nat), Lone s a [7] →
    let x := s.engOf a; let at_ := BitVec.ofNat 12 (x.ivec.toNat / 16 * 16 + 16 * k)
    (x.smp = 0 → exec (.interruptEntry a.die a.eng n) s = .next s) ∧
    (x.user = false → x.sh = false → k < 16 → x.smp.getLsbD k = true → (∀ j < k, x.smp.getLsbD j = false) → x.loops = [] → x.farOld = [] → (∀ k, okBundle (x.pmem.get 0 k) = true) →
    let in_ : Eng := { x.entered x.pc at_ with vecBad := x.vecBad.filter (fun k => decide (k = 1)) }
    ∃ t u v w, exec (.interruptEntry a.die a.eng n) s = .next t ∧
      (∃ k ≤ 10, Retired s t a in_ (s.addF F.ENG_PMBANK.COUNT a.die.val [a.eng.val] k)) ∧
      exec (.reti a) t = .next u ∧ exec (.nop a) u = .next v ∧ exec (.nop a) v = .next w ∧
      w.engOf a = { in_ with pc := x.pc, st := putBit (putBit x.st 1 true) 5 true })

/-- VADD to VMAX, VUN, VSHI and VSHV (R215, R217, R223, R225, R226): lanes 0 to VL − 1 of the V register are there two bundles after the
issue, every other lane keeps its value, and no flag but SAT can change; a lane that saturates sets SAT. -/
def Obligations.VectorArithmetic : Prop :=
  ∀ (s : State) (a : At) (vd va vb : BitVec 4) (kind : BitVec 2) (amt : BitVec 5), Lone s a [6] →
    let x := s.engOf a; let ls := List.range (min x.vl.toNat 16)
    let A (i : Nat) : W18 := x.v.get 0 (16 * va.toNat + i); let B (i : Nat) : W18 := x.v.get 0 (16 * vb.toNat + i)
    let U (i : Nat) : W18 := x.v.get 0 (16 * vd.toNat + i)
    let sat (r : Int) : W18 := BitVec.ofInt 18 (max (-131072) (min 131071 r))
    let w (f : Nat → W18) : List PendW := [owed 1 (.v vd.toNat (ls.map (fun i => (i, f i))))]
    let satW (r : Nat → Int) : List PendW :=
      w (fun i => sat (r i)) ++ (x.toSticky false (ls.any (fun i => decide ((sat (r i)).toInt ≠ r i)))).map (owed 1)
    let bits (f : Bool → Bool → Bool) (P Q : W18) : W18 :=
      BitVec.ofNat 18 (((List.range 18).map (fun i => if f (P.getLsbD i) (Q.getLsbD i) then 2 ^ i else 0)).sum)
    let shift (P : W18) : W18 := match kind.toNat with
      | 0 => BitVec.ofInt 18 (P.toInt / 2 ^ amt.toNat)
      | 1 => BitVec.ofNat 18 (P.toNat / 2 ^ amt.toNat)
      | 2 => BitVec.ofNat 18 (P.toNat * 2 ^ amt.toNat)
      | _ => P.rotateLeft (amt.toNat % 18)
    let by_ (i : Nat) : Int := max (-31) (min 31 (B i).toInt)
    Retires (.vadd a vd va vb) s a [] (w fun i => A i + B i) ∧ Retires (.vsub a vd va vb) s a [] (w fun i => A i - B i) ∧
    Retires (.vadds a vd va vb) s a [] (satW fun i => (A i).toInt + (B i).toInt) ∧
    Retires (.vsubs a vd va vb) s a [] (satW fun i => (A i).toInt - (B i).toInt) ∧
    Retires (.vand a vd va vb) s a [] (w fun i => bits and (A i) (B i)) ∧
    Retires (.vor a vd va vb) s a [] (w fun i => bits or (A i) (B i)) ∧
    Retires (.vxor a vd va vb) s a [] (w fun i => bits xor (A i) (B i)) ∧
    Retires (.vmin a vd va vb) s a [] (w fun i => BitVec.ofInt 18 (min (A i).toInt (B i).toInt)) ∧
    Retires (.vmax a vd va vb) s a [] (w fun i => BitVec.ofInt 18 (max (A i).toInt (B i).toInt)) ∧
    Retires (.vun a vd va 0) s a [] (w A) ∧ Retires (.vun a vd va 1) s a [] (w fun i => ~~~(A i)) ∧
    Retires (.vun a vd va 2) s a [] (w fun i => -(A i)) ∧
    Retires (.vun a vd va 3) s a [] (w fun i => BitVec.ofNat 18 (A i).toInt.natAbs) ∧
    Retires (.vun a vd va 4) s a [] (satW fun i => -(A i).toInt) ∧ Retires (.vun a vd va 5) s a [] (satW fun i => (A i).toInt.natAbs) ∧
    Retires (.vun a vd va 6) s a [] (w fun i => BitVec.ofNat 18 (cls (A i))) ∧
    Retires (.vshi a vd kind amt) s a [] (w fun i => shift (U i)) ∧
    Retires (.vshv a vd va vb) s a [] (satW fun i => if 0 ≤ by_ i then (A i).toInt * 2 ^ (by_ i).toNat else (A i).toInt / 2 ^ (by_ i).natAbs)

/-- VBCST, VEXT, VINS, VSLD, the lane and reduced extremes, VBEXP, VNORM and VPF (R217, R223, R226, R227, R236): a strict improvement takes
a lane and its index; a reduction takes the lowest lane that holds the extreme, and with VL = 0 the values its row gives. -/
def Obligations.VectorMovesAndExtremes : Prop :=
  ∀ (s : State) (a : At) (d vd va p q : BitVec 4) (v dl : BitVec 3),
    let x := s.engOf a; let n := min x.vl.toNat 16; let ls := List.range n
    let P := x.rd p.toNat; let Q := x.rd q.toNat; let k := Q.toNat % 64
    let A (i : Nat) : W18 := x.v.get 0 (16 * va.toNat + i); let U (i : Nat) : W18 := x.v.get 0 (16 * vd.toNat + i)
    let w (f : Nat → W18) : List PendW := [owed 1 (.v vd.toNat (ls.map (fun i => (i, f i))))]
    let take (l : List Nat) : List PendW := [owed 1 (.v vd.toNat (l.map (fun i => (i, A i)))), owed 1 (.v (vd.toNat + 1) (l.map (fun i => (i, Q))))]
    let high : Int := ls.foldl (fun m i => max m (A i).toInt) (-131072)
    let low : Int := ls.foldl (fun m i => min m (A i).toInt) 131071
    let best (m : Int) : List PendW := [owed 1 (x.toD d.toNat (BitVec.ofInt 18 m)), owed 1 (x.toD (d.toNat + 1)
      (match ls.find? (fun i => decide ((A i).toInt = m)) with | some i => BitVec.ofNat 18 i | none => 0x3FFFF))]
    (Lone s a [6] →
      Retires (.vbcst a vd p) s a [] (w fun _ => P) ∧
      Retires (.vext a d va q) s a [] [owed 1 (x.toD d.toNat (if k < n then A k else 0))] ∧
      Retires (.vins a vd p q) s a [] (if k < n then [owed 1 (.v vd.toNat [(k, P)])] else []) ∧
      Retires (.vsld a vd va q) s a [] (w fun i => if i + 1 < n then A (i + 1) else Q) ∧
      Retires (.vbexp a va) s a [] [chained 1 (.bxs (BitVec.ofNat 5 (ls.foldl (fun m i => min m (cls (A i))) x.bxs.toNat)))] ∧
      Retires (.vnorm a vd va) s a [] (w fun i => BitVec.ofInt 18 ((A i).toInt * 2 ^ x.bxs.toNat)) ∧
      Retires (.vpf a v dl) s a [] [] ∧
      (vd.toNat % 2 = 0 → Retires (.vmaxi a vd va q) s a [] (take (ls.filter (fun i => decide ((U i).toInt < (A i).toInt)))) ∧
        Retires (.vmini a vd va q) s a [] (take (ls.filter (fun i => decide ((A i).toInt < (U i).toInt))))) ∧
      (d.toNat % 2 = 0 → Retires (.vrmaxi a d va) s a [] (best high) ∧ Retires (.vrmini a d va) s a [] (best low)))

/-- The vector multiplies and accumulator operations (R223 to R226): each lane as the scalar operation of R192, wrapped to 54 bits, three
bundles after the issue; the results are chained, SV says that a sum did not fit and SAT that a fractional product or part did not. -/
def Obligations.VectorAccumulators : Prop :=
  ∀ (s : State) (a : At) (vad vas part : BitVec 2) (vd va vb : BitVec 4) (imm : BitVec 6), Lone s a [6] →
    let x := s.engOf a; let n := min x.vl.toNat 16; let ls := List.range n; let k := imm.toInt
    let P (i : Nat) : Int := (x.v.get 0 (16 * va.toNat + i)).toInt
    let V (i : Nat) : Int := (x.v.get 0 (16 * vb.toNat + i)).toInt; let D (_ : Nat) : Int := (x.rd vb.toNat).toInt
    let T (i : Nat) : Int := (x.va.get 0 (16 * vad.toNat + i)).toInt; let S (i : Nat) : Int := (x.va.get 0 (16 * vas.toNat + i)).toInt
    let big (Q : Nat → Int) (i : Nat) : Bool := decide (P i = -131072 ∧ Q i = -131072)
    let fm (Q : Nat → Int) (i : Nat) : Int := if big Q i then 2 ^ 35 - 1 else 2 * (P i * Q i)
    let out (l : List Nat) (r : Nat → Int) (sat : Bool) : List PendW := chained 2 (.va vad.toNat (l.map (fun i => (i, BitVec.ofInt 54 (r i))))) ::
      (x.toSticky (l.any (fun i => decide ((BitVec.ofInt 54 (r i)).toInt ≠ r i))) sat).map (owed 2)
    let round (i : Nat) : Int := (S i + 131072) / 262144
    let m (i : Nat) : Int := if part = 0 then S i / 2 ^ 36 else if part = 1 then S i / 2 ^ 18 else if part = 2 then S i
      else max (-131072) (min 131071 (round i))
    Retires (.vmpy a vad va vb) s a [] (out ls (fun i => P i * V i) false) ∧
    Retires (.vmac a vad va vb) s a [] (out ls (fun i => T i + P i * V i) false) ∧
    Retires (.vmsu a vad va vb) s a [] (out ls (fun i => T i - P i * V i) false) ∧
    Retires (.vmpyf a vad va vb) s a [] (out ls (fm V) (ls.any (big V))) ∧
    Retires (.vmacf a vad va vb) s a [] (out ls (fun i => T i + fm V i) (ls.any (big V))) ∧
    Retires (.vmsuf a vad va vb) s a [] (out ls (fun i => T i - fm V i) (ls.any (big V))) ∧
    Retires (.vmpyfs a vad va vb) s a [] (out ls (fm D) (ls.any (big D))) ∧
    Retires (.vmacfs a vad va vb) s a [] (out ls (fun i => T i + fm D i) (ls.any (big D))) ∧
    Retires (.vmsufs a vad va vb) s a [] (out ls (fun i => T i - fm D i) (ls.any (big D))) ∧
    Retires (.vclra a vad) s a [] (out ls (fun _ => 0) false) ∧ Retires (.vadda a vad vas) s a [] (out ls (fun i => T i + S i) false) ∧
    Retires (.vsha a vad vas imm) s a [] (out ls (fun i => if 0 ≤ k then S i * 2 ^ k.toNat else S i / 2 ^ k.natAbs) false) ∧
    Retires (.vradd a vad vas) s a [] (out (if n = 0 then [] else [0]) (fun _ => (ls.map S).sum) false) ∧
    Retires (.vmva a vd vas part) s a [] (owed 1 (.v vd.toNat (ls.map (fun i => (i, BitVec.ofInt 18 (m i))))) ::
      (x.toSticky false (ls.any (fun i => decide (part = 3 ∧ m i ≠ round i)))).map (owed 1)) ∧
    Retires (.vmvda a vad va) s a [] (out ls (fun i => P i * 262144) false)

/-- The local vector accesses (R177, R223, R228 to R230): good words are in their lanes four bundles after the issue, stored words are those
of before it with their signature bits, a later element over an earlier one, the post-modified An lands at two bundles, the beats beyond the
second are counted as stalls and as V losses, and the elements of beat 1, each the second of its bank, are the ones that the next bundle meets. -/
def Obligations.LocalVectorAccess : Prop :=
  ∀ (s : State) (a : At) (vd vb : BitVec 4) (n m mode : BitVec 3) (u : BitVec 2) (k : Fin 4), Lone s a [6] →
    let x := s.engOf a; let N := min x.vl.toNat 16; let K := k.val + 1; let ls := List.range N
    let at_ (delta : Int) : Nat := (x.moved n.toNat delta).toNat
    let strip : List (Nat × Nat × Nat) := ls.flatMap (fun i => (List.range K).map (fun f => (vd.toNat + f, i, at_ (K * i + f : Nat))))
    let mm := (x.rm m.toNat).toInt
    let strided : List (Nat × Nat × Nat) := ls.map (fun i => (vd.toNat, i, at_ (i * mm)))
    let picked : List (Nat × Nat × Nat) := ls.map (fun i => (vd.toNat, i, ((x.ra n.toNat).toNat + (x.v.get 0 (16 * vb.toNat + i)).toNat) % 65536))
    let lost (l : List (Nat × Nat × Nat)) : State :=
      let b := (List.range 8).foldl (fun w j => max w (l.countP (fun e => decide (e.2.2 % 8 = j)))) 0 - 2
      ((s.addF F.ENG_STALL.CYCLES a.die.val [a.eng.val] b).addF F.ENG_LCF.COUNT a.die.val [a.eng.val, 2] b).counted a
    let beat (l : List (Nat × Nat × Nat)) (b : Nat) : List (Nat × Nat × Nat) :=
      ((List.range l.length).filter (fun i => decide ((l.take i).countP (fun e => decide (e.2.2 % 8 = (l.getD i (0, 0, 0)).2.2 % 8)) = b))).map
        (fun i => l.getD i (0, 0, 0))
    let word (e : Nat × Nat × Nat) : W18 := x.v.get 0 (16 * e.1 + e.2.1)
    let put (m : Store Stored) (l : List (Nat × Nat × Nat)) : Store Stored := l.foldl (fun w e => w.set 0 e.2.2 (enc18 (word e))) m
    let final (l : List (Nat × Nat × Nat)) (k : Nat) : Option W18 := ((l.filter (fun e => decide (e.2.2 = k))).getLast?).map word
    let new (delta : Int) : List PendW := [owed 1 (x.toA n.toNat (x.moved n.toNat delta))]
    let fits (delta : Int) : Bool := x.inRing n.toNat delta
    let step : Int := match mode.toNat with | 1 => (K * N : Nat) | 2 => -(K * N : Nat) | _ => (x.rm n.toNat).toInt
    let post : List PendW := if mode = 0 then [] else new step
    let load (c : Instr) (l : List (Nat × Nat × Nat)) (p : List PendW) : Prop := (∀ e ∈ l, x.goodL e.2.2 = true) →
      LeavesWith c s a { x with pw := l.map (fun e => owed 3 (.v e.1 [(e.2.1, x.atL e.2.2)])) ++ p, pc := x.pc + 1
                                carry := (beat l 1).map (fun e => ⟨e.2.2, none, e.1, e.2.1, x.lmem.get 0 e.2.2⟩) } (lost l)
    let store (c : Instr) (l : List (Nat × Nat × Nat)) (p : List PendW) : Prop := s.mayStore a (l.map (fun e => e.2.2)) = true →
      LeavesWith c s a { x with lmem := put x.lmem l, pw := p, pc := x.pc + 1
                                carry := (beat l 1).map (fun e => ⟨e.2.2, final l e.2.2, 0, 0, (put x.lmem (beat l 0)).get 0 e.2.2⟩) } (lost l)
    (mode.toNat ≤ 3 → vd.toNat + K ≤ 16 → (∀ e < K * N, fits (e : Nat) = true) → (mode = 0 ∨ fits step = true) →
      (k = 0 → load (.vld a vd n mode) strip post ∧ store (.vst a vd n mode) strip post) ∧
      (k = 1 → load (.vld2 a vd n mode) strip post ∧ store (.vst2 a vd n mode) strip post) ∧
      (k = 2 → load (.vld3 a vd n mode) strip post ∧ store (.vst3 a vd n mode) strip post) ∧
      (k = 3 → load (.vld4 a vd n mode) strip post ∧ store (.vst4 a vd n mode) strip post)) ∧
    (u.toNat < 2 → (∀ i < N + 1, fits (i * mm) = true) →
      let p := if u = 1 then new (N * mm) else []
      load (.vlds a vd n m u) strided p ∧ store (.vsts a vd n m u) strided p) ∧
    load (.vgth a vd n vb) picked [] ∧ store (.vsct a vd n vb) picked []

/-- VGTH.F and VSCT.F (R35, R183, R231 to R235), after the checks of R296 for every element from VFI on: one transfer of those elements is in
progress, each an access of its own to another die, its done bit is clear, or due after the next bundle where there is none, and VFI is 0; at an
element that fails, those before it start, VFI names it, what its lookup refilled stays (R290) and VFAULT is taken with its address. -/
def Obligations.FarVectorAccess : Prop :=
  ∀ (s : State) (a : At) (vd : BitVec 4) (v vb : BitVec 3) (tag : BitVec 2) (pa : Nat → Nat) (side : Nat → Bool) (k : Nat) (b : FarBad), Lone s a [6] →
    let x := s.engOf a; let first := x.vfi.toNat; let N := min x.vl.toNat 16
    let va (i : Nat) : Nat := (((x.ddv v : Int) + (x.v.get 0 (16 * vb.toNat + i)).toInt) % 2 ^ 36).toNat
    let req (w : Bool) (i : Nat) : FarReq := ⟨va i, va i, w, false, true, false⟩
    let part (n : Nat) : List Nat := (List.range n).map (fun j => first + j)
    let go (kind : XferKind) (el : List (Nat × Nat)) (done : Bool) (y : Eng) (ks : List Nat) : Eng := { y with
      bits := x.bits.set false (32 + tag.toNat) (done && el.isEmpty), zdone := if done = false ∧ el.isEmpty then [tag.toNat] else []
      xfers := if el.isEmpty then [] else [⟨tag.toNat, kind, 0, 0, el.length, el, x.epoch, [], ks, false⟩] }
    let lanes (n : Nat) : List (Nat × Nat) := (part n).map (fun i => (i, pa i))
    let words (n : Nat) : List (Nat × Nat) := (part n).map (fun i => (pa i, (x.v.get 0 (16 * vd.toNat + i)).toNat))
    let whole (w : Bool) : Prop := ∀ i, first ≤ i → i < N → s.farLands a (req w i) (pa i) (side i)
    let fault (w : Bool) : Prop := x.sh = false ∧ k < N ∧ first ≤ k ∧ (∀ i, first ≤ i → i < k → s.farLands a (req w i) (pa i) (side i)) ∧
      s.farCheck a.die.val a.eng.val (req w k) = .inr b
    let trap (y : Eng) : Eng := { y.trapped x.pc .vfault 6 with
      vfi := BitVec.ofNat 6 k, evah := BitVec.ofNat 18 (b.va / 262144), eval := BitVec.ofNat 18 b.va
      l2 := (x.refilled s.fresh b.acts).l2, dtlb := (x.refilled s.fresh b.acts).dtlb }
    let all (c : Instr) (kind : XferKind) (el : List (Nat × Nat)) : Prop :=
      LeavesAcross c s a ((part (N - first)).map pa) true (fun y ks => { go kind el false y ks with vfi := 0, pc := x.pc + 1 }) (fun u => u.counted a)
    let some_ (c : Instr) (kind : XferKind) (el : List (Nat × Nat)) : Prop := b.va = va k ∧ ∃ n ≤ 10,
      EndsAcross c s a ((part (k - first)).map pa) true (fun y ks => trap (go kind el true y ks))
        (fun u => (u.countedOn a n).trapCounted a .vfault x.pc)
    (whole false → all (.vgthF a vd v vb tag) (.gather vd.toNat) (lanes (N - first))) ∧
    (whole true → all (.vsctF a vd v vb tag) .scatter (words (N - first))) ∧
    (fault false → some_ (.vgthF a vd v vb tag) (.gather vd.toNat) (lanes (k - first))) ∧
    (fault true → some_ (.vsctF a vd v vb tag) .scatter (words (k - first)))

/-- The vector length (R216): VSETL and VSETLI set VL to the smaller of their unsigned operand and 16, and Dd to the new VL, both for the
next bundle; VSETLI takes the 20-bit field where an extension donates; MTS to VL stores at most 16, and in user mode traps with cause PRIV (R105). -/
def Obligations.VectorLength : Prop :=
  ∀ (s : State) (a : At) (d p : BitVec 4) (imm : BitVec 8),
    let x := s.engOf a; let P := (x.rd p.toNat).toNat
    let setl (r : Nat) : List Wr := [.vl (BitVec.ofNat 7 (min r 16)), x.toD d.toNat (BitVec.ofNat 18 (min r 16))]
    (Lone s a [6] → Retires (.vsetl a d p) s a (setl P) []) ∧
    (LoneX s a [6] → Retires (.vsetli a d imm) s a (setl (uimmOf a imm)) []) ∧
    (Lone s a [7] → x.user = false → Retires (.mts a p 5) s a [.vl (BitVec.ofNat 7 (min P 16))] []) ∧
    (Lone s a [7] → x.user = true → x.sh = false → Traps (.mts a p 5) s a .priv (x.trapped x.pc .priv 7))

/-- Rails, RESET_N, pins, fuses and the phase reference (R62, R557, R559, R586, R594, R597 to R600, R610): a rail warning clears the rail's bit, sets
RAILWARN and raises event 0026h, once for each excursion, its return sets the bit again, a trip stops its die, and the part with a tripped rail on
every die that is not lost at the same moment; RESET_N low stops everything in OFF, with EARLY_OK and PNLk_BUSY_N low, PNLk_IRQ_N high,
FAULT_N released and every other pin at high impedance, and its release with every supply in range, with event 0300h, is a
reset that only the fuses survive, while with a supply out of range the part stays in OFF (that it waits for the next release is the model's choice,
log entry 185); PKG_SVNMIN follows PKG_SVN when both dies took it; a
TICK_IN edge steps the phase in BOOT and is steered away in every other state. The test access port (R610): BYPASS, IDCODE and
SAMPLE/PRELOAD select their registers and change no pin; EXTEST, CLAMP and HIGHZ take the pins only while RESET_N is low and otherwise
select the bypass register; the boundary register has 149, 221, 293 or 365 cells and a DXD-8064 of the first stepping reads 1806_4AD9h;
HIGHZ with RESET_N low puts every pin at high impedance; TAP_RESET selects IDCODE. -/
def Obligations.RailsResetAndTestPort : Prop :=
  (∀ (s : State) (die : DieNo) (rail : Rail) (phase : Int) (ok0 ok1 : Bool),
     let d := die.val; let mon := s.reg .DIE_MON d []; let bit := BitVec.twoPow 32 rail.bit
     let only (t : State) : Prop := Same s t [RegName.DIE_MON.cell d []] [] [d] s
     let without (l : List Rail) : List Rail := l.filter (fun r => decide (r ≠ rail))
     let x := s.die d; let out := rail ∈ x.railsOut
     let idle (t : State) (i : Nat) : Prop := (t.die i).stopped = true ∧ ∀ e < 64, (t.eng i e).run = .none
     let gone (i : Nat) : Bool := !s.populated i || s.lost i || decide (i = d) || !(s.die i).trips.isEmpty
     (s.live d = true →
       (¬ out → Nexts (.railWarning die rail) s (fun t => t.reg .DIE_MON d [] = (mon &&& ~~~bit) ||| 0x100 ∧
         t.events = s.events ++ [⟨0x26, d, 2, s.fn d, [d, (mon &&& ~~~bit).toNat % 64]⟩] ∧
         t.die d = { x with railsOut := x.railsOut ++ [rail] } ∧ only t)) ∧
       (out → exec (.railWarning die rail) s = .next s) ∧
       Nexts (.railReturn die rail) s (fun t => t.reg .DIE_MON d [] = mon ||| bit ∧ t.events = s.events ∧
         t.die d = { x with trips := without x.trips, railsOut := without x.railsOut } ∧ only t) ∧
       (s.pkgState ≠ 0 → rail ∉ x.trips → (∃ i < 8, gone i = false) →
         Nexts (.railTrip die rail) s (fun t => idle t d ∧ (t.die d).trips = x.trips ++ [rail] ∧ t.pkgState = s.pkgState ∧
           ∀ i < 8, i ≠ d → (t.die i).stopped = (s.die i).stopped)) ∧
       (s.pkgState ≠ 0 → rail ∉ x.trips → (∀ i < 8, gone i = true) →
         Nexts (.railTrip die rail) s (fun t => t.pkgState = 0 ∧ ∀ i < 8, s.populated i = true → idle t i))) ∧
     (s.pkg.resetLow = false → Nexts .resetAssert s (fun t => t.pkg.resetLow = true ∧ t.pkgState = 0 ∧
       (t.pkg.tap.pins = .service → ∀ p, t.pin p = match p with | .earlyOk | .busyN _ => .low | .irqN _ => .high | _ => .hiz) ∧
       ∀ i < 8, s.populated i = true → idle t i)) ∧
     (s.pkg.resetLow = true → (∃ i < 8, s.populated i = true ∧ ((s.die i).trips ≠ [] ∨ (s.die i).railsOut ≠ [])) → Nexts .resetRelease s (fun t =>
       t.pkg.resetLow = false ∧ { t with pkg := s.pkg } = s)) ∧
     (s.pkg.resetLow = true → (∀ i < 8, s.populated i = true → (s.die i).trips = [] ∧ (s.die i).railsOut = []) → Nexts .resetRelease s (fun t => t.pkg.resetLow = false ∧ t.pkgState = 1 ∧
       t.engs = [] ∧ t.dies = [] ∧ t.shm = [] ∧ t.sbits = [] ∧ t.blks = [] ∧ t.ques = [] ∧ t.flA = [] ∧ t.leaves = [] ∧
       t.pending = s.pending ∧ t.variant = s.variant ∧ t.events = [⟨0x300, 255, 7, 0, [1, 0]⟩] ∧ t.reg .PKG_SVNMIN 0 [] = s.reg .PKG_SVNMIN 0 [] ∧
       ∀ i < 8, s.populated i = true → ∀ k < 16, t.reg .REP_FIELD i [k] = s.reg .REP_FIELD i [k])) ∧
     (s.f F.PKG_SVNUP.GO 0 [] = 1 → Nexts (.svnProgramEnd ok0 ok1) s (fun t => t.f F.PKG_SVNUP.GO 0 [] = 0 ∧
       t.reg .PKG_SVNMIN 0 [] = (if ok0 && ok1 then s.reg .PKG_SVN 0 [] else s.reg .PKG_SVNMIN 0 []) ∧
       Same s t [RegName.PKG_SVNUP.cell 0 [], RegName.PKG_SVNMIN.cell 0 []] [] [] s)) ∧
     (s.pkgState ≠ 0 → Nexts (.tickInEdge phase) s (fun t =>
       { t with pkg := { t.pkg with phaseErr := s.pkg.phaseErr } } = s ∧
       (s.f F.TCK_CTL.PHASE 0 [] = 1 → t.pkg.phaseErr = if s.pkgState = 1 then 0 else phase)))) ∧
  (∀ (s : State),
     let low := s.pkg.resetLow
     let code : Nat := s.stepping.toNat * 268435456 + (match s.variant with | .dxd2064 => 0x2064 | .dxd4064 => 0x4064 | .dxd6064 => 0x6064 | .dxd8064 => 0x8064) * 4096 + 0x56C * 2 + 1
     let cells : Nat := match s.variant with | .dxd2064 => 149 | .dxd4064 => 221 | .dxd6064 => 293 | .dxd8064 => 365
     let id : List Bool := (List.range 32).map (fun i => decide (code / 2 ^ i % 2 = 1))
     let select (c : Instr) (ir : TapIr) (pins : PinCtl) (size : Nat) (dr : List Bool) : Prop := Nexts c s (fun t =>
       t.pkg.tap.ir = ir ∧ t.pkg.tap.pins = pins ∧ t.pkg.tap.dr.length = size ∧ (dr ≠ [] → t.pkg.tap.dr = dr) ∧
       { t with pkg := { t.pkg with tap := s.pkg.tap }, fresh := s.fresh } = s)
     select .bypass .bypass .service 1 [false] ∧ select .idcode .idcode .service 32 id ∧ select .tapReset .idcode .service 32 id ∧
     select .samplePreload .sample .service cells [] ∧
     select .extest .extest (if low then .boundary else .service) (if low then cells else 1) (if low then [] else [false]) ∧
     select .clamp .clamp (if low then .boundary else .service) 1 [false] ∧
     select .highz .highz (if low then .highz else .service) 1 [false] ∧ (low = true → Nexts .highz s (fun t => ∀ p, t.pin p = .hiz)))

/-- Writes of the register map (R9, R14, R15, R386, R406, R408, R425, R460, R464): an access that the size, the window or the authority
turns away is counted under each reason and changes nothing else; a write that reaches a plain register leaves in each field what its
type gives; one of a register with RWS fields changes the shadow copy and sets SHDIRTY, or, while a swap is armed or the engine is in a
takeover, only LOCKWR or SUSPWR. A port's write or read of a register of another die leaves as a spine message (R35, R45), and its other reads answer with
the bytes they asked for (R425). A port's own BAR2 and configuration space answer it (R423, R424). Every command that is the write of one register completes from a source
that runs, and does what the write of that register does, with the bit that names the command set or cleared. -/
def Obligations.RegisterWrites : Prop :=
  ∀ (s : State) (src : Src) (addr : BitVec 24) (val : W32) (be : BitVec 8) (r : RegName) (d : DieNo) (idx : List Nat) (write : Bool) (e : EngNo) (b : Fin 64)
    (p : PortNo) (u : Fin 4) (c : Fin 16) (g : Nat) (space : HostSpace),
    let is (i : Instr) (q : RegName) (n : Nat) (l : List Nat) (v : W32) : Prop :=
      ∃ t, exec i s = .next t ∧ exec (.registerWrite src .bar0 (BitVec.ofNat 24 (q.addr n l)) v 0x0F) s = .next t
    let A := addr.toNat; let host := (match src with | .host _ => true | .eng _ _ => false)
    let size := host && (decide (be ≠ 0x0F) || decide (A % 4 ≠ 0))
    let errs : List Nat := RegName.PKG_ERR.cell 0 [] :: (List.range 3).map (fun c => RegName.PKG_ERRCNT.cell 0 [c])
    let tally (t : State) (l : List Bool) : Prop := ∀ c < 3,
      t.f F.PKG_ERRCNT.COUNT 0 [c] = min (s.f F.PKG_ERRCNT.COUNT 0 [c] + (l.getD c false).toNat) 4294967295 ∧
      (t.reg .PKG_ERR 0 []).getLsbD c = ((s.reg .PKG_ERR 0 []).getLsbD c || l.getD c false)
    let counts (t : State) (l : List Bool) : Prop := Same s t errs [] [] s ∧ tally t l
    let hp (t : State) : Port := t.port p.val; let told (t : State) (l : List Byte) : Prop := (hp t).sent = (s.port p.val).sent ++ [.readReply space A l]
    let own (t : State) : Prop := Same s t [] [] [] { s with pkg := t.pkg } ∧ { t.pkg with ports := s.pkg.ports } = s.pkg
    let leaves (t : State) (x : HostAcc) : Prop := (t.die p.val).seqTx.get 0 g = (s.die p.val).seqTx.get 0 g + 1 ∧
      ((t.die p.val).up.queue ++ (t.die p.val).dn.queue).contains ⟨p.val, g, (s.die p.val).seqTx.get 0 g, .host p x⟩ = true
    let bytes (v : W32) : List Byte := (List.range 4).map (fun i => v.extractLsb' (8 * i) 8)
    let C := r.cell d.val idx; let go := Instr.registerWrite src .bar0 (BitVec.ofNat 24 (r.addr d.val idx)) val 0x0F
    let fields (t : State) : Prop := ∀ x ∈ r.desc.fields, field (t.reg r d.val idx) x.hi x.lo =
      fieldAfter x d.val (field (s.reg r d.val idx) x.hi x.lo) (field val x.hi x.lo)
    let aimed := s.admitted src r d.val idx && (crosses src (r.addr d.val idx)).isNone
    (s.srcLive src = true → size || s.unpop A || s.noAuth src A →
      Nexts (.registerWrite src .bar0 addr val be) s (fun t => counts t [s.unpop A, s.noAuth src A, size])) ∧
    (s.srcLive src = true → s.unpop A = true → A % 4 = 0 → (write = true ∨ host = false) →
      Nexts (.unpopulatedWindowAccess src .bar0 addr write val 0x0F) s (fun t => counts t [true, write && s.noAuth src A, false])) ∧
    (src = .host p → s.srcLive src = true → (s.unpop (A / 4 * 4) = true ∨ crosses src A = none) → space = .bar0 → Nexts (.unpopulatedWindowAccess src space addr false val be) s (fun t =>
      tally t [s.unpop (A / 4 * 4), false, decide (be ≠ 0x0F) || decide (A % 4 ≠ 0)] ∧ Same s t errs [] [] { s with pkg := t.pkg } ∧
      (be = 0x0F → A % 4 = 0 → told t (bytes (if s.unpop A then 0 else match s.target A with | some l => s.show_ l | none => 0))))) ∧
    (src = .host p → s.srcLive src = true → s.unpop (A / 4 * 4) = false → crosses src A = some (p, g) → space = .bar0 → Nexts (.unpopulatedWindowAccess src space addr false val be) s (fun t =>
      tally t [false, false, decide (be ≠ 0x0F) || decide (A % 4 ≠ 0)] ∧ Same s t errs [] [p.val] s ∧ leaves t (.read A be))) ∧
    (src = .host p → s.srcLive src = true → A < 0x200 → A % 4 = 0 → be = 0x0F →
      Nexts (.registerWrite src .bar2 addr val be) s (fun t => own t ∧ t.bar2Word p.val A = (if A % 16 = 12 then val &&& 1 else val) ∧
        ∀ a < 128, 4 * a ≠ A → t.bar2Word p.val (4 * a) = s.bar2Word p.val (4 * a)) ∧
      (space = .bar2 → Nexts (.unpopulatedWindowAccess src space addr false val be) s (fun t => own t ∧ told t (bytes (s.bar2Word p.val A))))) ∧
    (src = .host p → s.srcLive src = true → ∀ f : CfgField, space = .config f →
      (f = .timeout → val.toNat < 16 → Nexts (.registerWrite src space addr val be) s (fun t => own t ∧ (hp t).cfg = { (s.port p.val).cfg with timeout := val.toNat })) ∧
      (f = .maxReadRequest → val.toNat < 6 → Nexts (.registerWrite src space addr val be) s (fun t => own t ∧ (hp t).cfg = { (s.port p.val).cfg with maxReadRequest := val.toNat })) ∧
      (f = .classCode → Nexts (.registerWrite src space addr val be) s (fun t => own t ∧ (hp t).cfg = (s.port p.val).cfg) ∧
        Nexts (.unpopulatedWindowAccess src space addr false val be) s (fun t => own t ∧ (hp t).sent = (s.port p.val).sent ++ [.readReply space 0 (bytes 0x048000)]))) ∧
    (s.admitted src r d.val idx = true → crosses src (r.addr d.val idx) = some (p, g) → Nexts go s (fun t => Same s t [] [] [p.val] s ∧
      leaves t (.write (r.addr d.val idx) val))) ∧
    (s.writable src r d.val idx = true → r ∉ specialRegs → r.banked = false →
      Nexts go s (fun t => fields t ∧ Same s t [C] [] [] s)) ∧
    (s.writable src r d.val idx = true → r ∉ specialRegs → r.banked = true →
      Nexts go s (fun t => fields t ∧ t.act r d.val idx = s.act r d.val idx ∧ t.f F.DIE_SWAP.SHDIRTY d.val [] = 1 ∧
        Same s t [C, RegName.DIE_SWAP.cell d.val []] [] [] s)) ∧
    (aimed = true → r.banked = true → r ≠ .DIE_SWAP → r ≠ .DIE_EV → s.writable src r d.val idx = false →
      Nexts go s (fun t => Same s t [RegName.DIE_SWAP.cell d.val [], RegName.DIE_EV.cell d.val []] [] [] s ∧
        (s.f F.PKG_SWAP.ARMED 0 [] = 1 → t.f F.DIE_SWAP.LOCKWR d.val [] = 1) ∧
        (s.inTakeover ⟨r, d.val, idx, false⟩ = true → t.f F.DIE_EV.SUSPWR d.val [] = 1))) ∧
    (s.srcLive src = true → is (.spineRestore src d val) .SPN_CTL d [] (val ||| 0x100) ∧ is (.fnLoad src d val) .TCK_CTL d [] (val ||| 0x100) ∧
      is (.todLoad src d val) .TCK_CTL d [] (val ||| 0x80) ∧ is (.counterClear src d (.eng e) val) .ENG_CTL d [e.val] (val ||| 0x100) ∧
      is (.counterClear src d .shm val) .SHM_CTL d [] (val ||| 1) ∧ is (.counterClear src d .ken val) .KEN_CTL d [] (val ||| 1) ∧
      is (.dieRelease src d val) .DIE_RELEASE d [] (val ||| 0x80000000) ∧ is (.enginePowerOff src d e val) .ENG_CTL d [e.val] (val &&& 0xFFFFFFFE) ∧
      is (.engineWake src d e val) .ENG_CTL d [e.val] (val ||| 1) ∧ is (.ownerHandover src d b val) .SHM_OWN d [b.val] val ∧
      is (.bankPowerRequest src d b val) .SHM_PWR d [b.val] val ∧ is (.twinEnable src d b val) .SHM_TWIN d [b.val] val ∧
      is (.auditStart src d val) .KEN_AUD d [] (val ||| 1) ∧ is (.shadowCopy src val) .PKG_SWAPCTL 0 [] (val ||| 1) ∧
      is (.ringEnable src p b val) .HPT_RCFG p [b.val] (val ||| 0x80000000) ∧ is (.ringDisable src p b val) .HPT_RCFG p [b.val] (val &&& 0x7FFFFFFF) ∧
      is (.authClaim src val) .PKG_AUTH 0 [] (val ||| 0x100) ∧ is (.authRelease src val) .PKG_AUTH 0 [] (val ||| 0x200) ∧
      is (.linkEnable src d p val) .LNK_CTL d [p.val] (val ||| 0x80000000) ∧ is (.linkDisable src d p val) .LNK_CTL d [p.val] (val &&& 0x7FFFFFFF) ∧
      is (.finRingEnable src d val) .FIN_CTL d [] val ∧ is (.finAdmit src d val) .FIN_ADMIT d [] (val ||| 0x80000000) ∧
      is (.tdmEnable src d u val) .TDM_CTL d [u.val] val ∧ is (.tmuStart src d c val) .TMU_CTL d [c.val] (val ||| 0x80000000) ∧
      is (.tmuStop src d c val) .TMU_CTL d [c.val] (val ||| 0x40000000) ∧ is (.tmuWideCommit src d c 0 val) .TMU_PERHI d [c.val] val ∧
      is (.tmuWideCommit src d c 1 val) .TMU_CMPHI d [c.val] val ∧ is (.tmuWideCommit src d c 2 val) .TMU_LDHI d [c.val] val ∧
      is (.svnUpdate src val) .PKG_SVNUP 0 [] (val ||| 1) ∧ ∃ t, exec (.ptpGrandmasterSet src d p val val val) s = .next t)

/-- The commands that are writes of one register of a die (R41, R54, R96, R165, R249, R250, R259 to R265, R269, R275, R360, R363, R388),
each with its register's own effect and nothing else changed. -/
def Obligations.DieRegisterCommands : Prop :=
  ∀ (s : State) (src : Src) (die : DieNo) (e : EngNo) (b : Fin 64) (val : W32),
    let d := die.val; let w (r : RegName) (idx : List Nat) : Prop := s.writable src r d idx = true
    let dir (x : Fld) : Nat := if s.f x d [] = 2 then 3 else s.f x d []
    let o := val.toNat % 16; let tw := (val.toNat / 256 % 8, val.toNat % 64); let en := val.toNat / 2 ^ 31
    let pst := s.f F.SHM_PWR.PSTAT d [b.val]
    let free : Prop := s.f F.SHM_OWN.PEND d [b.val] = 0 ∧ s.f F.SHM_TWIN.EN d [b.val] = 0
    (w .SPN_CTL [] → Nexts (.spineRestore src die val) s (fun t => t.f F.SPN_STAT.UP_STATE d [] = dir F.SPN_STAT.UP_STATE ∧
      t.f F.SPN_STAT.DN_STATE d [] = dir F.SPN_STAT.DN_STATE ∧
      t.f F.SPN_CTL.RESTORE d [] = (if (dir F.SPN_STAT.UP_STATE = 3 ∧ (s.die d).up.trained = false) ∨
        (dir F.SPN_STAT.DN_STATE = 3 ∧ (s.die d).dn.trained = false) then 1 else 0) ∧
      Same s t [RegName.SPN_CTL.cell d [], RegName.SPN_STAT.cell d []] [] [] s)) ∧
    (w .TCK_CTL [] → Nexts (.fnLoad src die val) s (fun t =>
      t.f F.TCK_CTL.FNLD 0 [] = (if s.pkgState = 2 ∧ s.f F.PKG_SWAP.ARMED 0 [] = 0 then 1 else s.f F.TCK_CTL.FNLD 0 []) ∧
      Same s t [RegName.TCK_CTL.cell 0 []] [] [] s)) ∧
    (w .TCK_CTL [] → Nexts (.todLoad src die val) s (fun t => t.f F.TCK_CTL.TODLD 0 [] = 1 ∧ Same s t [RegName.TCK_CTL.cell 0 []] [] [] s)) ∧
    (w .ENG_CTL [e.val] → Nexts (.counterClear src die (.eng e) val) s (fun t => t.f F.ENG_CTL.CNTCLR d [e.val] = 1 ∧
      Same s t [RegName.ENG_CTL.cell d [e.val], RegName.DIE_EV.cell d []] [] [] s)) ∧
    (w .SHM_CTL [] → Nexts (.counterClear src die .shm val) s (fun t => t.f F.SHM_CTL.CNTCLR d [] = 1 ∧ Same s t [RegName.SHM_CTL.cell d []] [] [] s)) ∧
    (w .KEN_CTL [] → Nexts (.counterClear src die .ken val) s (fun t => t.f F.KEN_CTL.CNTCLR d [] = 1 ∧ Same s t [RegName.KEN_CTL.cell d []] [] [] s)) ∧
    (w .DIE_RELEASE [] → Nexts (.dieRelease src die val) s (fun t => t.f F.DIE_RELEASE.GO d [] = 1 ∧ t.f F.DIE_RELEASE.ENG d [] = val.toNat % 64 ∧
      Same s t [RegName.DIE_RELEASE.cell d []] [] [] s)) ∧
    (w .ENG_CTL [e.val] → Nexts (.engineWake src die e val) s (fun t => t.f F.ENG_CTL.EN d [e.val] = 1 ∧ Same s t [RegName.ENG_CTL.cell d [e.val]] [] [] s)) ∧
    (w .ENG_CTL [e.val] → Nexts (.enginePowerOff src die e val) s (fun t =>
      (if s.f F.ENG_CTL.EN d [e.val] = 1 ∧ s.enBusy d e.val = true then t.f F.ENG_CTL.EN d [e.val] = 1 ∧ t.f F.DIE_EV.ENBUSY d [] = 1
        else t.f F.ENG_CTL.EN d [e.val] = 0 ∧ t.reg .DIE_EV d [] = s.reg .DIE_EV d []) ∧
      Same s t [RegName.ENG_CTL.cell d [e.val], RegName.DIE_EV.cell d []] [] [] s)) ∧
    (w .SHM_OWN [b.val] → Nexts (.ownerHandover src die b val) s (fun t =>
      if s.f F.SHM_OWN.PEND d [b.val] = 0 ∧ (o = s.f F.SHM_OWN.OWNER d [b.val] ∨ o ∈ [12, 13, 14]) then t = s
      else if s.f F.SHM_OWN.PEND d [b.val] = 1 ∨ (s.inPool d b.val = true ∧ o ≠ 8) ∨ (s.f F.SHM_TWIN.EN d [b.val] = 1 ∧ o ≠ 11) then
        t.f F.SHM_STAT.OWNBUSY d [] = 1 ∧ Same s t [RegName.SHM_STAT.cell d []] [] [] s
      else t.f F.SHM_OWN.OWNER d [b.val] = o ∧ t.f F.SHM_OWN.PEND d [b.val] = 1 ∧
        (t.die d).handovers.get none b.val = some ⟨s.f F.SHM_OWN.OWNER d [b.val]⟩ ∧ Same s t [RegName.SHM_OWN.cell d [b.val]] [] [d] s)) ∧
    (w .SHM_PWR [b.val] → val.toNat % 4 ≠ 3 → Nexts (.bankPowerRequest src die b val) s (fun t =>
      (val.toNat % 4 = 0 → t.f F.SHM_PWR.PREQ d [b.val] = 0 ∧ t.f F.SHM_PWR.PSTAT d [b.val] = (if pst = 1 ∨ pst = 2 then 3 else pst) ∧ t.shm = s.shm) ∧
      (val.toNat % 4 = 1 → free → s.f F.SHM_OWN.OWNER d [b.val] = 15 → pst < 2 → t.f F.SHM_PWR.PSTAT d [b.val] = 1 ∧ t.shm = s.shm) ∧
      (val.toNat % 4 = 2 → free → s.f F.SHM_OWN.OWNER d [b.val] = 15 → t.f F.SHM_PWR.PSTAT d [b.val] = 2 ∧ ∀ pa,
        t.word pa = if bankPa d b.val 0 ≤ pa ∧ pa < bankPa d b.val 0 + 1048576 then 0 else s.word pa) ∧
      (val.toNat % 4 ≠ 0 → (¬ free ∨ s.f F.SHM_OWN.OWNER d [b.val] ≠ 15 ∨ (val.toNat % 4 = 1 ∧ pst = 2)) → t.f F.SHM_STAT.PWRBUSY d [] = 1 ∧
        Same s t [RegName.SHM_STAT.cell d []] [] [] s) ∧
      Same s t [RegName.SHM_PWR.cell d [b.val], RegName.SHM_STAT.cell d []] [] [d] { s with shm := t.shm })) ∧
    (w .SHM_TWIN [b.val] → Nexts (.twinEnable src die b val) s (fun t =>
      if en = 1 ∧ s.f F.SHM_OWN.OWNER d [b.val] ≠ 11 then t.f F.SHM_STAT.OWNBUSY d [] = 1 ∧ Same s t [RegName.SHM_STAT.cell d []] [] [] s
      else if s.f F.SHM_TWIN.EN d [b.val] = en ∧ s.twinOf d b.val = tw then t = s
      else t.f F.SHM_TWIN.EN d [b.val] = en ∧ t.twinOf d b.val = tw ∧
        (en = 0 → t.f F.SHM_TWIN.SOLO d [b.val] = 0 ∧ t.formed d b.val = false ∧
          (s.formed d b.val = true → t.formed (s.twinOf d b.val).1 (s.twinOf d b.val).2 = false)) ∧
        (en = 1 → s.formed d b.val = false → tw.1 ≠ d → s.live tw.1 = true → s.f F.SHM_TWIN.EN tw.1 [tw.2] = 1 →
          s.f F.SHM_OWN.OWNER tw.1 [tw.2] = 11 → s.f F.SHM_TWIN.SOLO tw.1 [tw.2] = 0 → s.f F.SHM_TWIN.SOLO d [b.val] = 0 →
          s.twinOf tw.1 tw.2 = (d, b.val) → t.formed d b.val = true ∧ t.formed tw.1 tw.2 = true ∧
          t.f F.SHM_TWIN.HOME (min d tw.1) [if d < tw.1 then b.val else tw.2] = 1) ∧
        Same s t [RegName.SHM_TWIN.cell d [b.val], RegName.SHM_TWIN.cell tw.1 [tw.2],
          RegName.SHM_TWIN.cell (s.twinOf d b.val).1 [(s.twinOf d b.val).2]] [] [d] s)) ∧
    (w .KEN_AUD [] → Nexts (.auditStart src die val) s (fun t => if (s.die d).audit.running = true then t = s else
      t.f F.KEN_AUD.START d [] = 1 ∧ (t.die d).audit.req = true ∧ Same s t [RegName.KEN_AUD.cell d []] [] [d] s))

/-- The register commands of the package, host, link, Finolrus and TDM ports (R405, R431, R432, R461, R467, R480, R485, R503, R511, R586):
each sets what its register's section says and nothing else; an enabled ring starts from its fresh state, one that R431 refuses stays
off with RINGCFG set, and a claim waits while PEND names the next claimant. -/
def Obligations.PortRegisterCommands : Prop :=
  ∀ (s : State) (src : Src) (p : PortNo) (die : DieNo) (r : Fin 64) (k : Fin 4) (val g0 g1 g2 : W32),
    let d := die.val; let w (x : RegName) (i : Nat) (idx : List Nat) : Prop := s.writable src x i idx = true
    let rcfg := s.reg .HPT_RCFG p.val [r.val]; let on := rcfg.getLsbD 31
    let kept (v : W32) : Bool := (RegName.desc .HPT_RCFG).fields.all (fun x => decide (x.lo = 31) || decide (fieldAfter x p.val (field rcfg x.hi x.lo) (field v x.hi x.lo) = field rcfg x.hi x.lo))
    let ty := if val.toNat / 2 ^ 28 % 8 = 7 then s.f F.HPT_RCFG.TYPE p.val [r.val] else val.toNat / 2 ^ 28 % 8; let size := val.toNat / 2 ^ 24 % 16; let cq := val.toNat / 2 ^ 16 % 64
    let base := s.f F.HPT_RBHI.ADDR p.val [r.val] * 4294967296 + s.f F.HPT_RBLO.ADDR p.val [r.val]
    let ring (t : State) (i : Nat) : Ring := ((t.pkg.ports.get {} p.val).rings).get {} i
    let fit : Bool := decide (4 ≤ size) && decide (base % max 4096 (2 ^ size * [64, 16, 32, 512, 512, 32, 32].getD ty 0) = 0) &&
      (decide (ty ≠ 0 ∧ ty ≠ 6) || (decide (s.f F.HPT_RCFG.EN p.val [cq] = 1) && decide (s.f F.HPT_RCFG.TYPE p.val [cq] = 1)))
    let run (t : State) : Nat := if t.f F.FIN_CTL.EN d [] = 1 ∧ (t.f F.LNK_CTL.MODE d [0] = 1 ∧ t.f F.LNK_CTL.EN d [0] = 1) ∧ (t.f F.LNK_CTL.MODE d [1] = 1 ∧ t.f F.LNK_CTL.EN d [1] = 1) ∧
      t.f F.LNK_CTL.RATE d [0] = t.f F.LNK_CTL.RATE d [1] then 1 else 0
    let gm (t : State) (u : Bool) : Prop := ((t.die d).links.get {} p.val).gmDue = u
    let portOnly (t : State) : Prop := (∀ i < 64, i ≠ r.val → ring t i = ring s i) ∧ (∀ j, j ≠ p.val → t.pkg.ports.get {} j = s.pkg.ports.get {} j) ∧
      { t.pkg.ports.get {} p.val with rings := (s.pkg.ports.get {} p.val).rings, newRings := (s.pkg.ports.get {} p.val).newRings, lateRings := (s.pkg.ports.get {} p.val).lateRings } = s.pkg.ports.get {} p.val ∧
      { t.pkg with ports := s.pkg.ports } = s.pkg
    let ringErr (t : State) : Prop := t.f F.HPT_ERR.RINGCFG p.val [] = 1 ∧ Same s t [RegName.HPT_ERR.cell p.val []] [] [] s
    let waits (t : State) (l : List Nat) : Prop := t.pkg.claims = l ∧ t.f F.PKG_AUTH.PEND 0 [] = (match l with | [] => 0 | c :: _ => c + 1) ∧
      Same s t [RegName.PKG_AUTH.cell 0 []] [] [] { s with pkg := { s.pkg with claims := l } }
    let mine : Prop := s.f F.PKG_AUTH.OWNER 0 [] = p.val + 1
    let lets (t : State) : Prop := if p.val ∈ s.pkg.claims then waits t (s.pkg.claims.filter (fun c => decide (c ≠ p.val)))
      else Same s t [] [] [] { s with pkg := { s.pkg with released := s.pkg.released || decide mine } }
    let both (t : State) : Prop := if mine ∨ p.val ∈ s.pkg.claims then lets t else waits t s.pkg.claims
    (w .PKG_SWAPCTL 0 [] → Nexts (.shadowCopy src val) s (fun t => if s.f F.PKG_SWAP.ARMED 0 [] = 1 then t = s else
      t.f F.PKG_SWAPCTL.COPY 0 [] = 1 ∧ Same s t [RegName.PKG_SWAPCTL.cell 0 []] [] [] s)) ∧
    (w .HPT_RCFG p.val [r.val] → on = true → Nexts (.ringEnable src p r val) s (fun t =>
      if kept val = true then t = s else ringErr t)) ∧
    (w .HPT_RCFG p.val [r.val] → on = false → Nexts (.ringEnable src p r val) s (fun t =>
      (fit = true → t.f F.HPT_RCFG.EN p.val [r.val] = 1 ∧ t.f F.HPT_RCFG.TYPE p.val [r.val] = ty ∧ t.f F.HPT_RCFG.SIZE p.val [r.val] = size ∧
        t.f F.HPT_RCFG.CQ p.val [r.val] = cq ∧ t.reg .HPT_RSTAT p.val [r.val] = 0 ∧ ring t r.val = { under := (ring s r.val).under } ∧ t.takesPart p.val r.val = false ∧ portOnly t) ∧
      (fit = false → t.f F.HPT_RCFG.EN p.val [r.val] = 0 ∧ t.f F.HPT_ERR.RINGCFG p.val [] = 1 ∧ t.pkg = s.pkg) ∧
      Same s t [RegName.HPT_RCFG.cell p.val [r.val], RegName.HPT_RSTAT.cell p.val [r.val], RegName.HPT_ERR.cell p.val []] [] [] { s with pkg := t.pkg })) ∧
    (w .HPT_RCFG p.val [r.val] → on = true → Nexts (.ringDisable src p r val) s (fun t => if kept val = true then
        ring t r.val = { ring s r.val with closing := true } ∧ portOnly t ∧ Same s t [] [] [] { s with pkg := t.pkg }
      else ringErr t)) ∧
    (w .HPT_RCFG p.val [r.val] → on = false → Nexts (.ringDisable src p r val) s (fun t =>
      t.f F.HPT_RCFG.EN p.val [r.val] = 0 ∧ Same s t [RegName.HPT_RCFG.cell p.val [r.val]] [] [] s)) ∧
    (src = .host p → w .PKG_AUTH 0 [] → val.getLsbD 9 = false → Nexts (.authClaim src val) s (fun t => if mine ∨ p.val ∈ s.pkg.claims then t = s
      else waits t (if p.val = 0 then 0 :: s.pkg.claims else s.pkg.claims ++ [p.val]) ∧
        t.events = s.events ++ [⟨0x30, 255, 6, s.fn (s.liveDies.headD 0), [p.val]⟩])) ∧
    (src = .host p → w .PKG_AUTH 0 [] → val.getLsbD 9 = true → Nexts (.authClaim src val) s both) ∧
    (src = .host p → w .PKG_AUTH 0 [] → Nexts (.authRelease src val) s (fun t => if val.getLsbD 8 then both t else lets t)) ∧
    (src ≠ .host 0 → src ≠ .host 1 → w .PKG_AUTH 0 [] → Nexts (.authClaim src val) s (fun t => t = s) ∧ Nexts (.authRelease src val) s (fun t => t = s)) ∧
    (w .LNK_CTL d [p.val] → Nexts (.linkEnable src die p val) s (fun t => t.f F.LNK_CTL.EN d [p.val] = 1 ∧ t.f F.FIN_STAT.RUN d [] = run t ∧
      (s.f F.LNK_CTL.EN d [p.val] = 1 → t.reg .LNK_CTL d [p.val] = s.reg .LNK_CTL d [p.val]) ∧
      Same s t [RegName.LNK_CTL.cell d [p.val], RegName.FIN_STAT.cell d []] [] [] s)) ∧
    (w .LNK_CTL d [p.val] → Nexts (.linkDisable src die p val) s (fun t => t.f F.LNK_CTL.EN d [p.val] = 0 ∧ t.f F.FIN_STAT.RUN d [] = run t ∧
      (s.f F.LNK_CTL.EN d [p.val] = 1 → ((t.die d).links.get {} p.val).stopping = true) ∧
      Same s t [RegName.LNK_CTL.cell d [p.val], RegName.FIN_STAT.cell d []] [] [d] s)) ∧
    (w .LNK_PTPGM0 d [p.val] → w .LNK_PTPGM1 d [p.val] → w .LNK_PTPGM2 d [p.val] → Nexts (.ptpGrandmasterSet src die p g0 g1 g2) s (fun t =>
      t.reg .LNK_PTPGM0 d [p.val] = g0 ∧ t.reg .LNK_PTPGM1 d [p.val] = g1 ∧ t.f F.LNK_PTPGM2.PORTNUM d [p.val] = g2.toNat % 65536 ∧ gm t true ∧
      Same s t [RegName.LNK_PTPGM0.cell d [p.val], RegName.LNK_PTPGM1.cell d [p.val], RegName.LNK_PTPGM2.cell d [p.val]] [] [d] s)) ∧
    (w .FIN_CTL d [] → Nexts (.finRingEnable src die val) s (fun t => t.f F.FIN_CTL.EN d [] = val.toNat / 2 ^ 31 ∧ t.f F.FIN_STAT.RUN d [] = run t ∧
      Same s t [RegName.FIN_CTL.cell d [], RegName.FIN_STAT.cell d []] [] [] s)) ∧
    (w .FIN_ADMIT d [] → Nexts (.finAdmit src die val) s (fun t => if s.nodeState d (val.toNat % 64) ≠ 5 then t = s else t.f F.FIN_ADMIT.GO d [] = 1 ∧
      t.f F.FIN_ADMIT.NODE d [] = val.toNat % 64 ∧ (t.node d (val.toNat % 64)).readmit = true ∧
      (∀ j, j ≠ 64 * d + val.toNat % 64 → t.fin.get {} j = s.fin.get {} j) ∧ Same s t [RegName.FIN_ADMIT.cell d []] [] [] { s with fin := t.fin })) ∧
    (w .TDM_CTL d [k.val] → Nexts (.tdmEnable src die k val) s (fun t => t.f F.TDM_CTL.EN d [k.val] = val.toNat / 2 ^ 31 ∧
      t.f F.TDM_CTL.MASTER d [k.val] = (if s.f F.TDM_CTL.EN d [k.val] = 1 then s.f F.TDM_CTL.MASTER d [k.val] else val.toNat / 2 ^ 30 % 2) ∧
      Same s t [RegName.TDM_CTL.cell d [k.val]] [] [] s)) ∧
    (w .PKG_SVNUP 0 [] → Nexts (.svnUpdate src val) s (fun t => if s.pkgState ≠ 3 then t = s else t.f F.PKG_SVNUP.GO 0 [] = 1 ∧
      Same s t [RegName.PKG_SVNUP.cell 0 []] [] [] s))

/-- The timer and measurement unit (R512 to R530): a start loads COUNT from LD and counts up, a stop only clears RUN, the wide values commit
both halves, a source edge adds 2^16 to the prescaler and clocks COUNT in its mode when it reaches DIV, and a selected edge captures
COUNT with CAPF, and OVF when one waits; nothing outside the channel changes but the bit of the engine it interrupts. -/
def Obligations.TimerCommands : Prop :=
  ∀ (s : State) (src : Src) (die : DieNo) (c : Fin 16) (which : Fin 3) (pin : Fin 4) (edge : TmuSrc) (rising level : Bool) (val : W32),
    let d := die.val; let i := [c.val]; let w (x : RegName) : Prop := s.writable src x d i = true
    let x := (s.die d).tmus.get {} c.val; let y (t : State) : Tmu := (t.die d).tmus.get {} c.val
    let count (t : State) : Nat := t.f F.TMU_CNTHI.HI d i * 4294967296 + t.f F.TMU_CNTLO.LO d i
    let frame (t : State) : Prop := Same s t ([RegName.TMU_CTL, .TMU_STAT, .TMU_CNTLO, .TMU_CNTHI, .TMU_CAPLO, .TMU_CAPHI, .TMU_PERHI, .TMU_CMPHI, .TMU_LDHI].map
      (fun r => r.cell d i)) ((List.range 64).map (fun e => 64 * d + e)) [d] s
    let n := count s; let P := x.per; let mode := s.f F.TMU_CTL.MODE d i; let up := decide (s.f F.TMU_STAT.DIR d i = 0); let div := s.f F.TMU_PRE.DIV d i
    let next : Nat := if P = 0 ∧ n = 0 then 0 else match mode with
      | 1 => if up then (if n < P then n + 1 else n - 1) else if n = 0 then 1 else n - 1
      | 2 => if n < P then n + 1 else n
      | _ => if n < P then n + 1 else 0
    let gate : Bool := decide (mode = 3) && decide (s.pkgState = 1 ∨ s.pkgState = 4 ∨ s.pkgState = 5) && decide (level.toNat ≠ s.f F.TMU_CTL.GLVL d i)
    let hi (lo : Fld) : Nat := val.toNat % 65536 * 4294967296 + s.f lo d i
    (w .TMU_CTL → Nexts (.tmuStart src die c val) s (fun t => frame t ∧
      (if val.getLsbD 30 then t.f F.TMU_STAT.RUN d i = 0 ∧ t.f F.TMU_CTL.START d i = 0 ∧ count t = n ∧ y t = x
        else if val.getLsbD 29 then t.f F.TMU_CTL.START d i = 1 ∧ count t = n ∧ t.f F.TMU_STAT.RUN d i = s.f F.TMU_STAT.RUN d i ∧ y t = x
        else count t = x.ld % 2 ^ 48 ∧ t.f F.TMU_STAT.RUN d i = 1 ∧ t.f F.TMU_STAT.DIR d i = 0 ∧ t.f F.TMU_CTL.START d i = 0 ∧ (y t).acc = 0))) ∧
    (w .TMU_CTL → Nexts (.tmuStop src die c val) s (fun t => t.f F.TMU_STAT.RUN d i = 0 ∧
      t.f F.TMU_CTL.START d i = (if val.getLsbD 31 then 0 else s.f F.TMU_CTL.START d i) ∧ count t = n ∧ y t = x ∧ frame t)) ∧
    (w .TMU_PERHI → which = 0 → Nexts (.tmuWideCommit src die c which val) s (fun t => y t = { x with per := hi F.TMU_PERLO.LO } ∧ frame t)) ∧
    (w .TMU_CMPHI → which = 1 → Nexts (.tmuWideCommit src die c which val) s (fun t => (y t).cmp = hi F.TMU_CMPLO.LO ∧ frame t)) ∧
    (w .TMU_LDHI → which = 2 → Nexts (.tmuWideCommit src die c which val) s (fun t => y t = { x with ld := hi F.TMU_LDLO.LO } ∧ frame t)) ∧
    (Nexts (.tmuCountClock die c edge level) s (fun t => frame t ∧
      let src := s.f F.TMU_CTL.SRC d i
      let mine : Bool := (match edge with
        | .cclk8 => decide (src = 0)
        | .refclk => decide (src = 1)
        | .media => decide (src = 2)
        | .pin n => decide (src = 4 ∧ s.f F.TMU_CTL.SPIN d i = n.val))
      if s.live d = false ∨ mine = false ∨ s.f F.TMU_STAT.RUN d i = 0 then t = s
      else if x.acc + 65536 < div then count t = n ∧ y t = { x with acc := x.acc + 65536 }
      else (y t).acc = x.acc + 65536 - div ∧ (if gate then count t = n
        else count t = next % 2 ^ 48 ∧ t.f F.TMU_STAT.RUN d i = if mode = 2 ∧ P ≤ n then 0 else 1))) ∧
    (Nexts (.tmuCapture die c pin rising) s (fun t =>
      (if s.live d = true ∧ s.f F.TMU_CTL.CAPSRC d i = (if rising then 2 else 3) ∧ s.f F.TMU_CTL.CPIN d i = pin.val then
        t.f F.TMU_CAPHI.HI d i * 4294967296 + t.f F.TMU_CAPLO.LO d i = n ∧ t.f F.TMU_STAT.CAPF d i = 1 ∧
        t.f F.TMU_STAT.OVF d i = (if s.f F.TMU_STAT.CAPF d i = 1 then 1 else s.f F.TMU_STAT.OVF d i) ∧ count t = n ∧ y t = x
      else t = s) ∧ frame t))

/-- Banks and pairs (R259, R260, R264, R266, R268): a handover ends when the old owner's requests have drained, or at its timeout, which
abandons them, sets local bit 42 and loses no other word; a woken bank is ON, with CLREV if it was OFF; at the end of a copy both banks
read alike and are in SYNC; a faulty word is repaired from a good twin in SYNC, else TWINBAD is set. -/
def Obligations.BankEvents : Prop :=
  ∀ (s : State) (die : DieNo) (bank : Fin 64) (word : BitVec 20),
    let d := die.val; let b := bank.val; let own := RegName.SHM_OWN.cell d [b]; let stat := RegName.SHM_STAT.cell d []
    let ended (t : State) : Prop := t.f F.SHM_OWN.PEND d [b] = 0 ∧ t.f F.SHM_OWN.OWNER d [b] = s.f F.SHM_OWN.OWNER d [b] ∧
      t.f F.SHM_STAT.OWNEV d [] = 1 ∧ (t.die d).handovers.get none b = none
    let old := s.draining d b
    let tw := s.twinOf d b; let home : Bool := b ∈ (s.die d).wasSolo ∨ (tw.2 ∉ (s.die tw.1).wasSolo ∧ s.f F.SHM_TWIN.HOME d [b] = 1)
    let here := bankPa d b word.toNat; let there := bankPa tw.1 tw.2 word.toNat
    (s.live d = true → s.f F.SHM_OWN.PEND d [b] = 1 → old = [] → Nexts (.handoverDrainEnd die bank) s (fun t => ended t ∧ Same s t [own, stat] [] [d] s)) ∧
    (s.live d = true → s.f F.SHM_OWN.PEND d [b] = 1 → Nexts (.handoverTimeout die bank) s (fun t => ended t ∧
      (∀ p ∈ old, let x := s.eng p.1 p.2; let y := t.eng p.1 p.2; let hit (z : Xfer) : Bool := z.pas.any (inBank d b)
        let kept := x.xfers.filterMap (fun z => if hit z then z.outside d b else some z)
        let over_ (k : Nat) : Bool := x.xfers.any (fun z => hit z && decide (z.tag = k)) && kept.all (fun z => decide (z.tag ≠ k) || z.moved)
        y.bits.get false 42 = true ∧ y.lmem = x.lmem ∧ y.sbuf = x.sbuf.filter (fun e => !inBank d b e.pa) ∧
        y.xfers = kept.filter (fun z => !over_ z.tag) ∧ (∀ k, over_ k = true → y.bits.get false (32 + k) = true)) ∧
      Same s t [own, stat] (old.map (fun p => 64 * p.1 + p.2)) [d] s)) ∧
    (s.live d = true → s.f F.SHM_PWR.PSTAT d [b] = 3 → Nexts (.bankWakeEnd die bank) s (fun t => t.f F.SHM_PWR.PSTAT d [b] = 0 ∧
      t.f F.SHM_STAT.CLREV d [] = (if (s.die d).waking.get none b = some true then 1 else s.f F.SHM_STAT.CLREV d []) ∧
      (∀ pa, t.word pa = if (s.die d).waking.get none b = some true ∧ inBank d b pa = true then 0 else s.word pa) ∧
      Same s t [RegName.SHM_PWR.cell d [b], stat] [] [d] { s with shm := t.shm })) ∧
    (s.live d = true → s.formed d b = true → s.f F.SHM_TWIN.SYNC d [b] = 0 → tw.1 ≠ d → s.bankOn d b = true → s.bankOn tw.1 tw.2 = true → Nexts (.twinCopyEnd die bank) s (fun t =>
      t.f F.SHM_TWIN.SYNC d [b] = 1 ∧ t.f F.SHM_TWIN.SYNC tw.1 [tw.2] = 1 ∧
      t.word here = (if home then s.word here else s.word there) ∧ t.word there = t.word here ∧
      (∀ pa, inBank d b pa = false → inBank tw.1 tw.2 pa = false → t.word pa = s.word pa) ∧
      Same s t [RegName.SHM_TWIN.cell d [b], RegName.SHM_TWIN.cell tw.1 [tw.2]] [] [d, tw.1] { s with shm := t.shm })) ∧
    (s.live d = true → s.f F.SHM_TWIN.EN d [b] = 1 → ok18 (s.word here) = false → Nexts (.twinReadReturn die bank word) s (fun t =>
      if s.formed d b = true ∧ s.f F.SHM_TWIN.SYNC d [b] = 1 ∧ s.bankOn tw.1 tw.2 = true ∧ ok18 (s.word there) = true then
        t.die d = { s.die d with colErrs := (t.die d).colErrs } ∧ (s.die d).colErrs.length < (t.die d).colErrs.length ∧
        Same s t [] [] [d] { s with shm := s.shm.set 0 here (s.word there) }
      else t.f F.SHM_STAT.TWINBAD d [] = 1 ∧ Same s t [stat] [] [] s))

/-- Blocks that cross dies, and the audit (R331, R332, R335 to R338, R355, R361, R362): a block in TRANSIT is sent once for one credit; its
content is placed in a loaned block, which joins the pending tail of an open queue whose collar admits it, and is acknowledged; the
source's block leaves TRANSIT; a credit message adds one credit unless the account is frozen; the audit settles each block by where it
is found. -/
def Obligations.KennelMoves : Prop :=
  ∀ (s : State) (die dst : DieNo) (h : BitVec 16) (fn q lb g n : Nat) (m : Msg) (rest : List Msg) (ws : List W18) (k : Holder) (l : List (BitVec 16 × Holder)),
    let d := die.val; let x := s.die d; let b := s.blk d h.toNat; let cred := F.KEN_CRED.CREDIT
    let late : Bool := decide (fn < x.ticks); let ws' := if late then markLate ws else ws
    s.live d = true →
    (x.outbound.find? (fun p => decide ((s.blk d p.1.toNat).dst / 131072 = dst.val) && !(s.blk d p.1.toNat).sent) = some (h, fn) →
      s.live dst.val = true → 0 < s.f cred d [dst.val] → s.f F.KEN_CRED.FROZEN d [dst.val] = 0 → Nexts (.crossDieSend die dst) s (fun t =>
        t.f cred d [dst.val] = s.f cred d [dst.val] - 1 ∧ t.blk d h.toNat = { b with sent := true } ∧
        (t.die d).seqTx.get 0 dst.val = x.seqTx.get 0 dst.val + 1 ∧
        ((t.die d).up.queue ++ (t.die d).dn.queue).contains ⟨d, dst.val, x.seqTx.get 0 dst.val, .block b.dst h (s.blockView d h.toNat).1 fn⟩ = true ∧
        t.engs = s.engs ∧ t.ques = s.ques ∧ t.shm = s.shm ∧ ∀ j, j ≠ d → t.dies.get {} j = s.dies.get {} j)) ∧
    (takeMsg (fun y => match y with | .block .. => true | _ => false) x.inbox = some (⟨dst.val, d, n, .block q h ws fn⟩, rest) →
      (s.loanOf d dst.val = none → Nexts (.blockPlacement die) s (fun t => (t.die d).inbox = rest ∧
        t.f F.KEN_DROP.COUNT d [4] = min (s.f F.KEN_DROP.COUNT d [4] + 1) 4294967295 ∧ t.blks = s.blks ∧ t.ques = s.ques ∧ t.engs = s.engs ∧ t.shm = s.shm)) ∧
      (s.loanOf d dst.val = some lb → (∀ f, s.flowOf q = some f → fn < (s.flowState f).opened) → Nexts (.blockPlacement die) s (fun t =>
        (t.die d).inbox = rest ∧ t.f F.KEN_DROP.COUNT d [2] = min (s.f F.KEN_DROP.COUNT d [2] + 1) 4294967295 ∧ t.ques = s.ques ∧ t.engs = s.engs)) ∧
      (s.loanOf d dst.val = some lb → s.flowOf q = some g → (s.flowState g).opened ≤ fn → ((s.flow g).cmax = 0 ∨ 1 ≤ (s.flowState g).tokens) → ws.length = 128 →
        Nexts (.blockPlacement die) s (fun t => (t.die d).inbox = rest ∧ (t.blk d lb).st = .queued ∧
          (t.que q).pend = (s.que q).pend ++ [⟨BitVec.ofNat 16 lb, 0, false, false⟩] ∧ (t.que q).com = (s.que q).com ∧
          t.f F.KEN_LATE.COUNT d [] = min (s.f F.KEN_LATE.COUNT d [] + late.toNat) 4294967295 ∧
          (∀ j < 128, t.word (s.blkPa d lb + j) = enc18 (ws'.getD j 0)) ∧
          t.engs = s.engs ∧ ∀ j, j ≠ q → t.que j = s.que j))) ∧
    (takeMsg (fun y => match y with | .ack _ => true | _ => false) x.inbox = some (⟨dst.val, d, n, .ack h⟩, rest) → Nexts (.placementAckReceive die) s (fun t =>
      (t.die d).inbox = rest ∧ (t.die d).outbound = x.outbound.filter (fun p => decide (p.1 ≠ h)) ∧ (t.blk d h.toNat).st ≠ .transit ∧
      t.engs = s.engs ∧ t.ques = s.ques ∧ t.shm = s.shm)) ∧
    (takeMsg (fun y => match y with | .credit => true | _ => false) x.inbox = some (m, rest) → Nexts (.creditMessageReceive die) s (fun t =>
      (t.die d).inbox = rest ∧ t.f cred d [m.src] = (if s.f F.KEN_CRED.FROZEN d [m.src] = 1 then s.f cred d [m.src] else min (s.f cred d [m.src] + 1) 65535) ∧
      Same s t [RegName.KEN_CRED.cell d [m.src]] [] [d] s)) ∧
    (x.audit.running = true → 64 ≤ x.audit.frame → x.audit.settled = false → Nexts (.auditEnd die) s (fun t =>
      (t.die d).audit.settled = true ∧
      (s.validH d h.toNat = true → (s.holders d).filter (fun p => decide (p.1 = h.toNat)) = [(h.toNat, k)] →
        (t.blk d h.toNat).inFree = false ∧
        (t.blk d h.toNat).st = if b.st = k.state ∨ (k.state = .queued ∧ b.st = .held) then b.st else k.state) ∧
      (s.validH d h.toNat = true → (s.holders d).all (fun p => decide (p.1 ≠ h.toNat)) = true →
        (t.blk d h.toNat).inFree = true ∧ (t.blk d h.toNat).st = .free))) ∧
    (x.audit.copies = (h, k) :: l → k ≠ .loan → (h.toNat, k) ∉ s.holders d → Nexts (.auditCopy die) s (fun t => (t.die d).audit.copies = l ∧ Same s t [] [] [d] s)) ∧
    (x.audit.copies = (h, k) :: l → (k = .loan ∨ (h.toNat, k) ∈ s.holders d) → s.pickFree d = some n → n ≠ h.toNat → Nexts (.auditCopy die) s (fun t => (t.die d).audit.copies = l ∧ (t.blk d n).st = k.state ∧
      (t.blk d n).inFree = false ∧ (∀ j < 128, t.word (s.blkPa d n + j) = enc18 ((s.blockView d h.toNat).1.getD j 0)) ∧
      ((∀ e, k ≠ .hold e) → t.engs = s.engs) ∧ t.flA = s.flA))

/-- Spine messages and directions (R35 to R41, R44 to R46): a port sends through and local messages in turn, and test messages when nothing else
waits; a message whose check passes is delivered in sequence order at its destination, where a host's write reaches its register, its read sends
an answer back and an answer reaches the host, or goes on, and ends where its destination has stopped; a failed check counts a resend, and
the third in a row takes the direction DOWN, with its event, and its messages the other way; a trained direction reads OK from the next
tick and a failed training leaves it DOWN. -/
def Obligations.SpineEvents : Prop :=
  ∀ (s : State) (die : DieNo) (dir : Dir) (m : Msg) (good : Bool) (seqs : List (Nat × Nat)) (n : Nat) (f : Dir) (p : PortNo) (r : RegName) (idx : List Nat) (v : W32)
    (A : Nat) (be : BitVec 8) (l : List Byte),
    let d := die.val; let st : Dir → Fld := fun r => match r with | .up => F.SPN_STAT.UP_STATE | .dn => F.SPN_STAT.DN_STATE
    let flip : Dir := match dir with | .up => .dn | .dn => .up
    let nb := s.next d flip; let out (t : State) (i : Nat) (r : Dir) : Segment := match r with | .up => (t.die i).up | .dn => (t.die i).dn
    let again : Fld := match dir with | .up => F.SPN_RESEND_DN.COUNT | .dn => F.SPN_RESEND_UP.COUNT
    let g := out s nb dir; let want := ((s.die d).seqRx.get 0 m.src)
    let sent : Option (Msg × Bool × Segment) := match g.cur with
      | some (y, b) => some (y, b, g)
      | none => match g.through, g.queue with
        | y :: ys, [] => some (y, true, { g with through := ys, turn := false })
        | [], z :: zs => some (z, false, { g with queue := zs, turn := false })
        | y :: ys, z :: zs => if g.turn then some (z, false, { g with queue := zs, turn := false }) else some (y, true, { g with through := ys, turn := true })
        | [], [] => match g.tests with
          | [] => none
          | y :: ys => some (y, false, { g with tests := ys, turn := false })
    let plain : Prop := m.body ≠ .test ∧ ∀ r q b, m.body ≠ .flood r q b
    let on : Dir := if s.segUp d dir then dir else flip
    let quiet : Bool := s.dies.all (fun q => q.2.due.isEmpty) && s.pkg.waits.all (fun w => match w.kind with | .writes .. => false | _ => true)
    let calm : Bool := match m.body with
      | .flood _ _ (.host ..) => false
      | .flood .. => (s.die d).early.isEmpty
      | .host .. => decide (m.dst ≠ d)
      | _ => decide (m.dst ≠ d) || (s.die d).early.isEmpty
    let numbered : Msg := if m.body = .test ∧ m.src = nb ∧ g.cur = none then { m with seq := (s.die nb).seqTx.get 0 m.dst } else m
    (s.live d = false ∨ 1 < s.f (st dir) nb [] ∨ sent = none → Nexts (.spineMessageReceive die dir good) s (fun t => t = s)) ∧
    (∀ (thr : Bool) (g1 : Segment), s.live d = true → s.f (st dir) nb [] ≤ 1 → sent = some (m, thr, g1) → nb ≠ d → quiet = true →
      Nexts (.spineMessageReceive die dir true) s (fun t =>
        (calm = true → t.f (st dir) nb [] = 0 ∧ out t nb dir = { g1 with cur := none, bad := 0, load := g.load + m.body.cycles }) ∧
        (m.body = .host p (.write (r.addr d idx) v) → m.dst = d → m.seq = want → (s.die d).early = [] → s.target (r.addr d idx) = some ⟨r, d, idx, false⟩ →
          r ∉ specialRegs → r.banked = false → ∀ x ∈ r.desc.fields, field (t.reg r d idx) x.hi x.lo = fieldAfter x d (field (s.reg r d idx) x.hi x.lo) (field v x.hi x.lo)) ∧
        (m.body = .host p (.read A be) → m.dst = d → m.seq = want → (s.die d).early = [] → p.val ≠ d → s.target (A / 4 * 4) = some ⟨r, d, idx, false⟩ →
          ((t.die d).up.queue ++ (t.die d).dn.queue).contains ⟨d, p.val, (s.die d).seqTx.get 0 p.val, .host p (.reply A (askedBytes be (s.show_ ⟨r, d, idx, false⟩)))⟩ = true) ∧
        (m.body = .host p (.reply A l) → m.dst = d → m.seq = want → (s.die d).early = [] →
          (t.port p.val).sent = (s.port p.val).sent ++ [.readReply .bar0 A l]) ∧
        (plain → m.dst = d → calm = true →
          (m.seq = want → (t.die d).seqRx.get 0 m.src = want + 1 ∧ (t.die d).early = []) ∧
          (want < m.seq → (t.die d).early = [m] ∧ Same s t [RegName.SPN_STAT.cell nb []] [] [d, nb] s) ∧
          (m.seq < want → t.die d = s.die d ∧ Same s t [RegName.SPN_STAT.cell nb []] [] [nb] s)) ∧
        (plain → m.dst ≠ d → s.live m.dst = true → (out t d on).through = (out s d on).through ++ [m] ∧ (out t d on).queue = (out s d on).queue ∧
          Same s t [RegName.SPN_STAT.cell nb []] [] [d, nb] s) ∧
        (plain → m.dst ≠ d → s.live m.dst = false → Same s t [RegName.SPN_STAT.cell nb []] [] [nb] s) ∧
        (m.body = .flood f seqs .presence → seqs.find? (fun p => decide (p.1 = d)) = some (d, n) → n = want → (s.die d).early = [] →
          m.src ∈ (t.die d).heard ∧ (t.die d).seqRx.get 0 m.src = want + 1 ∧ (out t d on).through = (out s d on).through ++
            (if s.next d on = m.src then [] else [{ m with body := .flood on seqs .presence }]) ∧
          Same s t [RegName.SPN_STAT.cell nb []] [] [d, nb] s)) ∧
      Nexts (.spineMessageReceive die dir false) s (fun t => t.f again d [] = min (s.f again d [] + 1) again.top ∧
        (if g.bad < 2 then t.f (st dir) nb [] = 1 ∧ out t nb dir = { g1 with cur := some (numbered, thr), bad := g.bad + 1, load := g.load + m.body.cycles } ∧
          Same s t [RegName.SPN_STAT.cell nb [], again.reg.cell d []] [] [nb] s
        else s.dies.all (fun q => q.2.early.isEmpty) = true → t.f (st dir) nb [] = 2 ∧ (out t nb dir).cur = none ∧ (out t nb dir).through = [] ∧ (out t nb dir).queue = [] ∧
          (plain → m ∈ (out t nb flip).through ++ (out t nb flip).queue) ∧
          t.events = s.events ++ [⟨0x24, nb, 2, s.fn nb, [match dir with | .up => 0 | .dn => 1]⟩]))) ∧
    (let g := out s d dir; if s.f (st dir) d [] = 3 ∧ g.trained = false then
        Nexts (.spineTrainingEnd die dir true) s (fun t => out t d dir = { g with trained := true, load := g.load + 1024 } ∧
          Same s t [RegName.SPN_CTL.cell d []] [] [d] s) ∧
        Nexts (.spineTrainingEnd die dir false) s (fun t => t.f (st dir) d [] = 2 ∧ out t d dir = { g with load := g.load + 1024 } ∧
          Same s t [RegName.SPN_CTL.cell d [], RegName.SPN_STAT.cell d []] [] [d] s)
      else Nexts (.spineTrainingEnd die dir good) s (fun t => t = s))

/-- The folio sequencer (R68 to R73, R75, R77, R81, R107, R160, R255, R256): a run starts with the state that R70 gives, its entry's PC and
ASID and SEQ; the idle folio starts in supervisor mode; an overrun budget only raises its event; a constant region is copied from its
source, and a bank whose owner does not admit the quire refuses the load and is recorded; FEND commits the work, ends the run and marks
the entry's leaves. -/
def Obligations.FolioEvents : Prop :=
  ∀ (s : State) (die : DieNo) (e : EngNo) (j : Fin 8) (i q : Nat) (again : Bool) (h : BitVec 16),
    let d := die.val; let x := s.engOf ⟨die, e, 0, none, true, none⟩; let k := 64 * d + e.val; let y (t : State) : Eng := t.eng d e.val; let g := 131072 * d + q
    let stat := RegName.ENG_FSTAT.cell d [e.val]; let seq (t : State) : Nat := t.f F.ENG_FSTAT.SEQ d [e.val]
    let same (t : State) (more : List Nat) : Prop := Same s t more [k] [] s
    let begun (t : State) (pc asid st : Nat) : Prop := (y t).pc.toNat = pc ∧ (y t).asid.toNat = asid ∧ (y t).st.toNat = st ∧ (y t).fl = 0 ∧ (y t).rc = 0 ∧
      (y t).scnt = 0 ∧ (y t).vl = 0 ∧ (y t).vfi = 0 ∧ (y t).loops = [] ∧ (y t).rstack = [] ∧ (y t).ivec = x.ivec ∧ (y t).tvec = x.tvec ∧ (y t).imask = x.imask ∧
      (y t).lmem = x.lmem ∧ (y t).pmem = x.pmem ∧ (y t).half = x.half ∧ (y t).bits = x.bits ∧ same t [stat]
    let starts (t : State) (pc asid st : Nat) : Prop := (x.ipend = 0 → begun t pc asid st) ∧
      (∀ n, x.ipend.getLsbD n = true → (∀ k < n, x.ipend.getLsbD k = false) → (y t).epc.toNat = pc ∧ (y t).asid.toNat = asid ∧
        (y t).pc = BitVec.ofNat 12 (x.ivec.toNat / 16 * 16 + 16 * n) ∧ (y t).st = entrySt (BitVec.ofNat 18 st) ∧ (y t).lmem = x.lmem ∧
        same t [stat, RegName.ENG_PMBANK.cell d [e.val]])
    let len := s.fa F.ENG_CMA.LLEN d [e.val, j.val]; let src := bankPa d 0 (s.fa F.ENG_CMB.SRC d [e.val, j.val]); let l0 := s.fa F.ENG_CMA.LSTART d [e.val, j.val]
    let turned (t : State) : Prop := ∀ n < 64, t.leaves.get .zero (16384 * d + n) = (let l := s.leaves.get .zero (16384 * d + n)
      if l.v = true ∧ l.eng = e.val ∧ l.entry = i then { l with turn := true } else l)
    let idle : Bool := decide (s.fa F.ENG_IDLE.EN d [e.val] = 1) && !x.listDone
    let ended (t : State) : Prop := (y t).run = .none ∧ (y t).next = i + 1 ∧ (y t).fended = x.fended ++ [i] ∧ (y t).fend = false ∧ (y t).lmem = x.lmem ∧ turned t ∧
      (∀ n, n ≠ k → t.engs.get {} n = s.engs.get {} n) ∧ (idle = true → seq t = seq s) ∧
      ((s.die d).phase = .work → idle = false → i + 1 < 16 → s.f F.ENG_CTL.SPARE d [e.val] = 0 → seq t = (if s.fa F.ENG_FLA.V d [e.val, i + 1] = 1 then seq s else 4))
    (s.canStart d e.val = true → x.redo = none → x.next < 16 → x.listDone = false → s.fa F.ENG_FLA.V d [e.val, x.next] = 1 →
      Nexts (.folioStart die e) s (fun t => starts t (s.fa F.ENG_FLA.PC d [e.val, x.next]) (s.fa F.ENG_FLB.ASID d [e.val, x.next]) 2 ∧
        (y t).run = .folio x.next false ∧ t.f F.ENG_FSTAT.CUR d [e.val] = x.next ∧ seq t = 1)) ∧
    (s.canStart d e.val = true → x.redo = some i → i < 16 → Nexts (.folioReplay die e) s (fun t =>
        starts t (s.fa F.ENG_FLA.PC d [e.val, i]) (s.fa F.ENG_FLB.ASID d [e.val, i]) 2 ∧
        (y t).run = .folio i true ∧ (y t).redo = none ∧ t.f F.ENG_FSTAT.CUR d [e.val] = i ∧ seq t = 2)) ∧
    (s.canStart d e.val = true → x.redo = none → x.listDone = false → (16 ≤ x.next ∨ s.fa F.ENG_FLA.V d [e.val, x.next] = 0) → s.fa F.ENG_IDLE.EN d [e.val] = 1 →
      Nexts (.idleFolioStart die e) s (fun t => starts t (s.fa F.ENG_IDLE.PC d [e.val]) 0 3 ∧ (y t).run = .idle ∧ seq t = 3)) ∧
    (x.run = .folio i again → s.fa F.ENG_FLA.BUDGET d [e.val, i] ≠ 0 → x.budgetHit = false → Nexts (.budgetExceeded die e) s (fun t =>
        t.f F.ENG_FEV.BUDGET d [e.val] = 1 ∧ y t = { x with budgetHit := true } ∧ same t [RegName.ENG_FEV.cell d [e.val]])) ∧
    (s.live d = true → (s.die d).phase = .work → x.consts.contains j.val = true → x.run = .none → (∀ n < len, ok18 (s.word (src + n)) = true ∧ s.mustWait d e.val (src + n) = false ∧ s.constOpen d e.val (src + n) = true) →
      Nexts (.constantRegionLoad die e j) s (fun t => (∀ n < len, (y t).lmem.get 0 ((l0 + n) % 65536) = s.word (src + n)) ∧
        (∀ n, n < 65536 → len ≤ (n + 65536 - l0) % 65536 → (y t).lmem.get 0 n = x.lmem.get 0 n) ∧
        (y t).consts = x.consts.filter (fun n => decide (n ≠ j.val)) ∧ same t [])) ∧
    (s.live d = true → (s.die d).phase = .work → x.consts.contains j.val = true → x.run = .none → len ≠ 0 → src % 1048576 + len ≤ 1048576 →
      s.mustWait d e.val src = false → s.constOpen d e.val src = false →
      Nexts (.constantRegionLoad die e j) s (fun t => (y t).lmem = x.lmem ∧ (y t).consts = x.consts.filter (fun n => decide (n ≠ j.val)) ∧
        t.f F.SHM_STAT.VIOL d [] = 1 ∧ t.f F.SHM_VIOL.COUNT d [] = min (s.f F.SHM_VIOL.COUNT d [] + 1) 65535 ∧ t.f F.SHM_VIOL.MASTER d [] = e.val / 8 ∧
        t.f F.SHM_VIOL.BANK d [] = paBank src ∧ same t [RegName.SHM_STAT.cell d [], RegName.SHM_VIOL.cell d []])) ∧
    (x.run = .folio i again → x.fend = true → x.landed = true → s.live d = true →
      (x.work = ⟨[], [], [], []⟩ → Nexts (.fendCommit die e) s (fun t => ended t ∧ Same s t [stat] [k] [] { s with leaves := t.leaves })) ∧
      (x.work = ⟨[], [h], [(h, g)], []⟩ → q < 131072 → s.queOpen g = true → Nexts (.fendCommit die e) s (fun t => ended t ∧ (t.blk d h.toNat).st = .queued ∧
        t.que g = { s.que g with pend := (s.que g).pend ++ [⟨h, 0, false, false⟩] } ∧ (∀ n, n ≠ g → t.que n = s.que n) ∧ t.shm = s.shm)) ∧
      (x.work = ⟨[(h, g)], [], [], [h]⟩ → Nexts (.fendCommit die e) s (fun t => ended t ∧ (t.blk d h.toNat).st ≠ .held ∧
        ((s.blk d h.toNat).st = .held → (∀ a < 80, s.fa F.KEN_LOAN.TARGET d [a] ≤ s.f F.KEN_LACT.LOANED d [a]) → t.blk d h.toNat = .free) ∧
        (t.que g).com = markEnt h.toNat (fun z => { z with gone := true }) (s.que g).com ∧ (∀ n, n ≠ g → t.que n = s.que n) ∧ t.shm = s.shm)))

/-- What engines have sent lands (R161, R183, R188, R208, R231, R272, R300, R302, R310 to R315, R459): a far load writes the word or words
at its PA, forwarded words, an undefined value for a mailbox word that met a panel-side write, aperture data or the walk's pair, and
adds its stall; a store writes package memory, a register or an aperture; a finished transfer has moved its words and sets its done bit;
a program-memory write gets its check bits. -/
def Obligations.FarLandings : Prop :=
  ∀ (s : State) (die : DieNo) (e : EngNo) (data : W36) (dat : Option W36) (cycles i b : Nat) (slot tag : Fin 8) (w : FarWait) (rest : List FarWait) (f : Xfer) (p : PmwEnt) (l : List PmwEnt) (v : SbEnt) (h : BitVec 16) (u : W18),
    let d := die.val; let x := s.engOf ⟨die, e, 0, none, true, none⟩; let k := 64 * d + e.val; let y (t : State) : Eng := t.eng d e.val
    let stall := F.ENG_STALL.CYCLES; let cell := stall.reg.cell d [e.val]; let pa := s.landPa w.pa; let mem := decide (w.pa < 68719476736)
    let at_ (n : Nat) : W18 := data18 (s.word (pa + n)); let good (n : Nat) : Bool := ok18 (s.word (pa + n))
    let aper := decide (137438953472 ≤ w.pa) && s.live (aperPort w.pa) && !(s.port (aperPort w.pa)).inReset
    let back (r : Eng) : Prop := Nexts (.farLoadReturn die e dat cycles) s (fun t => y t = r ∧ t.f stall d [e.val] = min (s.f stall d [e.val] + cycles) stall.top ∧ Same s t [cell] [k] [] s)
    let hot (n : Nat) : Bool := s.hotWord (pa + n); let z := { x with far := rest }; let put (o : Eng) (n : Nat) (c : W18) : Eng := if w.beaten.contains n then o else o.put (.d n c)
    let internal : Bool := decide (s.f F.SHM_MBX.PRI (paDie pa) [] ≠ 0)
    let older := x.walk.filter (fun q => decide (q.1 ≠ w.pa)); let D (o : Eng) (n : Nat) (c : W18) : Eng := o.put (.d n c)
    let words := v.words; let sp := s.landPa v.pa
    (s.live d = true → x.farOld = [] → x.far = w :: rest → s.farReady d e.val w = true →
      (w.kind = .word i → w.fwd = none → mem = true → hot 0 = false → good 0 = true → back (put z i (at_ 0))) ∧
      (w.kind = .word i → w.fwd = none → mem = true → hot 0 = true → Nexts (.farLoadReturn die e dat cycles) s (fun t => y t = put z i (freeBits 18 s.fresh) ∧
        t.f stall d [e.val] = min (s.f stall d [e.val] + cycles) stall.top ∧ (let m := s.die (paDie pa); t.die (paDie pa) = { m with panel := { m.panel with hot := m.panel.hot.erase (pa % 4096), busy := m.panel.busy || !internal } }) ∧
        t.f (if internal then F.SHM_MBX.ICOLL else F.SHM_MBX.PCOLL) (paDie pa) [] = 1 ∧ Same s t [cell, RegName.SHM_MBX.cell (paDie pa) []] [k] [paDie pa] s)) ∧
      (w.kind = .word i → w.fwd = some [u] → back (put z i u)) ∧
      (w.kind = .double i → w.fwd = none → mem = true → hot 0 = false → hot 1 = false → good 0 = true → good 1 = true → back (put (put z i (at_ 0)) (i + 1) (at_ 1))) ∧
      (w.kind = .double i → w.fwd = none → aper = true → dat = some data → Nexts (.farLoadReturn die e dat cycles) s (fun t =>
        y t = put (put z i (data.setWidth 18)) (i + 1) ((data >>> 18).setWidth 18) ∧ (t.port (aperPort w.pa)).sent = (s.port (aperPort w.pa)).sent ++ [.apertureRead w.host 2] ∧
        Same s t [cell] [k] [] { s with pkg := t.pkg })) ∧
      (w.kind = .double i → w.fwd = none → 137438953472 ≤ w.pa → (aper = false ∨ dat = none) → Nexts (.farLoadReturn die e dat cycles) s (fun t =>
        y t = put (put z i 0) (i + 1) 0 ∧ t.f F.HPT_ERR.APERR (aperPort w.pa) [] = 1 ∧
        Same s t [cell, RegName.HPT_ERR.cell (aperPort w.pa) [], RegName.HPT_APERR.cell (aperPort w.pa) []] [k] [] { s with pkg := t.pkg })) ∧
      (w.kind = .walk 8 9 10 11 → w.fwd = none → mem = true → hot 0 = false → hot 1 = false → good 0 = true → good 1 = true → back { D (D (D (D z 8 (at_ 0)) 9 (at_ 1)) 10 (BitVec.ofNat 18 w.pa)) 11 (BitVec.ofNat 18 (w.pa / 262144)) with
        walk := (if older.length < 16 then older else older.drop 1) ++ [(w.pa, at_ 1 ++ at_ 0, false)] })) ∧
    (s.live d = true → x.farOld = [] → x.far = w :: rest → w.kind = .sbit i (some true) true →
      (let gr := s.sbits.get .zero (4096 * d + i % 65536 / 16); ok16 gr.c0 = true ∧ gr.c1 = gr.c0) → Nexts (.farLoadReturn die e dat cycles) s (fun t =>
        let gr := s.sbits.get .zero (4096 * d + i % 65536 / 16); let nw := enc16 (gr.c0.setWidth 16 ||| BitVec.twoPow 16 (i % 16))
        t.sbits.get .zero (4096 * d + i % 65536 / 16) = ⟨nw, nw⟩ ∧ y t = z.put (.fl w.sh 1 (if gr.c0.getLsbD (i % 16) then 1 else 0)) ∧
        (∀ n, n ≠ 4096 * d + i % 65536 / 16 → t.sbits.get .zero n = s.sbits.get .zero n) ∧ Same s t [cell] [k] [] { s with sbits := t.sbits })) ∧
    (s.live d = true → x.farOld = w :: rest → s.farReady d e.val w = true → w.kind = .word i → w.fwd = none → mem = true → hot 0 = false → good 0 = true →
      back (if x.sh then (if w.beaten.contains i then { x with farOld := rest } else { x with farOld := rest, pwf := x.pwf ++ [⟨0, .d i (at_ 0), false⟩] })
        else put { x with farOld := rest } i (at_ 0))) ∧
    (s.live d = true → x.sbuf[slot.val]? = some v → (x.sbuf.take slot.val).all (fun o => decide (v.pa < 137438953472 ∧ s.farDie o.pa ≠ s.farDie v.pa)) = true →
      x.out (s.live (s.farDie v.pa)) v.toks = false → s.inTurn d e.val v.toks = true → x.waitsFor v.epoch x.xfers = false →
      let out := s.setEng d e.val { x with sbuf := x.sbuf.eraseIdx slot.val }; let port := aperPort v.pa; let paired := s.formed (paDie sp) (paBank sp)
      (v.pa < 68719476736 → s.mustWait d e.val sp = false → v.bad = false → paShared sp = true → (paired = false ∨ b = 1) → v.words.length = b → sp % 1048576 + b ≤ 1048576 →
        Nexts (.farStoreLand die e slot) s (fun t => y t = { x with sbuf := x.sbuf.eraseIdx slot.val } ∧ (b ≠ 1 → ∀ n < b, t.word (sp + n) = enc18 (words.getD n 0)) ∧
          (b = 1 → (paired = true → s.reaches (s.twinPa sp) = true → t.word (s.twinPa sp) = enc18 (words.getD 0 0)) ∧ t.word sp = enc18 (words.getD 0 0)) ∧
          (∀ n, (n < sp ∨ sp + b ≤ n) → n ≠ s.twinPa sp → t.word n = s.word n) ∧
          Same s t [] [k] (if paired then [paDie sp, paDie (s.twinPa sp)] else []) { s with shm := t.shm })) ∧
      (v.pa < 68719476736 → v.bad = false → paMailbox sp = true → s.hotWord sp = true → v.words.length = 1 → Nexts (.farStoreLand die e slot) s (fun t =>
        t.word sp = (if s.f F.SHM_MBX.PRI (paDie sp) [] = 0 then s.word sp else enc18 (words.getD 0 0)) ∧ (∀ n, n ≠ sp → t.word n = s.word n) ∧
        Same s t [RegName.PNL_STAT.cell (paDie sp) []] [k] [paDie sp] { s with shm := t.shm })) ∧
      (v.pa < 68719476736 → v.bad = false → paMailbox sp = true → s.hotWord sp = false → v.words.length = 1 → Nexts (.farStoreLand die e slot) s (fun t => t.word sp = enc18 (words.getD 0 0) ∧
        t.f F.PNL_STAT.IRQ (paDie sp) [] = (if (sp % 4096 = 0x7FF ∨ sp % 4096 = 0x803) ∧ s.panelOn (paDie sp) = true then 1 else s.f F.PNL_STAT.IRQ (paDie sp) []) ∧
        (∀ n, n ≠ sp → t.word n = s.word n) ∧ Same s t [RegName.PNL_STAT.cell (paDie sp) []] [k] [] { s with shm := t.shm })) ∧
      (68719476736 ≤ v.pa → v.pa < 137438953472 → v.bad = false → words = [BitVec.ofNat 18 data.toNat, BitVec.ofNat 18 (data.toNat / 262144)] → 2 * (v.pa % 68719476736) < 16777216 →
        Nexts (.registerWrite (.eng die e) .bar0 (BitVec.ofNat 24 (2 * (v.pa % 68719476736))) (data.setWidth 32) 0x0F#8) out (fun o => Nexts (.farStoreLand die e slot) s (fun t => t = o))) ∧
      (137438953472 ≤ v.pa → v.bad = false → s.live port = true → (s.port port).inReset = false → Nexts (.farStoreLand die e slot) s (fun t =>
        (t.port port).sent = (s.port port).sent ++ words.mapIdx (fun n c => .aperture (v.host + 4 * n) (c.signExtend 32)) ∧ Same s t [] [k] [] { s with pkg := t.pkg })) ∧
      (137438953472 ≤ v.pa → v.bad = false → (s.live port = false ∨ (s.port port).inReset = true) → Nexts (.farStoreLand die e slot) s (fun t => t.f F.HPT_ERR.APERR port [] = 1 ∧
        t.f F.HPT_APERR.COUNT port [] = min (s.f F.HPT_APERR.COUNT port [] + 1) F.HPT_APERR.COUNT.top ∧ t.pkg = s.pkg ∧ t.shm = s.shm)) ∧
      (v.pa < 68719476736 → s.mustWait d e.val sp = false → v.bad = true → x.run = .none → Nexts (.farStoreLand die e slot) s (fun t => (y t).sbuf = x.sbuf.eraseIdx slot.val ∧
        (y t).bits = x.bits.set false 41 true ∧ t.shm = s.shm))) ∧
    (s.live d = true → x.xfers.filter (fun t => decide (t.tag = tag.val)) = [f] → s.xferReady d e.val f = true → f.dirty = [] → f.len ≤ 512 →
      let others := { x with xfers := x.xfers.erase f }
      let done (t : State) : Prop := (y t).bits = x.bits.set false (32 + tag.val) true ∧ (y t).xfers.length + 1 = x.xfers.length
      let into (t : State) (c : Nat → W18) : Prop := (∀ n < f.len, (y t).lmem.get 0 ((f.loc.toNat + n) % 65536) = enc18 (c n)) ∧
        (∀ n, f.len ≤ (n + 65536 - f.loc.toNat) % 65536 → (y t).lmem.get 0 n = (if n < 65536 then x.lmem.get 0 n else (y t).lmem.get 0 n))
      let lone (pa : Nat) : Bool := (List.range f.len).all (fun n => !s.formed (paDie (pa + n)) (paBank (pa + n)))
      let from_ (t : State) (pa : Nat) : Prop := ((lone pa = true ∨ f.len = 1) → ∀ n < f.len, t.word (pa + n) = x.lmem.get 0 ((f.loc.toNat + n) % 65536)) ∧
        (f.len = 1 → paShared pa = true → s.formed (paDie pa) (paBank pa) = true → s.reaches (s.twinPa pa) = true → t.word (s.twinPa pa) = x.lmem.get 0 (f.loc.toNat % 65536)) ∧
        (lone pa = true → ∀ n, (n < pa ∨ pa + f.len ≤ n) → t.word n = s.word n) ∧ Same s t [] [k] (if lone pa then [] else List.range 8) { s with shm := t.shm }
      let gives : Bool := (List.range f.len).all (fun n => ok18 (x.lmem.get 0 ((f.loc.toNat + n) % 65536)) && !others.fetching ((f.loc.toNat + n) % 65536))
      (f.kind = .fetch → x.xfers.all (fun z => !z.moved) = true → (List.range f.len).all (fun n => ok18 (s.word (f.pa + n))) = true → Nexts (.transferComplete die e tag) s (fun t =>
        done t ∧ into t (fun n => data18 (s.word (f.pa + n))) ∧ Same s t [] [k] [] s)) ∧
      (f.kind = .fetchB h → x.xfers.all (fun z => !z.moved) = true → (s.blockView d h.toNat).2.1 = 0 → (s.blockView d h.toNat).2.2 = false → f.len = 128 → Nexts (.transferComplete die e tag) s (fun t =>
        done t ∧ into t (fun n => ((s.blockView d h.toNat).1).getD n 0) ∧ Same s t [] [k] [d] s)) ∧
      (f.kind = .stow → gives = true → Nexts (.transferComplete die e tag) s (fun t => done t ∧ from_ t f.pa)) ∧
      (f.kind = .stowB h → gives = true → f.len = 128 → Nexts (.transferComplete die e tag) s (fun t => done t ∧ from_ t (s.blkPa d h.toNat))) ∧
      (f.kind = .gather b → f.elems.all (fun q => ok18 (s.word q.2) && !s.hotWord q.2) = true → (f.elems.map Prod.fst).Nodup → f.elems.all (fun q => decide (q.1 < 64)) = true → Nexts (.transferComplete die e tag) s (fun t => done t ∧
        (∀ q ∈ f.elems, (y t).v.get 0 (16 * b + q.1) = data18 (s.word q.2)) ∧ (y t).lmem = x.lmem ∧ Same s t [] [k] [] s)) ∧
      (f.kind = .scatter → (f.elems.map Prod.fst).Nodup → f.elems.all (fun q => (paShared q.1 && !s.formed (paDie q.1) (paBank q.1)) ||
          (paMailbox q.1 && !s.hotWord q.1 && decide (q.1 % 4096 ≠ 0x7FF ∧ q.1 % 4096 ≠ 0x803))) = true → Nexts (.transferComplete die e tag) s (fun t => done t ∧
        (∀ q ∈ f.elems, t.word q.1 = enc18 (BitVec.ofNat 18 q.2)) ∧ (y t).lmem = x.lmem ∧ Same s t [] [k] [] { s with shm := t.shm }))) ∧
    (x.pmws = p :: l → Nexts (.pmwLand die e) s (fun t => let n := (if p.half then 4096 else 0) + p.addr.toNat
      (y t).pmem.get 0 n = encBundle p.data ∧ (y t).pmws = l ∧ (∀ j, j ≠ n → (y t).pmem.get 0 j = x.pmem.get 0 j) ∧ (y t).lmem = x.lmem ∧ (y t).d = x.d ∧ Same s t [] [k] [] s))

/-- The frame (R53, R54, R60, R63 to R66, R90, R92, R413, R601): the master's heel goes both ways and a good copy travels on; a tick fires
from its heel, or from the own count with HEELMISS, moves FN on by one or to a load, samples its inputs and applies a GO; the guard
stops runs without FEND; holdover begins and ends on every die. -/
def Obligations.TickEvents : Prop :=
  ∀ (s : State) (die : DieNo) (e : EngNo) (dir : Dir) (inp : TickIn) (h : Heel) (hops i : Nat) (rest : List (Heel × Nat)) (again : Bool) (c : Decision),
    let d := die.val; let x := s.die d; let k := e.val; let out (t : State) (n : Nat) (r : Dir) : Segment := match r with | .up => (t.die n).up | .dn => (t.die n).dn
    let flip : Dir := match dir with | .up => .dn | .dn => .up
    let nb := s.next d flip; let first : Bool := decide (s.pkg.rounds ≤ x.ticks); let sig (t : State) (f : Fld) : Nat := t.f f d []
    let load : Bool := if first then decide (s.f F.TCK_CTL.FNLD 0 [] = 1 ∧ s.pkgState = 2 ∧ s.f F.PKG_SWAP.ARMED 0 [] = 0) else s.pkg.ldFn.isSome
    let fired (t : State) : Prop := (t.die d).ticks = x.ticks + 1 ∧ (t.die d).phase = .work ∧ (t.die d).heel = none ∧ sig t F.TCK_STAT.LOCK = inp.lock.toNat ∧
      sig t F.TCK_SKEW.SKEW = inp.skew.toNat ∧ sig t F.DIE_TEMP.TEMP = inp.temp.toNat ∧
      (load = false → t.fn d = s.nextFn d) ∧ (load = true → first = true → t.fn d = s.f F.TCK_FNSET_HI.FNSET_HI 0 [] * 4294967296 + s.f F.TCK_FNSET_LO.FNSET_LO 0 []) ∧
      (∀ n, n ≠ d → n < 8 → t.fn n = s.fn n)
    let go (t : State) : Prop := x.armT = some (s.nextFn d) → x.decision = some c → load = false → s.pkgState = 3 → s.f F.ENG_STAT.PWR d [k] = 1 → s.f F.ENG_CTL.EN d [k] = 1 →
      (s.die d).suspects = [] → (∀ n < 16, s.takeDue d n = false) → s.pkg.early = none → (∀ n, s.pkg.boot.stage ≠ .enter n) →
      (t.eng d k).half = (if c.go then !(s.eng d k).half else (s.eng d k).half) ∧ (t.die d).armT = none ∧
      (first = true → t.f F.PKG_SWAP.ARMED 0 [] = 0 ∧ t.f F.PKG_SWAP.OUTCOME 0 [] = c.outcome % 4)
    let both (t : State) : Prop := ∀ n < 2, s.live n = true → t.f F.TCK_STAT.HOLDOVER n [] = 1 ∧ t.f F.TCK_STAT.SRCLOST n [] = 1
    (s.live d = true → sig s F.TCK_STAT.MASTER = d → x.phase = .guard → x.heel = none → Nexts (.heelSend die) s (fun t =>
      let hl : Heel := ⟨BitVec.ofNat 48 (s.nextFn d), d, if x.armT = some (s.nextFn d) then x.decision else none⟩
      (t.die d).heel = some hl ∧ (out t d .up).heels = x.up.heels ++ [(hl, 1)] ∧ (out t d .dn).heels = x.dn.heels ++ [(hl, 1)] ∧
      Same s t [] [] [d] s)) ∧
    (s.live d = true → (out s nb dir).heels = (h, hops) :: rest → nb ≠ d → Nexts (.heelReceive die dir false) s (fun t => (out t nb dir).heels = rest ∧ Same s t [] [] [nb] s) ∧
      Nexts (.heelReceive die dir true) s (fun t => (out t nb dir).heels = rest ∧
        (t.die d).heel = (if x.heel = none ∧ x.phase = .guard ∧ h.fn.toNat = s.nextFn d then some h else x.heel) ∧
        (out t d dir).heels = (if s.next d dir ≠ h.master then (out s d dir).heels ++ [(h, hops + 1)] else (out s d dir).heels) ∧ Same s t [] [] [d, nb] s)) ∧
    (s.tickReady d = true → x.heel = some h → inp.temp.toInt < 1840 → Nexts (.tick die inp) s (fun t => fired t ∧ go t ∧ sig t F.TCK_STAT.FLYWHEEL = 0 ∧ (t.die d).ownTicks = 0)) ∧
    (s.tickReady d = true → x.heel = none → inp.temp.toInt < 1840 → Nexts (.flywheelTick die inp) s (fun t => fired t ∧ go t ∧ sig t F.TCK_STAT.FLYWHEEL = 1 ∧ sig t F.TCK_STAT.HEELMISS = 1 ∧
      (t.die d).ownTicks = x.ownTicks + 1)) ∧
    (s.live d = true → x.phase = .work → Nexts (.guardStart die) s (fun t => let y := s.eng d k; let z := t.eng d k
      (t.die d).phase = .guard ∧ z.lmem = y.lmem ∧ z.pmem = y.pmem ∧ z.xfers = y.xfers ∧ z.sbuf = y.sbuf ∧ t.f F.ENG_STAT.ST d [k] = y.st.toNat % 64 + 64 * (y.loops.length % 8) ∧
      (y.run = .folio i again → y.fend = false → z.run = .none ∧ z.next = i + 1 ∧ t.f F.ENG_FEV.OVR d [k] = 1 ∧ t.f F.ENG_FCNT.OVERRUNS d [k] = min (s.f F.ENG_FCNT.OVERRUNS d [k] + 1) 65535) ∧
      (y.run = .folio i again → y.fend = true → z = y) ∧ (y.run = .idle → z.run = .none) ∧ (y.run = .none → y.redo = none → z = y) ∧
      (s.f F.ENG_STAT.PWR d [k] = 1 → s.f F.ENG_FSTAT.SEQ d [k] ≠ 5 → t.f F.ENG_FSTAT.SEQ d [k] = 4) ∧
      (∀ n, n / 64 ≠ d → t.engs.get {} n = s.engs.get {} n))) ∧
    (s.pkg.src ≠ 0 → Nexts .disciplineSourceLost s (fun t => both t ∧ t.events = s.events ++ [⟨0x23, 255, 2, s.fn (s.liveDies.headD 0), []⟩] ∧
      Same s t ((List.range 8).map (fun n => RegName.TCK_STAT.cell n [])) [] [] s)) ∧
    (s.live d = true → sig s F.TCK_STAT.HOLDOVER = 1 → Nexts .disciplineSourceReturn s (fun t => (∀ n < 8, s.live n = true → t.f F.TCK_STAT.HOLDOVER n [] = 0 ∧ t.f F.TCK_STAT.LOCK n [] = 1) ∧
      Same s t ((List.range 8).map (fun n => RegName.TCK_STAT.cell n [])) [] [] s))

/-- Spares, losses, scrubbing, repair and wake (R249, R280, R284, R335, R384, R385, R389 to R391, R393, R394): a takeover copies the
suspect's program, registers and set-up to its spare; a stopped die stops its runs and sends FAULT; the survivors record a lost die,
freeze its credit and drop blocks on their way to it; the scrubber repairs or counts; a finished wake clears the engine. -/
def Obligations.RecoveryEvents : Prop :=
  ∀ (s : State) (die lost : DieNo) (e : EngNo) (n : Fin 16) (cause : StopCause) (b : Fin 64) (w : BitVec 20) (a : BitVec 16) (pc : BitVec 12) (half : Bool) (i j q : Nat) (soft : W32),
    let d := die.val; let k := 64 * d + e.val; let x := s.die d; let y := s.eng d e.val; let g := lost.val
    let quiet : Bool := s.dies.all (fun p => p.2.due.isEmpty) && s.pkg.waits.all (fun w => match w.kind with | .writes .. => false | _ => true)
    let on (r : Dir) : Dir := if s.segUp d r = false ∧ s.segUp d (match r with | .up => .dn | .dn => .up) = true then (match r with | .up => .dn | .dn => .up) else r
    let outq (t : State) (r : Dir) : List Msg := match r with | .up => (t.die d).up.queue | .dn => (t.die d).dn.queue
    let told (t : State) : Prop := t.pkg.waits = s.pkg.waits.filter (fun w => decide (w.kind ≠ .repair d))
    let su := s.f F.DIE_TAKE.SUSP d [n.val]; let sp := s.f F.DIE_TAKE.SPARE d [n.val]
    let pa := bankPa d b.val w.toNat; let slot := (if half then 4096 else 0) + pc.toNat
    let cnt (t : State) (m : Nat) : Prop := t.f F.DIE_ERRCNT.COUNT d [m] = min (s.f F.DIE_ERRCNT.COUNT d [m] + 1) 4294967295
    let scrubs : Bool := s.live d && decide (s.f F.DIE_SCRUB.EN d [] = 1)
    let tells := ((List.range 8).filter (fun m => decide (m ≠ d) && s.populated m)).map (fun m => (m, x.seqTx.get 0 m))
    let bits := s.sbits.get .zero (4096 * d + i % 4096)
    let left := s.f F.REP_STAT.FREE d []
    (s.live d = true → x.phase = .guard → s.takeDue d n.val = true → 2 ≤ x.takeAge.get 0 n.val → su ≠ sp → (s.eng d su).pmem.all (fun p => okBundle p.2) = true → Nexts (.takeover die n) s (fun t =>
      let p := s.eng d su; let z := t.eng d sp
      z.pmem = p.pmem ∧ z.half = p.half ∧ z.l2 = p.l2 ∧ z.ivec = p.ivec ∧ z.tvec = p.tvec ∧ z.imask = p.imask ∧ z.lmem = (s.eng d sp).lmem ∧
      (∀ m < 16, t.reg .ENG_FLA d [sp, m] = s.reg .ENG_FLA d [su, m] ∧ t.act .ENG_FLA d [sp, m] = s.act .ENG_FLA d [su, m] ∧ t.act .ENG_FLB d [sp, m] = s.act .ENG_FLB d [su, m]) ∧
      (∀ m < 8, t.act .ENG_CMA d [sp, m] = s.act .ENG_CMA d [su, m] ∧ t.act .ENG_CMB d [sp, m] = s.act .ENG_CMB d [su, m]) ∧ t.act .ENG_IDLE d [sp] = s.act .ENG_IDLE d [su] ∧
      (∀ m < 64, (let l := s.leaves.get .zero (16384 * d + m); t.leaves.get .zero (16384 * d + m) = (if l.v = true ∧ l.eng = su then { l with eng := sp } else l))) ∧
      t.f F.DIE_TAKE.DONE d [n.val] = 1 ∧ t.f F.ENG_FSTAT.SEQ d [su] = 5 ∧ t.f F.ENG_CTL.SPARE d [su] = 0 ∧ t.f F.ENG_FSTAT.SEQ d [sp] = s.f F.ENG_FSTAT.SEQ d [sp] ∧
      (∀ m, m ≠ 64 * d + su → m ≠ 64 * d + sp → t.engs.get {} m = s.engs.get {} m))) ∧
    (s.populated d = true → x.stopped = false → quiet = true → Nexts (.dieStop die cause) s (fun t => (t.die d).stopped = true ∧ t.f F.PNL_STAT.IRQ d [] = 0 ∧ (∀ m < 64, (t.eng d m).run = .none ∧ (t.eng d m).lmem = (s.eng d m).lmem) ∧
      (∀ r, ⟨d, d, 0, .flood (on r) tells .fault⟩ ∈ outq t (on r)) ∧ (t.die d).up.through = [] ∧ (t.die d).dn.through = [] ∧
      (∀ r, r ∉ RegName.PNL_STAT.cell d [] :: (List.range 8).map (fun m => RegName.SPN_STAT.cell m []) → Store.find t.regs r = Store.find s.regs r) ∧
      t.shm = s.shm ∧ t.blks = s.blks ∧ t.ques = s.ques ∧ t.leaves = s.leaves ∧ t.pkg = s.pkg)) ∧
    (s.populated g = true → (s.reg .DIE_LOST d []).getLsbD g = false → x.phase = .work → d ≠ g → s.live d = true → s.misses d g = true → s.apart d g = false → Nexts (.dieLossDeclaration lost) s (fun t => (t.reg .DIE_LOST d []).getLsbD g = true ∧
      t.f F.DIE_EV.LOST d [] = 1 ∧ t.f F.KEN_CRED.FROZEN d [g] = 1 ∧ (t.die d).outbound = x.outbound.filter (fun p => decide ((s.blk d p.1.toNat).dst / 131072 ≠ g)) ∧
      (s.f F.SHM_TWIN.EN d [b.val] = 1 → s.f F.SHM_TWIN.DIE d [b.val] = g → s.formed d b.val = true → t.f F.SHM_TWIN.SOLO d [b.val] = 1 ∧ t.f F.SHM_TWIN.SYNC d [b.val] = 0 ∧ t.f F.SHM_STAT.SOLOEV d [] = 1) ∧
      t.engs = s.engs ∧ t.ques = s.ques ∧ t.shm = s.shm)) ∧
    (scrubs = true → s.f F.SHM_PWR.PSTAT d [b.val] = 0 → Nexts (.scrubRead die false (.shared b w)) s (fun t => if ok18 (s.word pa) = true then t = s else cnt t 6 ∧
      (s.inPool d b.val = true → (s.blk d ((b.val - s.fa F.KEN_POOL.BASE d []) * 8192 + w.toNat / 128)).st = .free → t.word pa = enc18 0) ∧
      (s.inPool d b.val = true → (s.blk d ((b.val - s.fa F.KEN_POOL.BASE d []) * 8192 + w.toNat / 128)).st ≠ .free → t.shm = s.shm) ∧
      (s.inPool d b.val = false → s.f F.SHM_TWIN.EN d [b.val] = 1 → s.formed d b.val = true → s.f F.SHM_TWIN.SYNC d [b.val] = 1 → s.reaches (s.twinPa pa) = true →
        ok18 (s.word (s.twinPa pa)) = true → t.word pa = s.word (s.twinPa pa)) ∧
      (s.inPool d b.val = false → s.f F.SHM_TWIN.EN d [b.val] = 0 → t.shm = s.shm ∧ t.f F.DIE_EV.SCRUBERR d [] = 1 ∧ (t.reg .DIE_BADPA_LO d []).toNat = pa % 4294967296) ∧
      ((s.inPool d b.val = true → s.formed d b.val = false) → ∀ m, m ≠ pa → t.word m = s.word m) ∧ t.engs = s.engs)) ∧
    (scrubs = true → Nexts (.scrubRead die false (.sharedBits (BitVec.ofNat 12 i))) s (fun t => if ok16 bits.c0 = true ∧ ok16 bits.c1 = true then t = s else cnt t 6 ∧
      (ok16 bits.c0 = true → t.sbits.get .zero (4096 * d + i % 4096) = ⟨bits.c0, bits.c0⟩) ∧ (ok16 bits.c1 = true → t.sbits.get .zero (4096 * d + i % 4096) = ⟨bits.c1, bits.c1⟩) ∧
      t.engs = s.engs ∧ t.shm = s.shm)) ∧
    (scrubs = true → i < 32 → Nexts (.scrubRead die false (.queueArray (Fin.ofNat 32 i) j)) s (fun t => if (i, j) ∉ x.qbad then t = s else
      if (pairArray i, j) ∈ x.qbad then (t.die d).stopped = true else cnt t 6 ∧ (t.die d).qbad = x.qbad.filter (fun p => decide (p ≠ (i, j))) ∧ t.engs = s.engs ∧ t.shm = s.shm)) ∧
    (scrubs = true → x.phase = .guard → s.f F.ENG_STAT.PWR d [e.val] = 1 → Nexts (.scrubRead die false (.local e a)) s (fun t => if ok18 (y.lmem.get 0 a.toNat) = true then t = s else cnt t 6 ∧
      (t.eng d e.val).lmem = y.lmem ∧ t.shm = s.shm ∧ ∀ m, m ≠ k → t.engs.get {} m = s.engs.get {} m)) ∧
    (scrubs = true → s.f F.ENG_STAT.PWR d [e.val] = 1 → Nexts (.scrubRead die false (.program e half pc)) s (fun t => if okBundle (y.pmem.get 0 slot) = true then t = s else cnt t 6 ∧
      (∀ m, m ≠ slot → (t.eng d e.val).pmem.get 0 m = y.pmem.get 0 m) ∧ (t.eng d e.val).lmem = y.lmem ∧ ∀ m, m ≠ k → t.engs.get {} m = s.engs.get {} m)) ∧
    (s.live d = true → x.progEntry = some (i, soft) → j < 16 → (∀ m < j, s.f F.REP_FIELD.V d [m] = 1 ∨ 16 * d + m ∈ s.pkg.badFuse) → s.f F.REP_FIELD.V d [j] = 0 →
      16 * d + j ∉ s.pkg.badFuse →
      Nexts (.fuseProgrammingEnd die true) s (fun t => t.reg .REP_FIELD d [j] = soft ∧ t.f F.REP_STAT.PROG d [] = 0 ∧ t.f F.REP_STAT.FREE d [] = left - 1 ∧ t.f F.REP_EV.PROGDONE d [] = 1 ∧
        (t.die d).progDone = x.progDone ++ [(i, soft)] ∧ told t ∧ (t.die d).progEntry = none ∧ t.engs = s.engs ∧ t.shm = s.shm) ∧
      Nexts (.fuseProgrammingEnd die false) s (fun t => (∀ m < 16, t.reg .REP_FIELD d [m] = s.reg .REP_FIELD d [m]) ∧ t.f F.REP_STAT.PROG d [] = 0 ∧ t.f F.REP_EV.PROGFAIL d [] = 1 ∧ told t ∧
        (t.die d).progDone = x.progDone ∧ (t.die d).progEntry = none ∧ t.engs = s.engs ∧ t.shm = s.shm)) ∧
    (s.live d = true → y.waking = true → Nexts (.engineClearEnd die e) s (fun t => let z := t.eng d e.val
      t.f F.ENG_STAT.PWR d [e.val] = 1 ∧ z.waking = false ∧ z.run = .none ∧ z.st = 0 ∧ z.ivec = 0 ∧ z.tvec = 0 ∧ z.imask = 0 ∧ z.half = y.half ∧ data18 (z.lmem.get 0 a.toNat) = 0 ∧ ok18 (z.lmem.get 0 a.toNat) = true ∧
      dataBundle (z.pmem.get 0 slot) = 0 ∧ (z.l2.get .zero q).v = false ∧ Same s t [RegName.ENG_STAT.cell d [e.val]] [k] [] s))

/-- The configuration swap between its ticks (R405, R409, R411, R412, R418): the copy ends, the check value of the shadow set is placed, a
die votes READY when no cause fails and shows its causes, the first decision copy is held and forwarded, and the handover exchanges the
Early engines and ends in FULL. -/
def Obligations.SwapEvents : Prop :=
  ∀ (s : State) (die : DieNo) (a : Arm) (t0 src n : Nat) (c : Decision) (dir : Dir) (rest : List Msg) (e : Early) (i : Fin 16),
    let d := die.val; let x := s.die d; let sw (t : State) (f : Fld) : Nat := t.f f d []; let stat := RegName.DIE_SWAP.cell d []
    let out (t : State) (m : Nat) (r : Dir) : List Msg := match r with | .up => (t.die m).up.queue | .dn => (t.die m).dn.queue
    let causes := [F.DIE_SWAP.CRC, F.DIE_SWAP.CODE, F.DIE_SWAP.MAP, F.DIE_SWAP.PMSRC, F.DIE_SWAP.POOL, F.DIE_SWAP.LOAN, F.DIE_SWAP.SUSP, F.DIE_SWAP.DIRTY, F.DIE_SWAP.PWR]
    let bad (t : State) (f : Fld) (p : Bool) : Prop := sw t f = p.toNat
    let crc : Bool := !a.rb && !(x.crcDone && decide (s.reg .DIE_SWAPCRC d [] = a.crcs.getD d 0))
    let map_ : Bool := !(List.range 64).all (fun e => (List.range 8).all (fun j => decide (s.f F.ENG_CMA.LSTART d [e, j] % 8 = 0 ∧ s.f F.ENG_CMA.LLEN d [e, j] % 8 = 0 ∧
      s.f F.ENG_CMA.LSTART d [e, j] + s.f F.ENG_CMA.LLEN d [e, j] ≤ 65536)))
    let loan : Bool := !(List.range 8).all (fun m => decide (s.f F.KEN_LOAN.TARGET d [m] = 0 ∨ (m ≠ d ∧ s.populated m = true)))
    let pwr : Bool := (List.range 64).any (fun e => decide (((List.range 16).any (fun m => decide (s.f F.ENG_FLA.V d [e, m] = 1)) = true ∨ s.f F.ENG_IDLE.EN d [e] = 1) ∧ s.f F.ENG_STAT.PWR d [e] = 0))
    let tells := ((List.range 8).filter (fun m => decide (m ≠ d) && s.populated m)).map (fun m => (m, x.seqTx.get 0 m))
    let age (m : Nat) : Nat := (s.fn m + 281474976710656 - e.t) % 281474976710656; let half := 140737488355328
    let len := s.f F.PKG_XF.DELAY 0 [] + s.f F.PKG_XF.FRAMES 0 []
    let flip : Dir → Dir := fun r => match r with | .up => .dn | .dn => .up
    let on (r : Dir) : Dir := if s.segUp d r = false ∧ s.segUp d (flip r) = true then flip r else r
    let due (m : Nat) : Bool := decide (m < 2) && s.live m && !e.exchanged.contains m && decide (len ≤ age m + 1 ∧ age m < half)
    (Nexts .shadowCopyEnd s (fun t => t.f F.PKG_SWAP.COPYRUN 0 [] = 0 ∧
      Same s t [RegName.PKG_SWAP.cell 0 []] [] [] (if s.f F.PKG_SWAP.COPYRUN 0 [] = 0 then s else { s with pkg := { s.pkg with copying := 0 } }))) ∧
    (s.live d = true → x.armT = some t0 → Nexts (.swapCrc die) s (fun t => t.reg .DIE_SWAPCRC d [] = s.shadowCrc d ∧ t.die d = { x with crcDone := true } ∧
      Same s t [RegName.DIE_SWAPCRC.cell d []] [] [d] s)) ∧
    (s.pkg.arm = some a → x.armT = some t0 → s.live d = true → x.phase = .work → (s.fn d + 1) % 281474976710656 = t0 → x.voted = false → Nexts (.swapVote die) s (fun t =>
      (sw t F.DIE_SWAP.READY = 1 ↔ causes.all (fun f => decide (sw t f = 0)) = true) ∧ bad t F.DIE_SWAP.CRC crc ∧ bad t F.DIE_SWAP.MAP map_ ∧ bad t F.DIE_SWAP.LOAN loan ∧ bad t F.DIE_SWAP.PWR pwr ∧
      bad t F.DIE_SWAP.DIRTY (a.rb && decide (sw s F.DIE_SWAP.SHDIRTY = 1)) ∧ (t.die d).voted = true ∧
      (∃ mask : BitVec 11, (∀ p, mask.getLsbD p = causes.any (fun f => decide (f.lo = p ∧ sw t f = 1))) ∧ (t.die d).votes = x.votes ++ [(d, mask)] ∧
        ∀ r, out t d r = out s d r ++ ([Dir.up, Dir.dn].filter (fun q => decide (on q = r))).map (fun _ => ⟨d, d, 0, .flood r tells (.vote mask)⟩)) ∧ Same s t [stat] [] [d] s)) ∧
    (s.live d = true → takeMsg (fun b => match b with | .decision .. => true | _ => false) x.inbox = some (⟨src, d, n, .decision c dir⟩, rest) → Nexts (.swapDecisionReceive die) s (fun t =>
      (t.die d).inbox = rest ∧ Same s t [] [] [d] s ∧
      (if x.decision = none ∧ x.armT ≠ none then (t.die d).decision = some c ∧
          (s.live (s.next d dir) = true → s.next d dir ≠ d → s.segUp d dir = true → out t d dir = out s d dir ++ [⟨d, s.next d dir, x.seqTx.get 0 (s.next d dir), .decision c dir⟩])
        else t.die d = { x with inbox := rest }))) ∧
    (s.pkg.early = some e → Nexts .handoverEarlyExchange s (fun t => (t.pkg.early = some { e with exchanged := ([0, 1].filter due).reverse ++ e.exchanged }) ∧
      (∀ d < 2, due d = false → (∀ m < 64, t.eng d m = s.eng d m) ∧ ∀ m < 64, t.reg .ENG_FLA d [m, i.val] = s.reg .ENG_FLA d [m, i.val] ∧ t.act .ENG_FLA d [m, i.val] = s.act .ENG_FLA d [m, i.val]) ∧
      (∀ d < 2, due d = true → (∀ m < 64, (t.eng d m).half = (if m / 4 = 14 then !(s.eng d m).half else (s.eng d m).half) ∧ (t.eng d m).pmem = (s.eng d m).pmem ∧ (t.eng d m).lmem = (s.eng d m).lmem) ∧
        t.fa F.ENG_FLA.PC d [57, i.val] = s.f F.ENG_FLA.PC d [57, i.val] ∧ t.f F.ENG_FLA.V d [58, i.val] = s.fa F.ENG_FLA.V d [58, i.val] ∧ t.fa F.ENG_FLA.V d [i.val, 3] = s.fa F.ENG_FLA.V d [i.val, 3]) ∧
      t.dies = s.dies ∧ t.shm = s.shm ∧ t.blks = s.blks ∧ t.ques = s.ques)) ∧
    (s.pkg.early = some e → (let m := age (s.liveDies.headD 0); len ≤ m ∧ m < half) → Nexts .handoverEnd s (fun t => t.f F.PKG_SWAP.HANDOVER 0 [] = 0 ∧ t.pkgState = 3 ∧ t.f F.PKG_STATE.EARLYOK 0 [] = 1 ∧
      t.pkg.early = none ∧ t.events = s.events ++ [⟨0x300, 255, 7, s.fn (s.liveDies.headD 0), [3, s.pkgState]⟩] ∧
      Same s t [RegName.PKG_SWAP.cell 0 [], RegName.PKG_STATE.cell 0 []] [] [] { s with pkg := t.pkg }))

/-- A host port (R423, R427, R428, R434 to R436, R455, R458, R462, R484): a reset returns its registers, but not HPT_SMAP, and withdraws its
claim; the link's end of training shows speed and width; a doorbell read places host indices and HEART and a failed one is counted; a
playback group lands its blocks or is dropped; a lease lapses; a slow-path entry is sent, written back and completed. -/
def Obligations.HostPortEvents : Prop :=
  ∀ (s : State) (port : PortNo) (r : Fin 64) (slot : DbSlot) (heart : W32) (linkDown : Bool) (speed width : BitVec 3) (gr : Group) (cs : List W32) (lb : Nat) (pkt : SlowPkt),
    let k := port.val; let x := s.port k; let hp (t : State) : Port := t.port k; let live := s.live k
    let apart (pa : Nat) : Bool := decide (pa / 68719476736 ≠ 2 ∨ aperPort pa ≠ k)
    let calm : Bool := s.engs.all (fun p => (p.2.far ++ p.2.farOld).all (fun w => apart w.pa) && p.2.sbuf.all (fun b => apart b.pa))
    let plays : Bool := x.reading && !x.streamsDone
    let zero (t : State) : Prop := [RegName.HPT_CTL, .HPT_DBBASE_LO, .HPT_DBBASE_HI, .HPT_WBBASE_LO, .HPT_WBBASE_HI, .HPT_EVLOST, .HPT_DBFAIL, .HPT_CMDCNT].all (fun q => decide (t.reg q k [] = q.desc.reset)) = true ∧
      (calm = true → t.reg .HPT_APERR k [] = 0 ∧ t.engs = s.engs ∧ (plays = false → t.reg .HPT_ERR k [] = 0)) ∧
      (∀ i < 64, [RegName.HPT_RBLO, .HPT_RBHI, .HPT_RCFG, .HPT_RSTAT, .HPT_AWLO, .HPT_AWHI, .HPT_AWCFG].all (fun q => decide (t.reg q k [i] = q.desc.reset)) = true ∧
        t.reg .HPT_SMAP k [i] = s.reg .HPT_SMAP k [i] ∧ (hp t).rings.get {} i = { under := if plays then !(s.ringFlows k i).isEmpty else (s.ring k i).under }) ∧
      (hp t).cfg = {} ∧ (hp t).msix = [] ∧ (hp t).pba = [] ∧ (hp t).newRings = [] ∧ (hp t).reading = false ∧ (hp t).heart = 0 ∧ (hp t).sent = x.sent
    let failed (t : State) : Prop := (hp t).reading = false ∧ t.f F.HPT_ERR.DBERR k [] = 1 ∧ t.f F.HPT_DBFAIL.COUNT k [] = min (s.f F.HPT_DBFAIL.COUNT k [] + 1) 4294967295 ∧
      (hp t).taken.take x.taken.length = x.taken ∧ (hp t).heart = x.heart ∧ ∀ i < 64, t.f F.HPT_RSTAT.HOST k [i] = s.f F.HPT_RSTAT.HOST k [i]
    let slots := [slot]; let q := slot.ring.val; let ty := s.f F.HPT_RCFG.TYPE k [q]; let idx := (if ty = 1 ∨ ty = 2 ∨ ty = 4 then slot.ci else slot.pi).toNat; let n := 2 ^ s.f F.HPT_RCFG.SIZE k [q]
    let fresh : Bool := decide (s.f F.HPT_RCFG.EN k [q] = 1) && decide (q ∉ x.lateRings) && decide (slot.gen ≠ (s.ring k q).gen)
    let d := gr.flow / 8192; let p := s.flow gr.flow; let per := s.fPrime p; let words := [cs]
    let shape : Bool := decide ((cs.getD 0 0).toNat % 4096 = per / segsOf per) && decide (((cs.getD 3 0).setWidth 18 : W18).toNat / 64 % 64 = 0) && decide (((cs.getD 3 0).setWidth 18 : W18).toNat / 4096 % 4 = 0)
    let queue := 131072 * d + p.qbase; let own := s.f F.PKG_AUTH.OWNER 0 []; let lease := s.f F.PKG_AUTHLEASE.LEASE 0 []; let holder := s.port (own - 1)
    let cq := s.f F.HPT_RCFG.CQ k [r.val]; let ld := pkt.port.toNat / 2; let lk := pkt.port.toNat % 2; let i := s.dev k r.val; let j := s.dev k cq
    let back (t : State) (ts : Option (BitVec 80)) (st : Nat) : Prop := (hp t).sent = x.sent ++ [.slowTx r.val i (s.ring k r.val).phase ts,
        .completion cq j (BitVec.ofNat 32 i) st (if (s.ring k cq).phase then 128 else 0) r.val 0 (s.fn k % 4294967296)] ∧
      t.f F.HPT_RSTAT.DEV k [r.val] = (i + 1) % s.ringN k r.val ∧ t.f F.HPT_RSTAT.DEV k [cq] = (j + 1) % s.ringN k cq
    (live = true → Nexts (.hostPortReset port linkDown) s (fun t => (hp t).inReset = true ∧ zero t ∧ t.pkg.claims = s.pkg.claims.filter (fun c => decide (c ≠ k)) ∧
      (hp t).taken = x.taken.map (fun c => if c.port = k then { c with quiet := true } else c) ∧ t.port (1 - k) = s.port (1 - k) ∧ t.f F.PKG_AUTH.OWNER 0 [] = own ∧
      t.shm = s.shm ∧ t.ques = s.ques ∧ t.dies = s.dies)) ∧
    (live = true → Nexts (.hostLinkUp port speed width) s (fun t => t.f F.HPT_STAT.LINKUP k [] = 1 ∧ t.f F.HPT_STAT.SPEED k [] = speed.toNat ∧ t.f F.HPT_STAT.WIDTH k [] = width.toNat ∧
      hp t = { x with inReset := false } ∧ Same s t [RegName.HPT_STAT.cell k []] [] [] { s with pkg := t.pkg })) ∧
    (live = true → x.reading = true → (s.die k).phase = .work → Nexts (.doorbellReadComplete port true heart slots) s (fun t => (hp t).reading = false ∧ (hp t).newRings = x.lateRings ∧ (hp t).heart = heart ∧
        (hp t).heartAge = (if heart = x.heart then x.heartAge else 0) ∧ (hp t).taken.take x.taken.length = x.taken ∧
        t.f F.HPT_RSTAT.HOST k [q] = (if fresh = true ∧ idx < n then idx else s.f F.HPT_RSTAT.HOST k [q]) ∧ (fresh = true → ((hp t).rings.get {} q).gen = slot.gen) ∧
        (fresh = true → n ≤ idx → t.f F.HPT_ERR.DBERR k [] = 1) ∧ (∀ i < 64, i ≠ q → t.f F.HPT_RSTAT.HOST k [i] = s.f F.HPT_RSTAT.HOST k [i]) ∧ t.shm = s.shm ∧ t.dies = s.dies) ∧
      Nexts (.doorbellReadComplete port false heart slots) s (fun t => failed t)) ∧
    (live = true → x.reading = true → (s.die k).phase = .guard → Nexts (.doorbellReadComplete port true heart slots) s (fun t => failed t)) ∧
    (live = true → x.reading = true → (s.die k).phase = .guard → Nexts (.doorbellReadTimeout port) s (fun t => failed t)) ∧
    (live = true → x.groups.find? (fun y => decide (y.ring = r.val)) = some gr → Nexts (.playbackReadComplete port r words) s (fun t => (hp t).groups = x.groups.erase gr ∧
      (s.live d = true → p.isOpen = true → gr.n = 1 → shape = false → t.f F.HPT_ERR.STREAMBAD k [] = 1 ∧ t.ques = s.ques ∧ t.shm = s.shm ∧
        (t.flowState gr.flow).c6.toNat = min ((s.flowState gr.flow).c6.toNat + 1) 4294967295) ∧
      (s.live d = true → p.isOpen = true → gr.n = 1 → shape = true → s.loanOf d (14 + k) = some lb → (p.cmax = 0 ∨ 1 ≤ (s.flowState gr.flow).tokens) → s.fa F.KEN_POOL.RESV d [] < (s.die d).tally.getD 0 0 →
        (t.que queue).pend = (s.que queue).pend ++ [⟨BitVec.ofNat 16 lb, 0, false, false⟩] ∧ (t.blk d lb).st = .queued ∧
        (let b := playBlock p.fmt gr.flow (s.fn d) 0 0 cs; ∀ m < 128, m < b.length → t.word (s.blkPa d lb + m) = enc18 (b.getD m 0)) ∧
        (t.flowState gr.flow).c5.toNat = min ((s.flowState gr.flow).c5.toNat + 1) 4294967295))) ∧
    (own ≠ 0 → lease ≠ 0 → lease ≤ holder.heartAge → Nexts .leaseLapse s (fun t => t.port (own - 1) = { holder with lapsed := true } ∧ Same s t [] [] [] { s with pkg := t.pkg })) ∧
    (live = true → s.takesPart k r.val = true → s.ringType k r.val = 6 → s.waiting k r.val ≠ 0 → s.takesPart k cq = true → (s.ring k cq).reserved < s.freeEnt k cq → cq ≠ r.val → (s.ring k r.val).sending = false →
      Nexts (.slowPathTransmit port r pkt) s (fun t => (hp t).taken = x.taken ∧
        (s.live ld = false → back t none 17) ∧
        (s.live ld = true → s.isEth ld lk = true → s.linkUp ld lk = true → pkt.tagged = false → pkt.len.toNat ≤ 1518 → s.f F.LNK_MSCTL.EN ld [lk] = 0 →
          back t (if pkt.tsReq then some pkt.txTime else none) 0 ∧ t.f F.LNK_CNT.COUNT ld [lk, 1] = min (s.f F.LNK_CNT.COUNT ld [lk, 1] + 1) 4294967295) ∧
        (s.live ld = true → s.isEth ld lk = true → s.linkUp ld lk = true → pkt.tagged = false → 1518 < pkt.len.toNat → back t none 17) ∧
        (s.live ld = true → s.f F.LNK_CTL.MODE ld [lk] = 1 → s.f F.FIN_STAT.RUN ld [] = 1 → s.linkUp ld lk = true → 2 ≤ pkt.bytes.length → pkt.bytes.length ≤ 286 → 128 ≤ (pkt.bytes.getD 1 0).toNat →
          (hp t).sent = x.sent ∧ t.f F.HPT_RSTAT.DEV k [r.val] = i ∧ ((hp t).rings.get {} r.val).sending = true ∧ ((hp t).rings.get {} cq).reserved = (s.ring k cq).reserved + 1 ∧
          (t.die ld).ring.msvc = (s.die ld).ring.msvc ++ [⟨(pkt.bytes.getD 0 0).toNat % 64, (pkt.bytes.getD 1 0).toNat, pkt.bytes.drop 2, some ⟨k, r.val, if pkt.tsReq then some pkt.txTime else none⟩⟩])))

/-- Host commands that change the configuration (R79, R349 to R353, R407, R410, R439 to R446): each is taken off its port's list and runs
when the port holds authority; writes, code and refusals complete at once, and leaves, flows and swaps wait for their tick. -/
def Obligations.HostConfigCommands : Prop :=
  ∀ (s : State) (x : Desc) (tk : Taken) (r : RegName) (d0 i : Nat) (idx : List Nat) (v : W32) (eng entry : BitVec 8) (pc : BitVec 16) (b c : BitVec 144) (leaf fid : BitVec 16)
    (recto verso len : W32) (ws : List W18) (p m : FlowP) (qp : QParam) (T : BitVec 48) (crcs : List W32) (a : Arm) (g : Nat),
    let k := x.port.val; let d := x.die.toNat; let all : Bool := decide (x.die = 0xFF#8); let n := s.fn k; let rb := x.flags.getLsbD 1
    let fit (op : Nat) (each : Bool) : Prop := s.headCmd x = some tk ∧ tk.quiet = false ∧ x.readOk = true ∧ x.zeroOk = true ∧ x.opcode.toNat = op ∧ x.flags.toNat < 16 ∧
      (s.pkgState = 2 ∨ s.pkgState = 3 ∨ s.pkgState = 4) ∧ s.f F.PKG_AUTH.OWNER 0 [] = k + 1 ∧ each = all ∧ (all = false → s.live d = true)
    let cq := tk.cq; let vec := s.f F.HPT_RCFG.VEC tk.port [cq]; let ent := (s.port k).msix.get ⟨0, 0, true⟩ vec
    let quietVec : Bool := !(s.port k).cfg.msixEnable || (s.port k).cfg.msixMask || ent.masked
    let reply (t : State) (st result fn pkg : Nat) : Prop := (t.port k).taken = (s.port k).taken.tail ∧ (tk.port = k → s.takesPart k cq = true →
      (t.port k).sent = (s.port k).sent ++ (.completion cq (s.dev k cq) x.tag st ((if (s.ring k cq).phase then 128 else 0) + pkg) tk.ring result (fn % 4294967296)) ::
        (if x.flags.getLsbD 2 = true ∧ quietVec = false then [.msix vec ent.addr ent.data] else []) ∧
      t.f F.HPT_RSTAT.DEV k [cq] = (s.dev k cq + 1) % s.ringN k cq ∧ t.f F.HPT_CMDCNT.COUNT k [] = min (s.f F.HPT_CMDCNT.COUNT k [] + 1) 4294967295)
    let waits (t : State) (w : WaitKind) : Prop := (t.port k).taken = (s.port k).taken.tail ∧ (t.port k).sent = (s.port k).sent ∧ t.pkg.waits = s.pkg.waits ++ [⟨tk, x.tag, x.flags.getLsbD 2, w⟩]
    let memory (t : State) : Prop := t.shm = s.shm ∧ t.engs = s.engs ∧ t.ques = s.ques ∧ t.blks = s.blks
    let pairs := [(v, len)]; let image := [b, c]; let y := s.eng d eng.toNat; let slot := (if y.half then 0 else 4096) + pc.toNat; let rec_ := x.flags.getLsbD 3
    let src := bankPa d 0 (s.f F.DIE_PMSRC.SRC d [eng.toNat]) + 8 * pc.toNat
    let side (a : Nat) : Bool := decide (a + len.toNat ≤ 67108864) && decide (a / 1048576 = (a + len.toNat - 1) / 1048576) &&
      (decide (s.f F.SHM_OWN.OWNER d [a / 1048576] = eng.toNat / 8) || decide (s.f F.SHM_OWN.OWNER d [a / 1048576] = 11))
    let old := s.flowCopy fid.toNat (x.flags.getLsbD 0); let named : Bool := decide (fid.toNat / 8192 = d) && decide (fid.toNat % 8192 < 5120) && old.isOpen
    let opened : FlowP := { p with c0 := p.c0 ||| 0x80000000#32 }; let none_ : Option (List W18) := none; let image2 := some ws
    let cmds (t : State) (w : FlowCmd) (result : Nat) : Prop := waits t (.flow d result) ∧ (t.die d).flowCmds = (s.die d).flowCmds ++ [w] ∧ memory t ∧ t.regs = s.regs
    let clear : Bool := decide (s.f F.PKG_SWAP.ARMED 0 [] = 0)
    let armed (t : State) : Prop := t.f F.PKG_SWAP.ARMED 0 [] = 1 ∧ t.f F.PKG_SWAP.RB 0 [] = rb.toNat ∧
      t.f F.PKG_SWAPT_HI.T_HI 0 [] * 4294967296 + (t.reg .PKG_SWAPT_LO 0 []).toNat = T.toNat ∧ t.pkg.arm = some ⟨T.toNat, rb, crcs⟩ ∧
      ∀ j < 8, s.live j = true → (t.die j).armT = some T.toNat ∧ (t.die j).voted = false ∧ (t.die j).votes = [] ∧ (t.die j).decision = none ∧ (t.die j).crcDone = false
    (fit 1 true → clear = true → s.writable (.host x.port) r d0 idx = true → v.toNat = r.addr d0 idx → r ∉ specialRegs → r ≠ .HPT_RSTAT → r ≠ .HPT_CMDCNT → Nexts (.cfgWrite x false pairs) s (fun t =>
      reply t 0 1 n 0 ∧ memory t ∧ ∀ f ∈ r.desc.fields, field (t.reg r d0 idx) f.hi f.lo = fieldAfter f d0 (field (s.reg r d0 idx) f.hi f.lo) (field len f.hi f.lo))) ∧
    (fit 1 true → clear = true → s.admitted (.host x.port) r d0 idx = true → v.toNat = r.addr d0 idx → crosses (.host x.port) v.toNat = some (x.port, g) → s.live g = true →
      (s.die g).seqRx.get 0 k ≤ (s.die k).seqTx.get 0 g → Nexts (.cfgWrite x false pairs) s (fun t => waits t (.writes k [(g, (s.die k).seqTx.get 0 g + 1)] 1) ∧ memory t ∧ t.regs = s.regs ∧
        (t.die k).seqTx.get 0 g = (s.die k).seqTx.get 0 g + 1)) ∧
    (fit 1 true → Nexts (.cfgWrite x true pairs) s (fun t => reply t 14 0 n 0 ∧ memory t)) ∧
    (fit 2 false → clear = true → eng.toNat < 64 → pc.toNat + 2 ≤ 4096 → s.f F.ENG_STAT.PWR d [eng.toNat] = 1 → (rec_ = true → s.f F.DIE_PMSRC.V d [eng.toNat] = 1) →
      Nexts (.codeLoad x false eng pc 2 image) s (fun t => reply t 0 2 n 0 ∧ (t.eng d eng.toNat).pmem.get 0 slot = encBundle b ∧ (t.eng d eng.toNat).pmem.get 0 (slot + 1) = encBundle c ∧
        (∀ j, j ≠ slot → j ≠ slot + 1 → (t.eng d eng.toNat).pmem.get 0 j = y.pmem.get 0 j) ∧ (t.eng d eng.toNat).lmem = y.lmem ∧ t.f F.DIE_SWAP.SHDIRTY d [] = 1 ∧
        (rec_ = false → t.shm = s.shm) ∧ (rec_ = true → s.formed (paDie src) (paBank src) = false → s.reaches src = true → paBank src = paBank (src + 15) → ∀ j < 8, t.word (src + j) = enc18 (syllable b j) ∧ t.word (src + 8 + j) = enc18 (syllable c j)) ∧
        (∀ j, j ≠ 64 * d + eng.toNat → t.engs.get {} j = s.engs.get {} j))) ∧
    (fit 3 false → leaf.toNat < 16384 → eng.toNat < 64 → entry.toNat < 16 → (len ≠ 0 → side recto.toNat = true ∧ side verso.toNat = true ∧ (recto.toNat + len.toNat ≤ verso.toNat ∨ verso.toNat + len.toNat ≤ recto.toNat)) →
      Nexts (.leafInit x false leaf eng entry recto verso len none_) s (fun t => waits t (.leaf d) ∧ memory t ∧ t.leaves = s.leaves ∧ (t.die d).leafCmds.length = (s.die d).leafCmds.length + 1 ∧
        (∀ w ∈ (t.die d).leafCmds.getLast?, w.leaf = leaf.toNat ∧ w.val = (if len = 0 then Leaf.zero else ⟨true, eng.toNat, entry.toNat, recto.toNat, verso.toNat, len.toNat, false, false⟩) ∧
          w.words.all (fun u => decide (u = 0)) = true)) ∧
      Nexts (.leafInit x false leaf eng entry recto verso len image2) s (fun t => waits t (.leaf d) ∧ ∀ w ∈ (t.die d).leafCmds.getLast?, w.leaf = leaf.toNat ∧ w.words = ws)) ∧
    (fit 4 false → clear = true → opened.refused = false → qp.policy.toNat ≠ 3 → s.freeFid d = some i → (s.rangesUsed d).any (fun o => o.overlaps opened) = false →
      Nexts (.flowOpen x p qp) s (fun t => cmds t (.open_ i (x.flags.getLsbD 0) opened qp) (8192 * d + i) ∧ (t.die d).assigned = (s.die d).assigned ++ [i])) ∧
    (fit 4 false → clear = true → opened.refused = false → qp.policy.toNat ≠ 3 → s.freeFid d = some i → (s.rangesUsed d).any (fun o => o.overlaps opened) = true →
      Nexts (.flowOpen x p qp) s (fun t => reply t 9 0 n 0 ∧ memory t ∧ t.dies = s.dies)) ∧
    (fit 4 false → clear = true → opened.refused = false → qp.policy.toNat ≠ 3 → s.freeFid d = none → Nexts (.flowOpen x p qp) s (fun t =>
      reply t 8 0 n (s.liveDies.all (fun i => (s.freeFid i).isNone)).toNat ∧ memory t ∧ t.dies = s.dies ∧
      t.f F.FLW_REFUSED.COUNT d [] = min (s.f F.FLW_REFUSED.COUNT d [] + 1) F.FLW_REFUSED.COUNT.top ∧ t.f F.FLW_EV.REFEV d [] = 1)) ∧
    (fit 5 false → clear = true → named = true → Nexts (.flowClose x fid) s (fun t => cmds t (.close (fid.toNat % 8192) (x.flags.getLsbD 0)) 0)) ∧
    (fit 6 false → clear = true → named = true → m.qbase = old.qbase → m.qcnt = old.qcnt → (old.merge m).refused = false → FlowP.refused { m with c3 := old.c3 } = false → Nexts (.flowModContext x fid m) s (fun t =>
      cmds t (.context (fid.toNat % 8192) (x.flags.getLsbD 0) m) 0)) ∧
    (fit 6 false → clear = true → named = true → m.qbase = old.qbase → m.qcnt = old.qcnt → eng.toNat < old.qcnt → qp.policy.toNat ≠ 3 → Nexts (.flowModQueue x fid m eng qp) s (fun t =>
      cmds t (.queue (131072 * d + old.qbase + eng.toNat) (x.flags.getLsbD 0) qp) 0)) ∧
    (fit 6 false → clear = true → (named = false ∨ m.qbase ≠ old.qbase ∨ m.qcnt ≠ old.qcnt) → Nexts (.flowModQueue x fid m eng qp) s (fun t => reply t 10 0 n 0 ∧ memory t ∧ t.dies = s.dies)) ∧
    (fit 7 true → (if rb then n + 2 else n + 4) ≤ T.toNat → T.toNat ≤ n + 65536 → clear = true → Nexts (.swapArm x T crcs) s (fun t => armed t ∧ waits t .swap ∧ memory t)) ∧
    (fit 7 true → T.toNat < (if rb then n + 2 else n + 4) → Nexts (.swapArm x T crcs) s (fun t => reply t 4 0 T.toNat 0 ∧ memory t ∧ t.dies = s.dies)) ∧
    (fit 8 true → s.pkg.arm = some a → n + 2 ≤ a.t → s.pkg.waits.all (fun w => decide (w.kind ≠ .swap)) = true → Nexts (.swapCancel x) s (fun t => reply t 0 0 n 0 ∧ memory t ∧
      t.f F.PKG_SWAP.ARMED 0 [] = 0 ∧ t.f F.PKG_SWAP.OUTCOME 0 [] = 3 ∧ t.pkg.arm = none ∧ ∀ j < 8, (t.die j).armT = none)) ∧
    (fit 8 true → s.pkg.arm = some a → a.t < n + 2 → Nexts (.swapCancel x) s (fun t => reply t 3 0 n 0 ∧ memory t ∧ t.pkg.arm = some a ∧ t.dies = s.dies)) ∧
    (fit 1 true → clear = false → s.f F.PKG_SWAP.ARMED 0 [] = 1 → s.target v.toNat = some ⟨r, d0, idx, false⟩ → r.banked = true → v.toNat % 4 = 0 → v.toNat < 16777216 → Nexts (.cfgWrite x false pairs) s (fun t => reply t 7 0 n 0 ∧ memory t ∧ t.dies = s.dies)) ∧
    (fit 1 true → s.f F.PKG_SWAP.ARMED 0 [] = 1 → v.toNat = RegName.addr .PKG_SWAPCTL 0 [] → len.getLsbD 0 = true → Nexts (.cfgWrite x false pairs) s (fun t =>
      reply t 7 0 n 0 ∧ memory t ∧ t.dies = s.dies ∧ t.f F.PKG_SWAPCTL.COPY 0 [] = s.f F.PKG_SWAPCTL.COPY 0 []))

/-- Host commands that ask, test and service (R280, R360, R364, R365, R393, R440 to R448, R546, R583, R584): a query writes its result
buffer and completes with the bytes written, its reads of another die's registers being counted as messages (R35); repairs, passes, tests, keys and audits start and complete at their end; a command without
authority is answered NOAUTH. -/
def Obligations.HostServiceCommands : Prop :=
  ∀ (s : State) (x : Desc) (tk : Taken) (addr queue n mask dur : W32) (count fid : BitVec 16) (entry slot ty : BitVec 8) (pa : BitVec 48) (len : BitVec 16) (blob : List Byte),
    let k := x.port.val; let d := x.die.toNat; let all : Bool := decide (x.die = 0xFF#8); let fn := s.fn k; let c := count.toNat
    let shape (op : Nat) : Prop := s.headCmd x = some tk ∧ tk.quiet = false ∧ x.readOk = true ∧ x.zeroOk = true ∧ x.opcode.toNat = op ∧ x.flags.toNat < 16 ∧
      (s.pkgState = 2 ∨ s.pkgState = 3 ∨ s.pkgState = 4) ∧ (all = false → s.live d = true)
    let fit (op : Nat) (each : Bool) : Prop := shape op ∧ (op = 9 ∨ s.f F.PKG_AUTH.OWNER 0 [] = k + 1) ∧ each = all
    let room (b : Nat) : Bool := decide (x.rbuf ≠ 0) && decide (b ≤ x.rlen.toNat)
    let cq := tk.cq; let vec := s.f F.HPT_RCFG.VEC tk.port [cq]; let ent := (s.port k).msix.get ⟨0, 0, true⟩ vec
    let quietVec : Bool := !(s.port k).cfg.msixEnable || (s.port k).cfg.msixMask || ent.masked
    let tells (t : State) (out : List Sent) (st result : Nat) : Prop := (t.port k).taken = (s.port k).taken.tail ∧ t.engs = s.engs ∧ t.ques = s.ques ∧ t.blks = s.blks ∧ (tk.port = k → s.takesPart k cq = true →
      (t.port k).sent = (s.port k).sent ++ out ++ (.completion cq (s.dev k cq) x.tag st (if (s.ring k cq).phase then 128 else 0) tk.ring result (fn % 4294967296)) ::
        (if x.flags.getLsbD 2 = true ∧ quietVec = false then [.msix vec ent.addr ent.data] else []) ∧
      t.f F.HPT_RSTAT.DEV k [cq] = (s.dev k cq + 1) % s.ringN k cq ∧ t.f F.HPT_CMDCNT.COUNT k [] = min (s.f F.HPT_CMDCNT.COUNT k [] + 1) 4294967295)
    let waits (t : State) (w : WaitKind) : Prop := (t.port k).taken = (s.port k).taken.tail ∧ (t.port k).sent = (s.port k).sent ∧ t.pkg.waits = s.pkg.waits ++ [⟨tk, x.tag, x.flags.getLsbD 2, w⟩] ∧
      t.engs = s.engs ∧ t.ques = s.ques ∧ t.blks = s.blks ∧ t.shm = s.shm
    let answer (t : State) (ws : List W32) : Prop := tells t [.result x.rbuf ws] 0 (4 * ws.length) ∧ t.dies = s.dies
    let i := entry.toNat; let scrubs := s.f F.DIE_ERRCNT.COUNT d [6]; let inRange : Bool := decide (pa.toNat / 8589934592 = d) && decide (pa.toNat % 8589934592 + n.toNat ≤ 67108864)
    let due (t : State) (kty : Nat) (bytes : List Byte) : Prop := (t.die d).keyDue = (s.die d).keyDue ++ [(slot.toNat, kty, bytes)] ∧ waits t (.key d) ∧ t.regs = s.regs
    ((fit 9 true ∨ fit 9 false) → 1 ≤ c → c ≤ 1024 → addr.toNat % 4 = 0 → addr.toNat + 4 * c ≤ 16777216 → room (4 * c) = true → (∀ j < c, s.unpop (addr.toNat + 4 * j) = false) →
      Nexts (.queryRegisters x addr count) s (fun t => tells t [.result x.rbuf ((List.range c).map (fun j => (s.busRead (addr.toNat + 4 * j)).2))] 0 (4 * c) ∧ t.shm = s.shm ∧
        ((∀ j < c, crosses (.host x.port) (addr.toNat + 4 * j) = none) → t.dies = s.dies))) ∧
    (fit 9 false → addr.toNat = RegName.addr .DIE_ERRCNT d [6] → room 8 = true → Nexts (.queryRegisters x addr 2) s (fun t =>
      tells t [.result x.rbuf [BitVec.ofNat 32 scrubs, s.reg .DIE_ERRCNT d [7]]] 0 8 ∧ (d = k → t.dies = s.dies) ∧
      (d ≠ k → (t.die k).seqTx.get 0 d = (s.die k).seqTx.get 0 d + 2 ∧ (t.die d).seqTx.get 0 k = (s.die d).seqTx.get 0 k + 2))) ∧
    (fit 9 false → fid.toNat / 8192 = d → fid.toNat % 8192 < 5120 → room 32 = true → Nexts (.queryFlow x fid) s (fun t => answer t ((List.range 8).map (s.flowView fid.toNat (x.flags.getLsbD 0))))) ∧
    (fit 9 false → queue.toNat / 131072 = d → room 16 = true → Nexts (.queryQueue x queue) s (fun t => answer t ((List.range 4).map (s.queView queue.toNat)))) ∧
    (fit 9 false → room 32 = true → Nexts (.queryTally x) s (fun t => answer t ((List.range 6).map (fun j => s.reg .KEN_TALLY d [j]) ++ [s.reg .KEN_BLOCKS d [], s.show_ ⟨.KEN_STAT, d, [], false⟩]))) ∧
    (fit 9 false → room 32 = false → Nexts (.queryTally x) s (fun t => tells t [] 10 0 ∧ t.dies = s.dies)) ∧
    (fit 10 false → i < 16 → s.f F.REP_SOFT.V d [i] = 1 → s.f F.REP_STAT.FREE d [] ≠ 0 → s.f F.REP_STAT.PROG d [] = 0 → Nexts (.repair x entry) s (fun t => t.f F.REP_STAT.PROG d [] = 1 ∧
      (t.die d).progEntry = some (i, s.reg .REP_SOFT d [i]) ∧ waits t (.repair d))) ∧
    (fit 10 false → i < 16 → s.f F.REP_SOFT.V d [i] = 1 → s.f F.REP_STAT.FREE d [] = 0 → Nexts (.repair x entry) s (fun t => tells t [] 16 0 ∧ t.dies = s.dies)) ∧
    (fit 11 false → Nexts (.scrubFull x) s (fun t => waits t (.scrub d scrubs) ∧ t.regs = s.regs ∧ t.die d = { s.die d with scrubSeen := [] } ∧ ∀ j, j ≠ d → t.dies.get {} j = s.dies.get {} j)) ∧
    (fit 11 false → inRange = true → (∀ j < n.toNat, ok18 (s.word (pa.toNat + j)) = true) → Nexts (.scrubRange x pa n) s (fun t => tells t [] 0 0 ∧ t.shm = s.shm ∧ t.dies = s.dies)) ∧
    (fit 11 false → inRange = true → n = 1 → Memory.wf s.shm = true → ok18 (s.word pa.toNat) = false → s.f F.SHM_PWR.PSTAT d [paBank pa.toNat] = 0 → Nexts (.scrubRange x pa n) s (fun t => tells t [] 0 1 ∧ t.f F.DIE_ERRCNT.COUNT d [6] = min (scrubs + 1) 4294967295)) ∧
    (fit 12 true → s.pkgState = 3 → s.pkg.test = none → 0 < mask.toNat → mask.toNat < 64 → dur ≠ 0 → Nexts (.testStart x mask dur) s (fun t => waits t .test ∧ t.regs = s.regs ∧ t.dies = s.dies ∧
      t.pkg.test = some ⟨mask.toNat, (fn + 1 + dur.toNat) % 281474976710656, false, false, 0, 0, 0, [], false⟩)) ∧
    (fit 13 false → slot.toNat < 32 → 1 ≤ ty.toNat → ty.toNat ≤ 3 → len.toNat = (if ty.toNat = 2 then 24 else 40) →
      Nexts (.keyLoad x true slot ty len blob) s (fun t => tells t [] 14 0 ∧ t.dies = s.dies) ∧
      (s.f F.SEC_STAT.KEKOK d [] = 0 → Nexts (.keyLoad x false slot ty len blob) s (fun t => tells t [] 17 0 ∧ t.dies = s.dies)) ∧
      (s.f F.SEC_STAT.KEKOK d [] = 1 → Nexts (.keyLoad x false slot ty len blob) s (fun t => let key := Config.keyUnwrap blob
        if key.isNone then tells t [] 17 0 ∧ t.dies = s.dies else due t ty.toNat (key.getD [])))) ∧
    (fit 13 false → slot.toNat < 32 → Nexts (.keyErase x slot) s (fun t => due t 0 [])) ∧
    (fit 14 false → (s.die d).audit.running = false → Nexts (.audit x) s (fun t => (t.die d).audit = { (s.die d).audit with req := true } ∧ waits t (.audit d) ∧ t.regs = s.regs)) ∧
    (fit 14 false → (s.die d).audit.running = true → Nexts (.audit x) s (fun t => tells t [] 6 0 ∧ t.dies = s.dies)) ∧
    (shape 14 → s.f F.PKG_AUTH.OWNER 0 [] ≠ k + 1 → Nexts (.audit x) s (fun t => tells t [] 11 0 ∧ t.dies = s.dies))

/-- A link port in Ethernet mode (R467, R474 to R479, R482, R483): link changes, what a received frame counts and where it goes, the servo's
messages and its loss, and the next packet of a transmit stream. -/
def Obligations.LinkPortEvents : Prop :=
  ∀ (s : State) (die : DieNo) (kp : PortNo) (fr : EthFrame) (remote early late : Bool) (time : Int) (m : Ptp) (p : Rtp) (e : Entry) (j c : Nat) (i : Fin 1024) (fs es l : List Entry),
    let d := die.val; let k := kp.val; let x := s.link d k; let y (t : State) : Link := t.link d k; let live := s.live d
    let cnt (n : Nat) : Nat := RegName.LNK_CNT.cell d [k, n]; let more (t : State) (n : Nat) : Prop := t.f F.LNK_CNT.COUNT d [k, n] = min (s.f F.LNK_CNT.COUNT d [k, n] + 1) 4294967295
    let stat := RegName.LNK_STAT.cell d [k]; let ev := RegName.LNK_EV.cell d [k]; let up := s.linkUp d k; let eth := s.isEth d k
    let open_ : Bool := decide (s.f F.LNK_MSCTL.EN d [k] = 0); let ty := fr.etherType
    let got : Bool := live && eth && up && fr.fcsOk && decide (64 ≤ fr.len) && decide (fr.len ≤ 1522) && decide (ty ≠ 0x8808#16)
    let mac := s.f F.LNK_MACHI.MAC_HI d [k] * 4294967296 + s.f F.LNK_MACLO.MAC_LO d [k]
    let hp := s.f F.LNK_SPR.HP d [k]; let ring := s.f F.LNK_SPR.RING d [k]
    let posted : Bool := decide (s.f F.LNK_SPR.EN d [k] = 1) && s.live hp && s.takesPart hp ring && decide (s.ringType hp ring = 5) && decide (s.waiting hp ring ≠ 0)
    let slow (t : State) (ts : Option (BitVec 80)) : Prop := if posted then (t.port hp).sent = (s.port hp).sent ++ [.slowRx ring (s.dev hp ring) (fr.len - 4) (2 * d + k) (s.ring hp ring).phase (decide (fr.cap < fr.len - 4)) ts] ∧
        t.f F.HPT_RSTAT.DEV hp [ring] = (s.dev hp ring + 1) % s.ringN hp ring else more t 3 ∧ t.pkg = s.pkg
    let calm (t : State) : Prop := t.engs = s.engs ∧ t.shm = s.shm ∧ t.ques = s.ques ∧ t.blks = s.blks
    let g := 8192 * d + e.fid; let fl := s.flow g; let bytes := 2 + fl.fmt; let len := s.packetLen e.ptime; let chans := p.payload.length / (len * bytes)
    let now := (s.die d).msc + fr.pos; let idx : Int := packetIndex now p.ts (s.act .LNK_TSOFS d [k]) + Int.ofNat (s.fa F.LNK_PCFG.ROFS d [k]) + Int.ofNat j
    let servo (prof : Nat) : Bool := live && s.servoOn d k && decide (s.f F.LNK_PTPCFG.PROF d [k] = prof)
    let closed (w : List Byte) : Prop := 64 ≤ w.length ∧ w.drop (w.length - 4) = fcsOf (w.take (w.length - 4))
    let asked (t : State) (kind : PtpKind) : Prop := more t 1 ∧ (let q := (x.reqSeq + 1) % 65536; ∃ w, closed w ∧
      y t = { x with sent := x.sent ++ [⟨.ptp ⟨kind, s.f F.LNK_PTPCFG.DOMAIN d [k], Config.portIdentity (2 * d + k), q, 0, 0⟩, none, w⟩], reqTime := some time, reqSeq := q }) ∧ Same s t [cnt 1] [] [d] s
    let st := s.streamOf d k i.val early; let msc := (s.die d).msc; let q := s.packetLen (l.headD e).ptime; let hd := l.headD e; let key := hd.addr.toNat * 65536 + hd.udp
    let t0 := x.next.get (msc / q * q) key; let wide (o : List Entry) : Nat := o.foldl (fun b z => b + (s.flow (8192 * d + z.fid)).nchan) 0; let n := max (wide fs) (wide es)
    let src (o : List Entry) (ch : Nat) : Option (Nat × Nat) := chanOf (fun z => (s.flow (8192 * d + z.fid)).nchan) o ch
    let map := s.mapRegs fs.isEmpty; let cfg := mapAct map .LNK_PCFG d [k]; let vl := mapAct map .LNK_VLAN d [k, hd.vidx]
    let vals := (List.range q).flatMap (fun b => (List.range n).map (fun ch => (sendSample hd.sfmt (s.sendAt d (src es ch) (src fs ch) (t0 + b))).1))
    (live = true → s.f F.LNK_CTL.EN d [k] = 1 → Nexts (.linkUp die kp) s (fun t => t.f F.LNK_STAT.LOCFLT d [k] = 0 ∧ t.f F.LNK_STAT.REMFLT d [k] = 0 ∧ y t = { x with gained := true } ∧ Same s t [stat] [] [d] s)) ∧
    (live = true → s.f F.LNK_CTL.EN d [k] = 1 → Nexts (.linkDown die kp remote) s (fun t => (if remote then t.f F.LNK_STAT.REMFLT d [k] else t.f F.LNK_STAT.LOCFLT d [k]) = 1 ∧ t.f F.LNK_STAT.UP d [k] = 0 ∧
      y t = { x with gained := false } ∧ (up = true → t.f F.LNK_EV.DOWNEV d [k] = 1 ∧ t.events = s.events ++ [⟨0x101, d, 4, s.fn d, [2 * d + k]⟩]) ∧ Same s t [stat, ev] [] [d] s)) ∧
    (live = true → eth = true → up = true → fr.fcsOk = false → Nexts (.ethFrameReceive die kp fr) s (fun t => more t 0 ∧ more t 2 ∧ Same s t [cnt 0, cnt 2] [] [] s)) ∧
    (live = true → eth = true → up = true → fr.fcsOk = true → (fr.len < 64 ∨ 1522 < fr.len ∨ ty = 0x8808#16) → Nexts (.ethFrameReceive die kp fr) s (fun t => more t 0 ∧ more t 3 ∧ Same s t [cnt 0, cnt 3] [] [] s)) ∧
    (got = true → open_ = false → ty ≠ 0x888E#16 → fr.sec = none → Nexts (.ethFrameReceive die kp fr) s (fun t => more t 0 ∧ more t 6 ∧ Same s t [cnt 0, cnt 6] [] [] s)) ∧
    (got = true → ty = 0x888E#16 → Nexts (.ethFrameReceive die kp fr) s (fun t => more t 0 ∧ slow t none ∧ calm t ∧ t.dies = s.dies)) ∧
    (got = true → open_ = true → ty ≠ 0x888E#16 → ty ≠ 0x88F7#16 → fr.udp = none → Nexts (.ethFrameReceive die kp fr) s (fun t => more t 0 ∧ calm t ∧ t.dies = s.dies ∧
      (if fr.dst.toNat = mac ∨ fr.dst.getLsbD 40 = true then slow t none else more t 3 ∧ t.pkg = s.pkg))) ∧
    (got = true → open_ = true → ty = 0x88F7#16 → fr.ptp = some m → s.servoOn d k = true → m.domain.toNat = s.f F.LNK_PTPCFG.DOMAIN d [k] → m.kind = .sync → m.twoStep = false → m.source = x.gm → x.lostMaster = false →
      Nexts (.ethFrameReceive die kp fr) s (fun t => more t 0 ∧ slow t (some (BitVec.ofInt 48 (m.rxTime.fdiv 1000000000) ++ BitVec.ofInt 32 (m.rxTime.fmod 1000000000))) ∧ calm t ∧ (y t).ms = m.rxTime - m.time ∧ t.reg .LNK_PTPOFS d [k] = BitVec.ofInt 32 (m.rxTime - m.time - x.delay))) ∧
    (got = true → open_ = true → ty = 0x800#16 → fr.udp = some (e.addr, BitVec.ofNat 16 e.udp, true) → e.udp < 65536 → e.udp ≠ 319 → e.udp ≠ 320 → fr.rtp = some p → p.odd = false → s.pkg.early = none →
      s.matching false d k e.addr e.udp fr.vlan = [e] → s.rxOk false d k e = true → s.pairOf false d k e = none → Nexts (.ethFrameReceive die kp fr) s (fun t => more t 0 ∧ calm t ∧ t.pkg = s.pkg ∧
        (t.flowState g).c4.toNat % 65536 = (p.seq.toNat + 1) % 65536 ∧
        (j < len → c < fl.nchan → e.ch0 + c < chans → Int.ofNat (s.openFrom d) ≤ idx → idx ≤ Int.ofNat (now + 4096) →
          ((t.die d).ing.get [] e.fid).get none (64 * idx.toNat + c) = some (BitVec.ofInt 32 (sampleW fl.fmt (beSample bytes (p.payload.drop ((j * chans + e.ch0 + c) * bytes)))))))) ∧
    (servo 0 = true → up = true → eth = true → open_ = true → Nexts (.ptpDelayReqSend die kp time) s (fun t => asked t .delayReq)) ∧
    (servo 1 = true → up = true → eth = true → open_ = true → Nexts (.ptpPdelayReqSend die kp time) s (fun t => asked t .pdelayReq)) ∧
    (live = true → s.servoOn d k = true → x.lostMaster = false → Nexts (.ptpLoss die kp) s (fun t => t.f F.LNK_EV.PTPLOSS d [k] = 1 ∧ y t = { x with lostMaster := true, locked := false, sync := none } ∧
      t.events = s.events ++ [⟨0x102, d, 4, s.fn d, [2 * d + k]⟩] ∧ (∀ b < 8, s.live b = true → t.f F.TCK_STAT.HOLDOVER b [] = 1 ∧ t.f F.TCK_STAT.SRCLOST b [] = 1) ∧
      Same s t (ev :: (List.range 8).map (fun b => RegName.TCK_STAT.cell b [])) [] [d] s)) ∧
    (st = (fs, es) → l = (if fs.isEmpty then es else fs) → l ≠ [] → live = true → eth = true → up = true → t0 + q ≤ msc + s.perFrame → s.packetFirst d k hd = true → open_ = true → Nexts (.streamPacketSend die kp i early late) s (fun t =>
      more t 1 ∧ (y t).next.get 0 key = t0 + q ∧ (∃ p w, (y t).sent = x.sent ++ [⟨.rtp p, none, w⟩] ∧ closed w ∧ p.entry = i.val ∧ p.dstMac.toNat = 0x01005E000000 + hd.addr.toNat % 8388608 ∧ p.srcMac = BitVec.ofNat 48 mac ∧
        p.tag = (if vl.getLsbD 31 then some (field vl 15 13, field vl 11 0) else none) ∧ p.dscp = field cfg 31 26 ∧ p.ttl = 64 ∧ p.df = true ∧ p.srcIp = s.reg .LNK_IP d [k] ∧ p.dstIp = hd.addr ∧ p.srcPort = hd.udp ∧
        p.dstPort = hd.udp ∧ p.version = 2 ∧ p.marker = false ∧ p.pt = field cfg 25 19 ∧ p.seq = t0 / q % 65536 ∧ p.ts = BitVec.ofNat 32 t0 + mapAct map .LNK_TSOFS d [k] ∧
        p.ssrc = BitVec.ofNat 32 (0x00DA0000 + i.val) ∧ p.payload = streamPayload hd.sfmt vals) ∧ ((late = true ∨ t0 + q < msc) → t.f F.LNK_EV.LATE d [k] = 1 ∧ more t 4) ∧
      (∀ z ∈ l, (t.flowState (8192 * d + z.fid)).c4.toNat / 65536 = (t0 / q % 65536 + 1) % 65536) ∧ calm t))

/-- Finolrus and TDM ports (R470, R471, R486, R487, R491, R492, R498, R505 to R507): a train starts in each direction and shows its delay, a
slot is checked, counted and kept once, DEG compares each node's CRC errors; a TDM slot places or drives its sample, and FS loss
unlocks. -/
def Obligations.FinolrusAndTdm : Prop :=
  ∀ (s : State) (die : DieNo) (kp : Fin 4) (slot : Fin 16) (pos : Fin 192) (slip : Slip) (word : W32) (dirB : Bool) (delay : Option (BitVec 16)) (x : FinSlot) (n lb g fid ch : Nat) (b : Nctl) (ws : List W18) (out old : Bool),
    let d := die.val; let k := kp.val; let live := s.live d; let r := (s.die d).ring; let rg (t : State) : FinRing := (t.die d).ring
    let cnt (c : Nat) : Nat := RegName.FIN_CNT.cell d [c]; let more (t : State) (c : Nat) : Prop := t.f F.FIN_CNT.COUNT d [c] = min (s.f F.FIN_CNT.COUNT d [c] + 1) 4294967295
    let ret := if dirB then F.FIN_STAT.BRET else F.FIN_STAT.ARET; let rd := if dirB then F.FIN_RDLY.RDB else F.FIN_RDLY.RDA
    let z := s.tdm d k; let y (t : State) : Tdm := t.tdm d k; let tc (q : RegName) : Nat := q.cell d [k]
    let first : Bool := decide (pos.val = 0) && !z.seen; let slave : Bool := decide (s.f F.TDM_CTL.MASTER d [k] = 0); let slip' : Slip := if slave then slip else .none
    let locks : Bool := first && slave && decide (s.f F.TDM_STAT.RUN d [k] = 1) && decide (1 ≤ z.edges); let on : Bool := s.tdmOn d k || locks
    let edge : Tdm := if first then { z with seen := true, edges := z.edges + 1 } else z; let slips : Bool := decide (slip' ≠ .none) && decide (z.slipAt ≠ some pos.val)
    let after : Tdm := if slips then { edge with slipAt := some pos.val } else edge; let period := (s.die d).msc + pos.val
    let counted (t : State) : Prop := t.f F.TDM_STAT.LOCK d [k] = (if locks then 1 else s.f F.TDM_STAT.LOCK d [k]) ∧
      t.f F.TDM_SLIP.COUNT d [k] = min (s.f F.TDM_SLIP.COUNT d [k] + slips.toNat) (max (s.f F.TDM_SLIP.COUNT d [k]) F.TDM_SLIP.COUNT.top) ∧ (slips = true → t.f F.TDM_EV.SLIP d [k] = 1)
    let runs : Bool := live && decide (s.f F.FIN_STAT.RUN d [] = 1); let back := (if r.startedA || r.startedB then 0 else 1) + old.toNat
    let cycle := (s.fn d + 281474976710656 - back) % 281474976710656; let had := if old then r.keptOld else r.kept; let has (t : State) : List Nat := if old then (rg t).keptOld else (rg t).kept
    let hop := s.f (if x.dirB then F.FIN_NST.HOPB else F.FIN_NST.HOPA) d [n]; let own : Bool := decide (s.slotOwner d x.slot.toNat = some n)
    let fits : Bool := decide (x.node.val = n) && (decide (hop = 127) || decide (hop = x.hop.toNat)); let nd := s.node d n
    let quiet (t : State) : Prop := t.ques = s.ques ∧ t.shm = s.shm ∧ t.blks = s.blks ∧ t.engs = s.engs
    let tdmLive : Bool := live && decide (s.f F.TDM_CTL.EN d [k] = 1) && decide (slot.val < (if s.f F.TDM_CTL.MODE d [k] = 0 then 2 else s.f F.TDM_CTL.SLOTS d [k]))
    let idx := (s.die d).msc + pos.val + 1; let own2 : Option (Nat × Nat) := if out then some (fid, ch) else none; let nosrc : Option (Nat × Nat) := none
    let f := s.perFrame; let emin := (BitVec.ofNat 6 (s.fa F.FIN_NCFG.EMIN d [n])).toInt; let emax := (BitVec.ofNat 6 (s.fa F.FIN_NCFG.EMAX d [n])).toInt
    let fl := s.flow g; let queue := 131072 * d + fl.qbase; let late : Bool := decide (cycle ≠ s.fn d)
    let body := mkBlock (blkE ws) ((ws.drop 4).take (blkCount ws)) g (s.fn d) (blkChan ws) (blkSeg ws) (if late then 2 else 0) 0
    (runs = true → s.fa F.FIN_CFG.S d [] ≠ 0 → (if dirB then r.startedB else r.startedA) = false → Nexts (.finTrainStart die dirB delay) s (fun t =>
      (if dirB then (rg t).startedB else (rg t).startedA) = true ∧ t.f ret d [] = delay.isSome.toNat ∧ (∀ v ∈ delay, t.f rd d [] = v.toNat ∧ (40000 < v.toNat → t.f F.FIN_EV.RDLONG d [] = 1)) ∧
      (delay = none → t.f rd d [] = s.f rd d []) ∧ (rg t).sent = r.sent ++ [⟨dirB, trainBytes ((rg t).train.getD []) dirB (s.fn d) (s.finSlots d)⟩] ∧
      (∀ w ∈ (rg t).sent.getLast?, w.slots.length = s.finSlots d ∧ w.slots.all (fun b => decide (b.length = 308)) = true) ∧ t.engs = s.engs ∧
      (r.startedA = true ∨ r.startedB = true → (rg t).train = r.train ∧ t.fin = s.fin ∧ quiet t) ∧
      (r.startedA = false → r.startedB = false → (rg t).kept = [] ∧ (rg t).keptOld = r.kept ∧ ((rg t).train.getD []).head? = some (.cycle (s.fn d) (s.f F.TCK_CTL.RATE 0 []) (s.fa F.TCK_FRAME.FPER 0 []) (s.finSlots d) r.tgen
        ((List.range 64).map (fun m => (s.fa F.FIN_NSLOT.SBASE d [m], s.fa F.FIN_NSLOT.NSLOT d [m]))))))) ∧
    (runs = true → s.slotOwner d x.slot.toNat = none → Nexts (.finSlotReceive die x true old) s (fun t => t = s) ∧ Nexts (.finSlotReceive die x false old) s (fun t => more t 0 ∧ Same s t [cnt 0] [] [] s)) ∧
    (runs = true → own = true → Nexts (.finSlotReceive die x false old) s (fun t => more t 0 ∧ t.f F.FIN_NCRC.COUNT d [n] = min (s.f F.FIN_NCRC.COUNT d [n] + 1) F.FIN_NCRC.COUNT.top ∧
      Same s t [cnt 0, RegName.FIN_NCRC.cell d [n]] [] [] s)) ∧
    (runs = true → own = true → x.body ≠ .empty → fits = false → Nexts (.finSlotReceive die x true old) s (fun t => t.f F.FIN_EV.IMPERS d [] = 1 ∧ quiet t ∧
      (t.reg .FIN_IMP d []).toNat = x.dirB.toNat * 2147483648 + x.node.val * 16777216 + x.hop.toNat * 65536 + x.slot.toNat ∧ has t = had)) ∧
    (runs = true → own = true → x.body = .nctl b → x.slot.toNat < 67 → fits = true → s.nodeState d n = 3 → x.fnlo.toNat = cycle % 65536 → (if old then nd.leashOld else nd.leash) = none → b.kind = 0#8 → Nexts (.finSlotReceive die x true old) s (fun t =>
      quiet t ∧ (has t).contains x.slot.toNat = true ∧ (if had.contains x.slot.toNat = true then more t 1 ∧ (t.node d n).nctl = nd.nctl
        else (t.node d n).nctl = true ∧ (t.node d n).leashNow = some (let l := nd.leashNow.getD b.leash.toNat; if newer 32 b.leash.toNat l then b.leash.toNat else l) ∧ (t.node d n).ret = (if newer 16 b.ret.toNat nd.ret then b.ret.toNat else nd.ret)))) ∧
    (runs = true → own = true → x.body = .nctl b → x.slot.toNat < 67 → fits = true → s.nodeState d n = 3 → x.fnlo.toNat ≠ cycle % 65536 → nd.hostile = 0 → Nexts (.finSlotReceive die x true old) s (fun t =>
      quiet t ∧ (t.node d n).hostile = 2 ∧ (t.node d n).nctl = nd.nctl)) ∧
    (runs = true → own = true → x.body = .carrier ws → 67 ≤ x.slot.toNat → fits = true → s.finActive d n = true → had.contains x.slot.toNat = false → x.fnlo.toNat = cycle % 65536 → newer 16 x.sent.toNat (if old then nd.sentOld else nd.sentHi) = true →
      ((if old then r.grantsOld else r.grants).get 0 n + 65536 - x.sent.toNat) % 65536 < 32768 → s.finFlow d n x.strm.toNat = some g → blkCount ws = f / segsOf f → emin ≤ blkE ws → blkE ws ≤ emax → blkChan ws < fl.nchan → blkSeg ws < segsOf f →
      (fl.cmax = 0 ∨ 1 ≤ (s.flowState g).tokens) → s.loanOf d (16 + n) = some lb → Nexts (.finSlotReceive die x true old) s (fun t => (t.blk d lb).st = .queued ∧ (t.node d n).sentNow = (if newer 16 x.sent.toNat nd.sentNow then x.sent.toNat else nd.sentNow) ∧ (has t).contains x.slot.toNat = true ∧
        (t.que queue).pend = (s.que queue).pend ++ [⟨BitVec.ofNat 16 lb, 0, false, false⟩] ∧ (∀ m < body.length, t.word (s.blkPa d lb + m) = enc18 (body.getD m 0)) ∧
        (t.flowState g).c5.toNat = min ((s.flowState g).c5.toNat + 1) 4294967295 ∧ t.f F.KEN_LATE.COUNT d [] = min (s.f F.KEN_LATE.COUNT d [] + late.toNat) 4294967295)) ∧
    (live = true → (s.die d).phase = .guard → (s.fn d + 1) % 1000 = 0 → r.degDone = false → Nexts (.degUpdate die) s (fun t => (rg t).degDone = true ∧ quiet t ∧
      ∀ m < 64, t.f F.FIN_NST.DEG d [m] = (if s.f F.FIN_THR.DEGTHR d [] ≤ s.f F.FIN_NCRC.COUNT d [m] - (s.node d m).crcBase then 1 else 0) ∧ (t.node d m).crcBase = s.f F.FIN_NCRC.COUNT d [m])) ∧
    (tdmLive = true → on = false → Nexts (.tdmInputSlot die kp slot pos slip word) s (fun t => y t = edge ∧ Same s t [] [] [d] s) ∧
      Nexts (.tdmOutputSlot die kp slot pos slip) s (fun t => y t = { edge with sent := z.sent ++ [(slot.val, 0)] } ∧ Same s t [] [] [d] s)) ∧
    (tdmLive = true → on = true → s.pkg.early = none → (s.slotMap false d k slot.val = none ∨ s.slotMap false d k slot.val = some ⟨out, ch, fid⟩) →
      Nexts (.tdmInputSlot die kp slot pos slip word) s (fun t => y t = after ∧ quiet t ∧ counted t ∧ (slip' = .dropped → (t.die d).ing = (s.die d).ing) ∧
        (slip' = .repeated → s.slotMap false d k slot.val = some ⟨false, ch, fid⟩ → s.slotOk false d k ⟨false, ch, fid⟩ = true → s.openFrom d ≤ idx →
          ∀ n, n < 2 → ((t.die d).ing.get [] fid).get none (64 * (idx + n) + ch) = some word) ∧
        (slip' = .none → s.slotMap false d k slot.val = some ⟨false, ch, fid⟩ → s.slotOk false d k ⟨false, ch, fid⟩ = true →
          if s.openFrom d ≤ idx then ((t.die d).ing.get [] fid).get none (64 * idx + ch) = some word
          else t.f F.TDM_LATE.COUNT d [k] = min (s.f F.TDM_LATE.COUNT d [k] + 1) F.TDM_LATE.COUNT.top ∧ (t.die d).ing = (s.die d).ing)) ∧
      Nexts (.tdmOutputSlot die kp slot pos slip) s (fun t => quiet t ∧ counted t ∧ y t = { after with sent := z.sent ++ [(slot.val, BitVec.ofInt 32 (sendSample 2 (s.sendAt d nosrc
        (if s.slotMap false d k slot.val = some ⟨true, ch, fid⟩ ∧ s.slotOk false d k ⟨true, ch, fid⟩ = true then own2 else none) (match slip' with | .none => period - 1 | .repeated => period - 2 | .dropped => period))).1)] })) ∧
    (live = true → s.f F.TDM_CTL.EN d [k] = 1 → s.f F.TDM_CTL.MASTER d [k] = 0 → Nexts (.tdmFsLoss die kp) s (fun t => t.f F.TDM_STAT.LOCK d [k] = 0 ∧ t.f F.TDM_EV.LOSS d [k] = 1 ∧
      y t = { z with edges := 0, seen := false } ∧ t.events = s.events ++ [⟨0x121, d, 4, s.fn d, [4 * d + k]⟩] ∧ Same s t [tc .TDM_STAT, tc .TDM_EV] [] [d] s))

/-- Boot, recovery and TEST (R546, R547, R550, R557, R560, R564 to R568): the self-tests choose the boot die, a header or payload that fails
records its reason and leads to the other flash or RECOVERY with cleared memories, an accepted image puts EARLY at the next tick; TEST
ends in FULL with its results, and a self-test slot ends with its verdict. -/
def Obligations.BootAndTest : Prop :=
  ∀ (s : State) (ok0 ok1 : Bool) (h p : List Byte) (n r : Nat) (src : Src) (val : W32) (e : EngNo) (die : DieNo) (x : Test),
    let quiet : Bool := s.dies.all (fun p => p.2.due.isEmpty); let idle : Bool := s.liveDies.all (fun m => (List.range 8).all (fun q => ((s.die m).selfSlot.get none q).isNone))
    let b := s.pkg.boot; let boot (t : State) : Boot := t.pkg.boot; let none_ : Option (List Byte) := none; let some_ := some h; let pay := some p
    let cleared (t : State) : Prop := t.shm = [] ∧ t.sbits = [] ∧ t.blks = [] ∧ t.ques = [] ∧ t.flA = [] ∧ t.flS = [] ∧ ∀ i < 8, (t.eng (i % 2) i).lmem = [] ∧ (t.eng (i % 2) i).pmem = []
    let failed (t : State) (why : Nat) : Prop := cleared t ∧ (if n = 0 then t.f F.PKG_BOOT.REASON0 0 [] else t.f F.PKG_BOOT.REASON1 0 []) = why ∧
      (boot t).stage = (if n = 0 ∧ s.live (1 - b.die) = true then .header 1 else .enter 5) ∧ t.f F.PKG_BOOT.VALID 0 [] = s.f F.PKG_BOOT.VALID 0 []
    let accepted (t : State) (from_ : Nat) (hd : List Byte) : Prop := t.f F.PKG_BOOT.VALID 0 [] = 1 ∧ t.f F.PKG_BOOT.SRC 0 [] = from_ ∧ t.f F.PKG_SVN.SVN 0 [] = fieldAt hd 8 4 ∧ (boot t).stage = .enter 2
    let why (l : List Byte) : Nat := s.headerReason l
    let live := s.live b.die; let d := die.val; let past := (s.fn (s.liveDies.headD 0) + 281474976710656 - x.endFn) % 281474976710656
    let verdict := if s.f F.DIE_STRES.V d [e.val] = 1 then s.f F.DIE_STRES.VERDICT d [e.val] else 3
    let magic : Bool := decide (h.length < 256) || decide (h.take 6 ≠ [0x44, 0x58, 0x45, 0x50, 0x01, 0x00])
    (b.stage = .selftest → s.pkgState = 1 → quiet = true → Nexts (.bootSelftestEnd ok0 ok1) s (fun t =>
      (∀ i < 64, s.live (i % 2) = true → s.f F.ENG_CTL.EN (i % 2) [i] = 1 → t.f F.ENG_STAT.PWR (i % 2) [i] = 1) ∧
      (ok0 = true → (boot t).stage = .header 0 ∧ (boot t).die = 0 ∧ t.f F.PKG_BOOT.DIE 0 [] = s.f F.PKG_BOOT.DIE 0 []) ∧
      (ok0 = false → ok1 = true → (boot t).stage = .header 0 ∧ (boot t).die = 1 ∧ t.f F.PKG_BOOT.DIE 0 [] = 1 ∧ (t.die 0).stopped = true) ∧
      (ok0 = false → ok1 = false → (boot t).stage = .enter 5 ∧ t.f F.PKG_BOOT.REASON0 0 [] = 8 ∧ t.f F.PKG_BOOT.REASON1 0 [] = 8))) ∧
    (live = true → b.stage = .header n → Nexts (.endpaperHeaderRead none_) s (fun t => failed t 7) ∧ (magic = true → Nexts (.endpaperHeaderRead some_) s (fun t => failed t 1)) ∧
      Nexts (.endpaperHeaderRead some_) s (fun t => if why h = 0 then boot t = { b with stage := .payload n, header := h } ∧ Same s t [] [] [] { s with pkg := t.pkg } else failed t (why h))) ∧
    (live = true → b.stage = .payload n → Nexts (.endpaperPayloadReadEnd none_) s (fun t => failed t 7) ∧
      (p.length ≠ fieldAt b.header 12 4 → Nexts (.endpaperPayloadReadEnd pay) s (fun t => failed t 7)) ∧
      (p.length = fieldAt b.header 12 4 → Nexts (.endpaperPayloadReadEnd pay) s (fun t => let r := s.applyImage b.header p
        if (Config.sha256 p).toNat ≠ beNat (slice b.header 32 32) then failed t 5 else if r.1 ≠ 0 then failed t r.1
        else accepted t (if n = 0 then b.die else 1 - b.die) b.header ∧ t.shm = r.2.shm ∧ t.flA = r.2.flA ∧ t.engs = r.2.engs))) ∧
    (s.srcLive src = true → s.f F.PKG_RECOVLEN.GO 0 [] = 1 → live = true →
      let len := s.f F.PKG_RECOVLEN.LEN 0 []; let at_ : BitVec 64 := s.reg .PKG_RECOVHI 0 [] ++ s.reg .PKG_RECOVLO 0 []
      let from_ : State := match src with | .host p => { s with pkg := { s.pkg with ports := s.pkg.ports.set {} p.val { s.port p.val with sent := (s.port p.val).sent ++ [.recoveryRead at_ len] } } } | _ => s
      Nexts (.recoveryLoad src val none_) s (fun t => t.pkg.ports = from_.pkg.ports ∧ t.f F.PKG_BOOT.SRC 0 [] = 2 ∧ cleared t ∧ t.f F.PKG_BOOT.REASON1 0 [] = 7 ∧ t.f F.PKG_RECOVLEN.GO 0 [] = 0 ∧ boot t = b) ∧
      (h.length < len → Nexts (.recoveryLoad src val some_) s (fun t => cleared t ∧ t.f F.PKG_BOOT.REASON1 0 [] = 7 ∧ t.f F.PKG_BOOT.SRC 0 [] = 2 ∧ boot t = b)) ∧
      (len ≤ h.length → Nexts (.recoveryLoad src val some_) s (fun t => let hd := (h.take len).take 256; let r := (from_).applyImage hd (slice (h.take len) 256 (fieldAt hd 12 4)); t.f F.PKG_RECOVLEN.GO 0 [] = 0 ∧
        if why hd ≠ 0 ∨ r.1 ≠ 0 then cleared t ∧ t.f F.PKG_BOOT.REASON1 0 [] = (if why hd ≠ 0 then why hd else r.1) ∧ t.f F.PKG_BOOT.SRC 0 [] = 2 ∧ boot t = b
        else accepted t 2 hd ∧ t.f F.PKG_BOOT.REASON1 0 [] = 0 ∧ t.shm = r.2.shm ∧ t.engs = r.2.engs))) ∧
    (s.pkg.test = some x → x.started = true → past < 140737488355328 → Nexts .testEnd s (fun t => t.pkgState = 3 ∧ t.pkg.test = none ∧ t.pkg.waits = s.pkg.waits.filter (fun w => decide (w.kind ≠ .test)) ∧
      t.events.any (fun v => decide (v.code = 0x202) && decide (v.ps.getLast? = some (if x.abort then 1 else 0))) = true ∧ (idle = true → t.ques = s.ques ∧ t.blks = s.blks) ∧ (∀ i < 8, (t.die 0).selfSlot.get none i = none ∨ s.live 0 = false))) ∧
    (s.live d = true → (s.die d).selfSlot.get none (e.val / 8) = some (e.val, r) → 65 ≤ r → Nexts (.selftestSlotEnd die e) s (fun t => (t.die d).selfSlot.get none (e.val / 8) = none ∧
      (t.die d).selfDone.contains e.val = true ∧ t.events = s.events ++ [⟨0x203, d, 5, s.fn d, [globalEng d e.val, verdict, s.f F.DIE_STRES.DETAIL d [e.val]]⟩] ∧
      (verdict = 2 ∨ verdict = 3 → t.f F.ENG_CTL.SPARE d [e.val] = 0) ∧ (verdict ≤ 1 → s.f F.ENG_STAT.SUSPECT d [e.val] = 0 → (s.eng d e.val).run ≠ .idle → t.regs = s.regs) ∧ ((s.eng d e.val).run = .idle → (t.eng d e.val).run = .none) ∧ t.shm = s.shm))

/-- Panel ports (R271 to R273, R573 to R581): a frame whose transfers pass is counted and answered with the status word or the words read, a
word that the internal side writes in that cycle being undefined and flagged; WRITE stores the panel's half of the mailbox and keeps the words at which
the internal side meets it; KICK and ACK clear,
TRIGGER accepts a word, counts it and tells the other panel die; the watchdog expires; Early Service starts, stops and switches what a
trigger names. -/
def Obligations.PanelCommands : Prop :=
  ∀ (s : State) (kp : PortNo) (die : DieNo) (frame : List (BitVec 24)) (late : Bool) (hd w : W18) (ws : List W18) (addr : Nat) (word : W36) (clash : List Nat),
    let k := kp.val; let x := s.panel k; let y (t : State) : Panel := t.panel k; let st := s.panelStatus k; let cnt (c : Nat) : Nat := RegName.PNL_CNT.cell k [c]
    let more (t : State) (c : Nat) : Prop := t.f F.PNL_CNT.COUNT k [c] = min (s.f F.PNL_CNT.COUNT k [c] + 1) 4294967295
    let on : Bool := s.panelOn k; let plain := packXfer 0 st :: (List.range (frame.length - 1)).map (fun i => packXfer (i + 1) st)
    let head (c : Nat) : Prop := on = true ∧ goodXfers 0 frame = (hd :: ws, false) ∧ hd.toNat = c * 16384 + addr ∧ addr < 4096
    let box (i : Nat) : Nat := mboxPa k ((addr + i) % 4096); let base : Panel := { x with lastErr := false, full := false, busy := false, hot := [], miso := plain }
    let d := die.val; let z := s.die d; let tr := Trig.mk k (word.setWidth 18) ((word >>> 18).setWidth 18)
    let act := tr.word.toNat / 32768; let m := tr.word.toNat / 512 % 64; let zone := tr.word.toNat / 8 % 64; let pri := tr.word.toNat % 8
    let zs := if zone = 63 then List.range 63 else [zone]; let pl := z.players.get {} m; let kept := pl.zones.filter (fun e => !zs.contains e.1)
    let due (a : Nat) : Prop := s.live d = true ∧ act = a ∧ z.acts.contains tr = true
    let left (t : State) (players : Store Player) (live : List (Nat × Nat × Nat)) : Prop := t.die d = { z with acts := z.acts.erase tr, players := players, live := live } ∧ Same s t [] [] [d] s
    let others := z.live.filter (fun e => !(decide (e.1 = m) && zs.contains e.2.1))
    let tw := Trig.mk k w (BitVec.ofNat 18 (s.fn k)); let ta := w.toNat / 32768; let from_ := (s.die k).ticks + (if late then 2 else 1)
    let good : Bool := decide (1 ≤ ta ∧ ta ≤ 6) && (decide (3 < ta) || decide (w.toNat / 512 % 64 < 16)) && (decide (ta ≠ 4 ∧ ta ≠ 5) || decide (w.toNat / 512 % 64 < 48))
    let pri_ := s.f F.SHM_MBX.PRI k []; let in_ := clash.filter (fun i => decide (1 ≤ i ∧ i ≤ ws.length)); let met := !in_.isEmpty
    let hots := (in_.map (fun i => (addr + i - 1) % 4096)).filter (fun n => decide (n < 0x800))
    let flags (t : State) (b : Bool) : Prop := t.f F.SHM_MBX.PCOLL k [] = (if b = true ∧ pri_ = 0 then 1 else s.f F.SHM_MBX.PCOLL k []) ∧
      t.f F.SHM_MBX.ICOLL k [] = (if b = true ∧ pri_ ≠ 0 then 1 else s.f F.SHM_MBX.ICOLL k [])
    (on = false → Nexts (.panelNop kp frame) s (fun t => t = s)) ∧
    (head 0 → Nexts (.panelNop kp frame) s (fun t => more t 0 ∧ y t = base ∧ Same s t [cnt 0] [] [k] s)) ∧
    (on = true → frame ≠ [] → (goodXfers 0 frame).1 = [] → Nexts (.panelNop kp frame) s (fun t => more t 0 ∧ more t 1 ∧ t.f F.PNL_EV.ERR k [] = 1 ∧ (y t).lastErr = true ∧ (y t).busy = false ∧ (y t).miso = frame.mapIdx (fun i _ => packXfer i st) ∧
      Same s t [cnt 0, cnt 1, RegName.PNL_EV.cell k []] [] [k] s)) ∧
    (head 1 → Nexts (.panelRead kp frame clash) s (fun t => more t 0 ∧ y t = { base with busy := met && decide (pri_ = 0), miso := packXfer 0 st :: (List.range (frame.length - 1)).map (fun i =>
        packXfer (i + 1) (if i < ws.length then (if clash.contains (i + 1) then freeBits 18 (s.fresh + (i + 1)) else data18 (s.word (box i))) else st)) } ∧
      flags t met ∧ t.fresh = (if met then s.fresh + (ws.length + 1) else s.fresh) ∧ Same s t [cnt 0, RegName.SHM_MBX.cell k []] [] [k] s)) ∧
    (head 2 → ws.length ≤ 4096 → Nexts (.panelWrite kp frame clash) s (fun t => more t 0 ∧ y t = { base with hot := hots } ∧
      (∀ i < ws.length, t.word (box i) = (if (addr + i) % 4096 < 0x800 then enc18 (ws.getD i 0) else s.word (box i))) ∧
      t.f F.PNL_EV.WRPROT k [] = (if (List.range ws.length).any (fun i => decide (0x800 ≤ (addr + i) % 4096)) then 1 else s.f F.PNL_EV.WRPROT k []) ∧
      (∀ n < 4096, ws.length ≤ (n + 4096 - addr) % 4096 → t.word (mboxPa k n) = s.word (mboxPa k n)) ∧
      Same s t [cnt 0, RegName.PNL_EV.cell k []] [] [k] { s with shm := t.shm })) ∧
    (head 4 → Nexts (.panelKick kp frame) s (fun t => more t 0 ∧ t.f F.PNL_STAT.WDEXP k [] = 0 ∧ y t = { base with sinceKick := 0, kicked := true } ∧ Same s t [cnt 0, RegName.PNL_STAT.cell k []] [] [k] s)) ∧
    (head 5 → Nexts (.panelAck kp frame) s (fun t => more t 0 ∧ t.f F.PNL_STAT.IRQ k [] = 0 ∧ y t = base ∧ Same s t [cnt 0, RegName.PNL_STAT.cell k []] [] [k] s)) ∧
    (head 3 → ws = [w] → Nexts (.panelTrigger kp frame late) s (fun t => more t 0 ∧ (∀ q ∈ t.pkg.test, q.abort = true) ∧ t.shm = s.shm ∧ t.ques = s.ques ∧
      (good = false → more t 3 ∧ (t.die k).trigs = (s.die k).trigs) ∧
      (good = true → x.frame < 16 → more t 2 ∧ t.f F.PNL_STAT.TRIGCNT k [] = (s.f F.PNL_STAT.TRIGCNT k [] + 1) % 256 ∧ (y t).frame = x.frame + 1 ∧
        (t.die k).trigs = (s.die k).trigs ++ [(from_, tw)] ∧
        t.events = s.events ++ [⟨0x303, 255, 7, s.fn (s.liveDies.headD 0), [k, w.toNat, tw.fn.toNat]⟩] ∧
        (s.live (1 - k) = true → ((t.die k).up.queue ++ (t.die k).dn.queue).contains ⟨k, 1 - k, (s.die k).seqTx.get 0 (1 - k), .trigger from_ [tw]⟩ = true)) ∧
      (good = true → 16 ≤ x.frame → more t 3 ∧ t.f F.PNL_EV.TRIGFULL k [] = 1 ∧ (y t).full = true))) ∧
    (s.live k = true → s.f F.PNL_CTL.WDT k [] ≠ 0 → s.f F.PNL_STAT.WDEXP k [] = 0 → s.f F.PNL_CTL.WDT k [] ≤ x.sinceKick → Nexts (.panelWatchdogExpire kp) s (fun t => t.f F.PNL_STAT.WDEXP k [] = 1 ∧
      t.f F.PNL_EV.WDEXP k [] = 1 ∧ t.events = s.events ++ [⟨0x304, 255, 7, s.fn (s.liveDies.headD 0), [k]⟩] ∧ Same s t [RegName.PNL_STAT.cell k [], RegName.PNL_EV.cell k []] [] [] s)) ∧
    (due 1 → Nexts (.triggerStart die kp word) s (fun t => left t (z.players.set {} m ⟨kept ++ zs.map (fun v => (v, pri)), if pl.zones.isEmpty then 0 else pl.pos, false⟩) z.live)) ∧
    (due 2 → Nexts (.triggerLoop die kp word) s (fun t => left t (z.players.set {} m ⟨kept ++ zs.map (fun v => (v, pri)), if pl.zones.isEmpty then 0 else pl.pos, true⟩) z.live)) ∧
    (due 3 → Nexts (.triggerStop die kp word) s (fun t => left t (z.players.set {} m (if kept.isEmpty then {} else { pl with zones := kept })) z.live)) ∧
    (due 4 → Nexts (.triggerLiveOn die kp word) s (fun t => left t z.players (others ++ zs.map (fun v => (m, v, pri))))) ∧
    (due 5 → Nexts (.triggerLiveOff die kp word) s (fun t => left t z.players others)) ∧
    (due 6 → Nexts (.triggerStopAll die kp word) s (fun t => left t [] []))
end

