-- ==== Sys2Proof/Laws/Store.lean ====
section
/-! SUPPORT. Laws of sparse data: read after write, and what keeps the canonical form. -/

namespace Sys2Proof.Machine

variable {V : Type}

namespace Store

/-! ### Read after write -/

theorem find_put_same (m : Store V) (i : Nat) (v : V) : find (put m i v) i = some v := by
  induction m with
  | nil => simp [put, find]
  | cons p m ih =>
    obtain ⟨k, u⟩ := p
    simp only [put]
    split
    · simp [find]
    · split
      · simp [find]
      · simp [find, *]

theorem find_put_other (m : Store V) {i j : Nat} (v : V) (h : i ≠ j) : find (put m i v) j = find m j := by
  induction m with
  | nil => simp [put, find, h]
  | cons p m ih =>
    obtain ⟨k, u⟩ := p
    simp only [put]
    split
    · simp [find, h]
    · split
      · subst_vars; simp [find, h]
      · simp [find, ih]

theorem find_del_same (m : Store V) (i : Nat) : find (del m i) i = none := by
  induction m with
  | nil => simp [del, find]
  | cons p m ih =>
    obtain ⟨k, u⟩ := p
    simp only [del]
    split
    · exact ih
    · simp [find, *]

theorem find_del_other (m : Store V) {i j : Nat} (h : i ≠ j) : find (del m i) j = find m j := by
  induction m with
  | nil => simp [del, find]
  | cons p m ih =>
    obtain ⟨k, u⟩ := p
    simp only [del]
    split
    · subst_vars; simp [find, h, ih]
    · simp [find, ih]

/-- A read of what was just written. -/
@[simp] theorem get_set_same [DecidableEq V] (m : Store V) (d : V) (i : Nat) (v : V) : get (set m d i v) d i = v := by
  unfold get set
  split
  · subst_vars; simp [find_del_same]
  · simp [find_put_same]

/-- A write leaves every other key alone, whatever the default of the read. -/
theorem get_set_other [DecidableEq V] (m : Store V) (d e : V) {i j : Nat} (v : V) (h : i ≠ j) : get (set m d i v) e j = get m e j := by
  unfold get set
  split
  · simp [find_del_other m h]
  · simp [find_put_other m v h]

theorem get_set [DecidableEq V] (m : Store V) (d : V) (i j : Nat) (v : V) :
    get (set m d i v) d j = if i = j then v else get m d j := by
  split
  · subst_vars; simp
  · exact get_set_other m d d v ‹_›

@[simp] theorem get_nil (d : V) (i : Nat) : get ([] : Store V) d i = d := rfl

/-! ### The canonical form -/

theorem above_put {n i : Nat} (m : Store V) (v : V) (h : above n m = true) (hi : n < i) : above n (put m i v) = true := by
  induction m with
  | nil => simp [put, above, hi]
  | cons p m ih =>
    obtain ⟨k, u⟩ := p
    simp only [above, Bool.and_eq_true, decide_eq_true_eq] at h
    simp only [put]
    split
    · simp [above, hi, h]
    · split
      · simp [above, hi, h]
      · simp [above, h, ih h.2]

theorem above_del {n : Nat} (m : Store V) (i : Nat) (h : above n m = true) : above n (del m i) = true := by
  induction m with
  | nil => simp [del, above]
  | cons p m ih =>
    obtain ⟨k, u⟩ := p
    simp only [above, Bool.and_eq_true, decide_eq_true_eq] at h
    simp only [del]
    split
    · exact ih h.2
    · simp [above, h, ih h.2]

theorem above_mono {n k : Nat} (m : Store V) (h : above k m = true) (hn : n < k) : above n m = true := by
  induction m with
  | nil => simp [above]
  | cons p m ih =>
    obtain ⟨j, u⟩ := p
    simp only [above, Bool.and_eq_true, decide_eq_true_eq] at h ⊢
    exact ⟨by omega, ih h.2⟩

theorem sorted_put (m : Store V) (i : Nat) (v : V) (h : sorted m = true) : sorted (put m i v) = true := by
  induction m with
  | nil => simp [put, sorted, above]
  | cons p m ih =>
    obtain ⟨k, u⟩ := p
    simp only [sorted, Bool.and_eq_true] at h
    simp only [put]
    split
    · rename_i hlt
      simp [sorted, above, hlt, h, above_mono m h.1 hlt]
    · split
      · subst_vars; simp [sorted, h]
      · simp only [sorted, Bool.and_eq_true]
        exact ⟨above_put m v h.1 (by omega), ih h.2⟩

theorem sorted_del (m : Store V) (i : Nat) (h : sorted m = true) : sorted (del m i) = true := by
  induction m with
  | nil => simp [del, sorted]
  | cons p m ih =>
    obtain ⟨k, u⟩ := p
    simp only [sorted, Bool.and_eq_true] at h
    simp only [del]
    split
    · exact ih h.2
    · simp only [sorted, Bool.and_eq_true]
      exact ⟨above_del m i h.1, ih h.2⟩

theorem sparse_put [DecidableEq V] (d : Nat → V) (m : Store V) (i : Nat) (v : V) (h : sparse d m = true) (hv : v ≠ d i) :
    sparse d (put m i v) = true := by
  induction m with
  | nil => simp [put, sparse, hv]
  | cons p m ih =>
    obtain ⟨k, u⟩ := p
    simp only [sparse, Bool.and_eq_true, decide_eq_true_eq] at h
    simp only [put]
    split
    · simp [sparse, hv, h]
    · split
      · simp [sparse, hv, h]
      · simp [sparse, h, ih h.2]

theorem sparse_del [DecidableEq V] (d : Nat → V) (m : Store V) (i : Nat) (h : sparse d m = true) : sparse d (del m i) = true := by
  induction m with
  | nil => simp [del, sparse]
  | cons p m ih =>
    obtain ⟨k, u⟩ := p
    simp only [sparse, Bool.and_eq_true, decide_eq_true_eq] at h
    simp only [del]
    split
    · exact ih h.2
    · simp [sparse, h, ih h.2]

/-- A write keeps the canonical form. -/
theorem wf_set [DecidableEq V] (m : Store V) (d : V) (i : Nat) (v : V) (h : wf (fun _ => d) m = true) :
    wf (fun _ => d) (set m d i v) = true := by
  simp only [wf, Bool.and_eq_true] at h ⊢
  unfold set
  split
  · exact ⟨sorted_del m i h.1, sparse_del _ m i h.2⟩
  · exact ⟨sorted_put m i v h.1, sparse_put _ m i v h.2 ‹_›⟩

theorem above_filter {n : Nat} (p : Nat × V → Bool) (m : Store V) (h : above n m = true) : above n (m.filter p) = true := by
  induction m with
  | nil => simp [above]
  | cons e m ih =>
    obtain ⟨k, u⟩ := e
    simp only [above, Bool.and_eq_true, decide_eq_true_eq] at h
    simp only [List.filter_cons]
    split
    · simp [above, h, ih h.2]
    · exact ih h.2

/-- Leaving entries out keeps the canonical form. -/
theorem wf_filter [DecidableEq V] (d : Nat → V) (p : Nat × V → Bool) (m : Store V) (h : wf d m = true) : wf d (m.filter p) = true := by
  induction m with
  | nil => exact h
  | cons e m ih =>
    obtain ⟨k, u⟩ := e
    simp only [wf, sorted, sparse, Bool.and_eq_true, decide_eq_true_eq] at h ih
    simp only [List.filter_cons]
    obtain ⟨⟨ha, hs⟩, hu, hp⟩ := h
    have := ih ⟨hs, hp⟩
    split
    · simp only [wf, sorted, sparse, Bool.and_eq_true, decide_eq_true_eq]
      exact ⟨⟨above_filter p m ha, this.1⟩, hu, this.2⟩
    · simpa [wf] using this

theorem above_iff {n : Nat} (m : Store V) : above n m = true ↔ ∀ e ∈ m, n < e.1 := by
  induction m with
  | nil => simp [above]
  | cons e m ih => obtain ⟨k, u⟩ := e; simp [above, ih]

/-- Two canonical stores in rising ranges join into one. -/
theorem wf_append [DecidableEq V] (d : Nat → V) (a b : Store V) (ha : wf d a = true) (hb : wf d b = true)
    (h : ∀ x ∈ a, ∀ y ∈ b, x.1 < y.1) : wf d (a ++ b) = true := by
  induction a with
  | nil => exact hb
  | cons e m ih =>
    obtain ⟨k, u⟩ := e
    simp only [wf, sorted, sparse, Bool.and_eq_true, decide_eq_true_eq] at ha
    obtain ⟨⟨hab, hs⟩, hu, hp⟩ := ha
    have h2 := ih (by simp [wf, hs, hp]) (fun x hx y hy => h x (by simp [hx]) y hy)
    simp only [wf, Bool.and_eq_true] at h2
    simp only [List.cons_append, wf, sorted, sparse, Bool.and_eq_true, decide_eq_true_eq, above_iff, List.mem_append]
    refine ⟨⟨fun x hx => ?_, h2.1⟩, hu, h2.2⟩
    rcases hx with hx | hx
    · exact (above_iff m).1 hab x hx
    · exact h (k, u) (by simp) x hx

/-- Moving every key by the same distance keeps the canonical form, where no key goes below 0. -/
theorem wf_shift [DecidableEq V] (d : V) (lo dst : Nat) (m : Store V) (h : wf (fun _ => d) m = true) (hlo : ∀ e ∈ m, lo ≤ e.1) :
    wf (fun _ => d) (m.map (fun e => (e.1 - lo + dst, e.2))) = true := by
  induction m with
  | nil => simp [wf, sorted, sparse]
  | cons e m ih =>
    obtain ⟨k, u⟩ := e
    simp only [wf, sorted, sparse, Bool.and_eq_true, decide_eq_true_eq] at h
    obtain ⟨⟨hab, hs⟩, hu, hp⟩ := h
    have h2 := ih (by simp [wf, hs, hp]) (fun x hx => hlo x (by simp [hx]))
    simp only [wf, Bool.and_eq_true] at h2
    simp only [List.map_cons, wf, sorted, sparse, Bool.and_eq_true, decide_eq_true_eq, above_iff]
    refine ⟨⟨fun x hx => ?_, h2.1⟩, hu, h2.2⟩
    obtain ⟨y, hy, rfl⟩ := List.mem_map.1 hx
    have h3 := (above_iff m).1 hab y hy
    have h4 := hlo (k, u) (by simp)
    simp only at h4 ⊢
    omega

end Store

end Sys2Proof.Machine
end

