-- ==== Sys2Proof/Laws/Issue.lean ====
section
/-! SUPPORT. A bundle of one syllable: what its issue, its close and its results do, said once. -/

namespace Sys2Proof.Machine


@[simp] theorem eng_setEng (s : State) (d e : Nat) (x : Eng) : (s.setEng d e x).eng d e = x := by
  simp [State.eng, State.setEng]

@[simp] theorem eng_incF (s : State) (x : Fld) (d : Nat) (l : List Nat) (i j : Nat) : (s.incF x d l).eng i j = s.eng i j := rfl

theorem settle_quiet (s : State) (d e : Nat) (h1 : (s.eng d e).div = none) (h2 : (s.eng d e).popU = false) (h3 : (s.eng d e).popS = false) :
    s.settle d e = s.setEng d e (s.eng d e) := by
  simp [State.settle, h1, State.updEng, h2, h3]

theorem pick_solo (s : State) (x : Eng) (d e : Nat) (y : Syl)
    (hx : s.eng d e = x) (hb : x.br = none) (hl : (match x.loops with | [] => true | l :: _ => decide (l.stop ≠ x.pc)) = true)
    (ht : y.traps = [])
    (hu : (!x.user || (match x.lookI (68719472640 + x.pc.toNat) with
        | some k => k.acts.isEmpty && k.ent.ent.x && k.ent.ent.u
        | none => false)) = true) : s.pickTrap d e [y] = (none, []) := by
  have h1 : notAlone [y] = none := by
    simp only [notAlone]; rw [if_pos]; exact (List.length_filter_le _ _)
  have h2 : ∀ f, illSeq x [y] f = none := by
    intro f
    simp only [illSeq, hb]
    split at hl <;> simp_all
  simp only [State.pickTrap, hx, h1, h2, List.flatMap_cons, List.flatMap_nil, ht, List.append_nil, ofCause, List.find?_nil]
  simp only [Option.map_none]
  by_cases hu' : x.user = true
  · simp only [hu', Bool.not_true, Bool.false_or] at hu
    cases hk : x.lookI (68719472640 + x.pc.toNat) with
    | none => simp [hk] at hu
    | some k => 
      simp only [hk, Bool.and_eq_true, List.isEmpty_iff] at hu
      simp [hu', hu]
  · simp [hu']

/-- What `Eng.still` says, part by part. -/
theorem still_parts (x : Eng) (h : x.still = true) :
    x.pwf = [] ∧ x.hand = [] ∧ x.carry = [] ∧ x.pmws = [] ∧ x.pmOld = [] ∧ x.zdone = [] ∧ x.fullRun = [] := by
  simpa [Eng.still, and_assoc] using h

/-- With no vector access waiting, a bundle meets its own accesses alone. -/
theorem meets_still (x : Eng) (fx : List Fx) (h : x.carry = []) : x.meets fx = fx.flatMap fxAccess := by
  simp [Eng.meets, Eng.carryNow, h]

theorem lview_still (x : Eng) (fx : List Fx) (h : x.carry = []) : x.lview fx = x := by
  cases x; simp_all [Eng.lview, Eng.carryNow]

theorem lanePatch_still (x : Eng) (n : Nat) (fx : List Fx) (m : Store Stored) (h : x.carry = []) : x.lanePatch n fx m = [] := by
  simp [Eng.lanePatch, Eng.carryNow, h]

theorem stores_still (x : Eng) (fx : List Fx) (h : x.carry = []) :
    x.stores fx = fx.foldl (Fx.storeAt 3) (fx.foldl (Fx.storeAt 2) (fx.foldl (Fx.storeAt 1) x.lmem)) := by
  simp [Eng.stores, Eng.keepBeats, h]

theorem wordConflicts_still (x : Eng) (n : Nat) (acc : List (Nat × Nat × Bool)) (h : x.xfers = []) : x.wordConflicts n acc = conflicts acc := by
  have : x.fetchMeets acc = [] := by
    simp only [Eng.fetchMeets, Eng.stowing, Eng.fetching, h, List.any_nil, ite_self, List.filter_eq_nil_iff]
    rintro ⟨p, a, w⟩ -; simp
  simp [Eng.wordConflicts, this]

/-- Of a bundle that leaves no vector access waiting, nothing ages. -/
theorem aged_still (x : Eng) (c : List Beat) (h1 : x.pmws = []) (h2 : x.pmOld = []) (h3 : x.zdone = []) (h4 : x.fence = false) :
    x.aged [] [] c = { x with carry := c } := by
  cases x; simp_all [Eng.aged]

/-- With no transfer in progress no store leaves a word of one undefined. -/
theorem staleStows_quiet (s : State) (d e : Nat) (l : List Nat) (h : (s.eng d e).xfers = []) : s.staleStows d e l = s := by
  simp [State.staleStows, h]

theorem runs_quiet (x : Eng) (q : List (Nat × Nat)) (h : x.xfers = []) : x.runs q = [] := by simp [Eng.runs, h]

/-- Sampling reads only the modes, the lines and the repetition of the engine whose bundle issues (R136, R144). -/
theorem sampled_gather (y x : Eng) (l : List Syl) : y.sampled (x.gather l) = y.sampled x := rfl

theorem close_solo (s : State) (d e : Nat) (y : Syl) (fetched : List W18) (hb : (s.eng d e).bundle = [y])
    (hc : okBundle ((s.eng d e).pmAt 1 (s.eng d e).half (s.eng d e).pc.toNat) = true)
    (he : y.err = none) (hp : (s.incF F.ENG_PMBANK.COUNT d [e]).pickTrap d e [y] = (none, [])) (hk : y.kind ≠ .div)
    (hw : firstBadWord ((s.eng d e).lview y.fx) ((s.eng d e).meets y.fx) = none)
    (hf : (s.incF F.ENG_PMBANK.COUNT d [e]).walkBad d e [y] = none) :
    s.closeBundle d e fetched = (s.incF F.ENG_PMBANK.COUNT d [e]).applyFx d e [y] := by
  have hx : (s.incF F.ENG_PMBANK.COUNT d [e]).eng d e = s.eng d e := rfl
  unfold State.closeBundle
  simp only [hc, Bool.true_eq_false, if_false]
  simp [hb, he, hp, hf, hk, State.runBundle, residueBad, hx, hw]

theorem issue_solo (s : State) (a : At) (info : OpInfo) (f : Ctx → OpRes) (x : Eng) (hx : s.eng a.die.val a.eng.val = x)
    (h : s.solo a = true) (hs : a.slot.val ∈ info.slots) (he : a.ext = none ∨ info.ext = true)
    (hp : info.priv = false ∨ x.user = false) (hk : info.kind ≠ .div)
    (fx : List Fx) (hfx : f ⟨s.setEng a.die.val a.eng.val x, a.die.val, a.eng.val, x, a⟩ = ⟨fx, []⟩)
    (hw : firstBadWord (x.gather [⟨a.slot.val, info.kind, fx, [], none⟩]) (fx.flatMap fxAccess) = none)
    (hf : ∀ t : State, t.walkBad a.die.val a.eng.val [⟨a.slot.val, info.kind, fx, [], none⟩] = none) :
    issueOp a info f s = .next (((s.setEng a.die.val a.eng.val x).setEng a.die.val a.eng.val
      (x.gather [⟨a.slot.val, info.kind, fx, [], none⟩])).incF F.ENG_PMBANK.COUNT a.die.val [a.eng.val] |>.applyFx
      a.die.val a.eng.val [⟨a.slot.val, info.kind, fx, [], none⟩]) := by
  subst hx
  simp only [State.solo, Bool.and_eq_true, List.isEmpty_iff, Option.isNone_iff_eq_none, Bool.not_eq_true', ] at h
  obtain ⟨⟨⟨⟨⟨⟨⟨⟨⟨⟨⟨⟨⟨⟨h1, h2⟩, h3⟩, h4⟩, h5⟩, h6⟩, h7⟩, h8⟩, h8'⟩, h9⟩, h10⟩, h11⟩, h12⟩, h13⟩, h14⟩ := h
  have hbad : (!info.slots.contains a.slot.val || (a.ext.isSome && !info.ext)) = false := by
    rcases he with he | he <;> simpa [he] using hs
  have hpr : (info.priv && (s.eng a.die.val a.eng.val).user) = false := by
    rcases hp with hp | hp <;> simp [hp]
  have hif : (if (info.priv && (s.eng a.die.val a.eng.val).user) = true then [(⟨s.setEng a.die.val a.eng.val (s.eng a.die.val a.eng.val), a.die.val, a.eng.val, s.eng a.die.val a.eng.val, a⟩ : Ctx).trap .priv] else []) = [] := by
    rw [hpr]; rfl
  have hcy : (s.eng a.die.val a.eng.val).carry = [] := (still_parts _ h8').2.2.1
  unfold issueOp issueSyls
  simp only [h1, if_true, settle_quiet _ _ _ h3 h4 h5, eng_setEng, hbad, hfx, h11, hif, h12, h2, List.any_nil, List.isEmpty_nil, insertSyl, List.append_nil, if_false, Bool.false_eq_true, Bool.true_eq_false]
  rw [close_solo (y := ⟨a.slot.val, info.kind, fx, [], none⟩)]
  · rw [eng_setEng]; rfl
  · rw [eng_setEng]; exact h13
  · rfl
  · exact pick_solo _ _ _ _ _ ((eng_incF _ _ _ _ _ _).trans (eng_setEng _ _ _ _)) h6 h10 rfl h14
  · exact hk
  · rw [eng_setEng, lview_still ((s.eng a.die.val a.eng.val).gather [⟨a.slot.val, info.kind, fx, [], none⟩]) _ hcy,
      meets_still ((s.eng a.die.val a.eng.val).gather [⟨a.slot.val, info.kind, fx, [], none⟩]) _ hcy]; exact hw
  · exact hf _


def Fx.res : Fx → Option PendW
  | .wr l w => some ⟨l, w, false⟩
  | .chain l w => some ⟨l, w, true⟩
  | _ => none

/-- What effects that only write registers do not do. -/
theorem fx_regs (fx : List Fx) (h : ∀ f ∈ fx, f.res.isSome = true) :
    fx.flatMap fxAccess = [] ∧ fxStored fx = [] ∧ fx.flatMap Fx.vAccess = [] ∧ (∀ p m, fx.foldl (Fx.storeAt p) m = m) ∧
    (∀ x fr acc, fx.filterMap (Fx.actOf x fr acc) = []) ∧
    (∀ x fr acc, fx.flatMap (Fx.results x fr acc) = fx.filterMap Fx.res) ∧ (∀ x, bxsResults x fx = []) ∧
    (∀ hi pc br, fx.map (Fx.farUnder hi pc br) = fx) ∧
    (∀ (t : State) d e i k, t.walkBad d e [⟨i, k, fx, [], none⟩] = none) := by
  have hk : ∀ f ∈ fx, (∃ l w, f = .wr l w) ∨ (∃ l w, f = .chain l w) := by
    intro f hf
    have := h f hf
    cases f <;> simp_all [Fx.res]
  clear h
  have hbx : Fx.bxr ∉ fx := by
    intro hf; rcases hk _ hf with ⟨l, w, h⟩ | ⟨l, w, h⟩ <;> cases h
  have hfo : fx.filterMap Fx.foldOf = [] := by
    simp only [List.filterMap_eq_nil_iff]; intro f hf; rcases hk f hf with ⟨l, w, rfl⟩ | ⟨l, w, rfl⟩ <;> rfl
  refine ⟨?_, ?_, ?_, ?_, ?_, ?_, ?_, ?_, ?_⟩
  · simp only [List.flatMap_eq_nil_iff]; intro f hf; rcases hk f hf with ⟨l, w, rfl⟩ | ⟨l, w, rfl⟩ <;> rfl
  · simp only [fxStored, List.flatMap_eq_nil_iff]; intro f hf; rcases hk f hf with ⟨l, w, rfl⟩ | ⟨l, w, rfl⟩ <;> rfl
  · simp only [List.flatMap_eq_nil_iff]; intro f hf; rcases hk f hf with ⟨l, w, rfl⟩ | ⟨l, w, rfl⟩ <;> rfl
  · intro p m
    clear hbx hfo
    induction fx generalizing m with
    | nil => rfl
    | cons f l ih =>
      rw [List.foldl_cons]
      rcases hk f (by simp) with ⟨l, w, rfl⟩ | ⟨l, w, rfl⟩ <;> exact ih (fun g hg => hk g (by simp [hg])) _
  · intro x fr acc; simp only [List.filterMap_eq_nil_iff]; intro f hf; rcases hk f hf with ⟨l, w, rfl⟩ | ⟨l, w, rfl⟩ <;> rfl
  · intro x fr acc
    clear hbx hfo
    induction fx with
    | nil => rfl
    | cons f l ih =>
      rcases hk f (by simp) with ⟨l, w, rfl⟩ | ⟨l, w, rfl⟩ <;> simp [Fx.res, Fx.results, ih (fun g hg => hk g (by simp [hg]))]
  · intro x; simp [bxsResults, hbx, hfo]
  · intro hi pc br
    conv => rhs; rw [← List.map_id fx]
    apply List.map_congr_left
    intro f hf; rcases hk f hf with ⟨l, w, rfl⟩ | ⟨l, w, rfl⟩ <;> rfl
  · intro t d e i k
    simp only [State.walkBad, List.flatMap_cons, List.flatMap_nil, List.append_nil, List.findSome?_eq_none_iff]
    intro f hf; rcases hk f hf with ⟨l, w, rfl⟩ | ⟨l, w, rfl⟩ <;> rfl

theorem eng_setEng_other (s : State) (d e k : Nat) (x : Eng) (h : k ≠ 64 * d + e) : (s.setEng d e x).engs.get {} k = s.engs.get {} k := by
  simp only [State.setEng]; rw [Store.get_set_other]; omega

theorem mark_quiet (x : Eng) (l : List Nat) (h : x.xfers = []) : x.mark l = x := by
  cases x; simp_all [Eng.mark]

@[simp] theorem incF_engs (s : State) (x : Fld) (d : Nat) (l : List Nat) : (s.incF x d l).engs = s.engs := rfl
@[simp] theorem useFree_engs (s : State) (n : Nat) : (s.useFree n).engs = s.engs := rfl
@[simp] theorem eng_useFree (s : State) (n i j : Nat) : (s.useFree n).eng i j = s.eng i j := rfl
theorem setEng_incF (s : State) (x : Fld) (d : Nat) (l : List Nat) (i j : Nat) (y : Eng) : (s.incF x d l).setEng i j y = (s.setEng i j y).incF x d l := rfl

theorem setEng_regs (s : State) (d e : Nat) (x : Eng) : (s.setEng d e x).regs = s.regs := rfl
theorem incF_rest (s : State) (x : Fld) (d : Nat) (l : List Nat) : ∃ r, s.incF x d l = { s with regs := r } := ⟨_, rfl⟩

/-- Nothing is lost at the ports of a bundle without local accesses. -/
theorem portLosses_quiet (s : State) (d e : Nat) (x : Eng) (fx : List Fx) (h1 : x.carry = []) (h2 : x.xfers = [])
    (h3 : fx.flatMap fxAccess = []) (h4 : fx.flatMap Fx.vAccess = []) : s.portLosses d e x fx = s := by
  have hq : x.requests fx = [] := by simp [Eng.requests, h1, h3, h4, beatOf, beats]
  have hl : lostPorts 32 [] = [] := by decide
  simp [State.portLosses, hq, h1, h2, hl]

/-- A lone bundle that only writes registers, in an engine with nothing of earlier bundles to come: its results are on their way, they come one
bundle nearer, and the PC moves on. -/
theorem applyFx_regs (s : State) (d e : Nat) (y : Syl) (x : Eng) (hx : s.eng d e = x) (hs : x.still = true) (hxf : x.xfers = []) (hp : x.pw = [])
    (hr : ∀ f ∈ y.fx, f.res.isSome = true) :
    s.applyFx d e [y] = ((s.setEng d e ((x.retire x.lmem (y.fx.filterMap Fx.res)).sampled x)).updEng d e
      (fun z => (((z.mark []).tickPw.aged [] [] []).ran []).advance x.loops [])).useFree 4096 := by
  obtain ⟨h1, h2, h3, h4, h5, h6, h7, h8, -⟩ := fx_regs y.fx hr
  obtain ⟨-, -, hc, hpm, -, hz⟩ := still_parts x hs
  have hfx : ∀ c, bundleFx x c [y] = y.fx := by intro c; simp [bundleFx, h8]
  have hpw : x.patched [] = x := by cases x; simp_all [Eng.patched]
  have hsl : ∀ (c : List Syl) (p : Syl → Bool), bundleFx x c ([y].filter p) = if p y then y.fx else [] := by
    intro c p; by_cases h : p y = true <;> simp [h, hfx, bundleFx]
  have hall : bundleFx x ([y].filter (fun y => decide (7 ≤ y.slot))) ([y].filter (fun y => decide (y.slot < 7))) ++
      bundleFx x [] ([y].filter (fun y => decide (7 ≤ y.slot))) = y.fx := by
    rw [hsl, hsl]; by_cases h : y.slot < 7 <;> simp only [h, show (7 ≤ y.slot) = ¬(y.slot < 7) from by simp] <;> simp
  have hres : ∀ v fr acc, fxResults v fr acc (bundleFx x ([y].filter (fun y => decide (7 ≤ y.slot))) ([y].filter (fun y => decide (y.slot < 7))))
      (bundleFx x [] ([y].filter (fun y => decide (7 ≤ y.slot)))) = y.fx.filterMap Fx.res := by
    intro v fr acc
    rw [fxResults, hall, h7, hsl, hsl]; by_cases h : y.slot < 7 <;> simp only [h, show (7 ≤ y.slot) = ¬(y.slot < 7) from by simp] <;> simp [h6]
  have hca : carryOf x y.fx = [] := by simp [carryOf, h3, beatOf, beats]
  simp only [State.applyFx, hx, hall, hres, lview_still _ _ hc, meets_still _ _ hc, stores_still _ _ hc, lanePatch_still _ _ _ _ hc,
    wordConflicts_still _ _ _ hxf, h1, h2, h4, h5, hca, hpw, portLosses_quiet _ _ _ x y.fx hc hxf h1 h3, hpm, hz, runs_quiet _ _ hxf]
  simp only [conflicts, List.foldl_nil]
  rw [staleStows_quiet]
  · simp
  · simp [Eng.sampled, Eng.retire, hxf]

theorem retired_mk (s : State) (a : At) (x y z : Eng) (g : Eng → Eng) (n : Nat) :
    Retired s ((((((s.setEng a.die.val a.eng.val x).setEng a.die.val a.eng.val y).incF
      F.ENG_PMBANK.COUNT a.die.val [a.eng.val]).setEng a.die.val a.eng.val z).updEng a.die.val a.eng.val g).useFree n) a (g z) (s.counted a) := by
  simp only [State.updEng, eng_setEng, ← setEng_incF]
  refine ⟨?_, ?_, ?_, ?_⟩
  · simp only [eng_useFree, eng_setEng]
  · intro k hk
    simp only [useFree_engs]
    rw [eng_setEng_other _ _ _ _ _ hk, eng_setEng_other _ _ _ _ _ hk, eng_setEng_other _ _ _ _ _ hk, eng_setEng_other _ _ _ _ _ hk, incF_engs]
  · rfl
  · obtain ⟨r, hr⟩ := incF_rest s F.ENG_PMBANK.COUNT a.die.val [a.eng.val]
    rw [hr]; rfl

/-- Register writes leave PMWs, vector accesses that wait, and done bits due as they are. -/
theorem put_still (x : Eng) (w : Wr) :
    (x.put w).pmws = x.pmws ∧ (x.put w).pmOld = x.pmOld ∧ (x.put w).zdone = x.zdone ∧ (x.put w).carry = x.carry ∧ (x.put w).fence = x.fence := by
  cases w with
  | fl sh m v => cases sh <;> exact ⟨rfl, rfl, rfl, rfl, rfl⟩
  | flSet sh b => cases sh <;> exact ⟨rfl, rfl, rfl, rfl, rfl⟩
  | _ => exact ⟨rfl, rfl, rfl, rfl, rfl⟩

theorem puts_still (l : List Wr) (x : Eng) : (l.foldl Eng.put x).pmws = x.pmws ∧ (l.foldl Eng.put x).pmOld = x.pmOld ∧
    (l.foldl Eng.put x).zdone = x.zdone ∧ (l.foldl Eng.put x).carry = x.carry ∧ (l.foldl Eng.put x).fence = x.fence := by
  induction l generalizing x with
  | nil => exact ⟨rfl, rfl, rfl, rfl, rfl⟩
  | cons w l ih =>
    obtain ⟨a, b, c, d, f⟩ := ih (x.put w)
    obtain ⟨a', b', c', d', f'⟩ := put_still x w
    exact ⟨a.trans a', b.trans b', c.trans c', d.trans d', f.trans f'⟩

/-- Register writes and the sampled lines do not meet. -/
theorem put_sampled (y x : Eng) (w : Wr) : (y.sampled x).put w = (y.put w).sampled x := by
  cases w with
  | fl sh m v => cases sh <;> rfl
  | flSet sh b => cases sh <;> rfl
  | _ => rfl

theorem puts_sampled (l : List Wr) (y x : Eng) : l.foldl Eng.put (y.sampled x) = (l.foldl Eng.put y).sampled x := by
  induction l generalizing y with
  | nil => rfl
  | cons w l ih => simp only [List.foldl_cons, put_sampled, ih]

theorem put_fullRun (x : Eng) (w : Wr) : (x.put w).fullRun = x.fullRun := by
  cases w with
  | fl sh m v => cases sh <;> rfl
  | flSet sh b => cases sh <;> rfl
  | _ => rfl

theorem puts_fullRun (l : List Wr) (x : Eng) : (l.foldl Eng.put x).fullRun = x.fullRun := by
  induction l generalizing x with
  | nil => rfl
  | cons w l ih => exact (ih (x.put w)).trans (put_fullRun x w)

theorem tickPw_fullRun (x : Eng) : x.tickPw.fullRun = x.fullRun := by
  simp only [Eng.tickPw, Eng.putAll]; rw [puts_fullRun, puts_fullRun]

theorem ran_quiet (x : Eng) (h : x.fullRun = []) : x.ran [] = x := by cases x; simp_all [Eng.ran]

theorem tickPw_sampled (y x : Eng) : (y.sampled x).tickPw = y.tickPw.sampled x := by
  simp only [Eng.tickPw, Eng.putAll, ← puts_sampled]
  rfl

theorem tickPw_aged (x : Eng) (h1 : x.pmws = []) (h2 : x.pmOld = []) (h3 : x.zdone = []) (h4 : x.carry = []) (h5 : x.fence = false) :
    x.tickPw.aged [] [] [] = x.tickPw := by
  have h : ∀ (y : Eng) l, (y.putAll l).pmws = y.pmws ∧ (y.putAll l).pmOld = y.pmOld ∧ (y.putAll l).zdone = y.zdone ∧ (y.putAll l).carry = y.carry ∧
      (y.putAll l).fence = y.fence := by
    intro y l
    obtain ⟨a, b, c, d, f⟩ := puts_still (l.filter Wr.sticky) ((l.filter (fun w => !w.sticky)).foldl Eng.put y)
    obtain ⟨a', b', c', d', f'⟩ := puts_still (l.filter (fun w => !w.sticky)) y
    exact ⟨a.trans a', b.trans b', c.trans c', d.trans d', f.trans f'⟩
  obtain ⟨a, b, c, d, f⟩ := h { x with pw := (x.pw.map (fun p => { p with left := p.left - 1 })).filter (fun p => decide (0 < p.left)),
                                        hand := if x.pwf.isEmpty then [] else x.hand ++ (((x.pw.map (fun p => { p with left := p.left - 1 })).filter
                                       (fun (p : PendW) => decide (p.left = 0))).map PendW.wr).flatMap Wr.keys }
    (((x.pw.map (fun p => { p with left := p.left - 1 })).filter (fun (p : PendW) => decide (p.left = 0))).map PendW.wr)
  rw [aged_still x.tickPw [] (a.trans h1) (b.trans h2) (c.trans h3) (f.trans h5)]
  have hd : x.tickPw.carry = [] := d.trans h4
  generalize x.tickPw = y at hd
  cases y; simp_all

/-- A bundle of one operation that only writes registers. -/
theorem op_regs (s : State) (a : At) (info : OpInfo) (f : Ctx → OpRes) (x : Eng) (hx : s.eng a.die.val a.eng.val = x)
    (h : s.solo a = true) (hs : a.slot.val ∈ info.slots) (he : a.ext = none ∨ info.ext = true)
    (hp : info.priv = false ∨ x.user = false) (hk : info.kind ≠ .div)
    (fx : List Fx) (hfx : f ⟨s.setEng a.die.val a.eng.val x, a.die.val, a.eng.val, x, a⟩ = ⟨fx, []⟩)
    (hr : ∀ f ∈ fx, f.res.isSome = true) :
    ∃ t, issueOp a info f s = .next t ∧ Retired s t a (({ x with pw := fx.filterMap Fx.res }.tickPw.sampled x).advance x.loops []) (s.counted a) := by
  obtain ⟨h1, -, -, -, -, -, -, -, h9⟩ := fx_regs fx hr
  refine ⟨_, issue_solo s a info f x hx h hs he hp hk fx hfx (by rw [h1]; rfl) (fun t => h9 t _ _ _ _), ?_⟩
  subst hx
  simp only [State.solo, Bool.and_eq_true, List.isEmpty_iff, Option.isNone_iff_eq_none, Bool.not_eq_true', ] at h
  obtain ⟨⟨⟨⟨⟨⟨⟨⟨⟨⟨⟨⟨⟨⟨hi, hb⟩, hdv⟩, -⟩, -⟩, -⟩, -⟩, hpw⟩, hst⟩, hxf⟩, -⟩, -⟩, -⟩, -⟩, -⟩ := h
  rw [applyFx_regs _ _ _ _ ((s.eng a.die.val a.eng.val).gather [⟨a.slot.val, info.kind, fx, [], none⟩]) ((eng_incF _ _ _ _ _ _).trans (eng_setEng _ _ _ _))
    hst hxf hpw hr]
  have e : ((s.eng a.die.val a.eng.val).gather [⟨a.slot.val, info.kind, fx, [], none⟩]).retire
      ((s.eng a.die.val a.eng.val).gather [⟨a.slot.val, info.kind, fx, [], none⟩]).lmem (fx.filterMap Fx.res) =
      { s.eng a.die.val a.eng.val with pw := fx.filterMap Fx.res } := by
    simp only [Eng.gather, Eng.retire, hpw, List.nil_append]
    generalize s.eng a.die.val a.eng.val = x at *
    cases x; simp_all
  rw [e]
  rw [sampled_gather]
  have := retired_mk s a (s.eng a.die.val a.eng.val) (Eng.gather (s.eng a.die.val a.eng.val) [⟨a.slot.val, info.kind, fx, [], none⟩])
    (Eng.sampled { s.eng a.die.val a.eng.val with pw := fx.filterMap Fx.res } (s.eng a.die.val a.eng.val))
    (fun y => (((y.mark []).tickPw.aged [] [] []).ran []).advance (s.eng a.die.val a.eng.val).loops []) 4096
  rw [mark_quiet _ _ (by exact hxf)] at this
  obtain ⟨-, -, hc, hpm, hpo, hz, hfr⟩ := still_parts _ hst
  have hfe : (s.eng a.die.val a.eng.val).fence = false := by
    have := hi; simp only [State.issues, Bool.and_eq_true, Bool.not_eq_true'] at this; exact this.2
  rw [tickPw_aged _ (by exact hpm) (by exact hpo) (by exact hz) (by exact hc) (by exact hfe), tickPw_sampled,
    ran_quiet _ (by exact (tickPw_fullRun _).trans hfr)] at this
  exact this

theorem put_ctl (x : Eng) (w : Wr) : (x.put w).pc = x.pc ∧ (x.put w).br = x.br ∧ (x.put w).rpt = x.rpt ∧ (x.put w).pw = x.pw := by
  cases w with
  | fl sh m v => cases sh <;> exact ⟨rfl, rfl, rfl, rfl⟩
  | flSet sh b => cases sh <;> exact ⟨rfl, rfl, rfl, rfl⟩
  | _ => exact ⟨rfl, rfl, rfl, rfl⟩

theorem puts_ctl (l : List Wr) (x : Eng) : (l.foldl Eng.put x).pc = x.pc ∧ (l.foldl Eng.put x).br = x.br ∧
    (l.foldl Eng.put x).rpt = x.rpt ∧ (l.foldl Eng.put x).pw = x.pw := by
  induction l generalizing x with
  | nil => exact ⟨rfl, rfl, rfl, rfl⟩
  | cons w l ih => 
    obtain ⟨a, b, c, d⟩ := ih (x.put w)
    obtain ⟨a', b', c', d'⟩ := put_ctl x w
    exact ⟨a.trans a', b.trans b', c.trans c', d.trans d'⟩

theorem advance_solo (x : Eng) (old : List LoopEnt) (hb : x.br = none) (hr : x.rpt = none)
    (hl : (match old with | [] => true | l :: _ => decide (l.stop ≠ x.pc)) = true) :
    x.advance old [] = { x with pc := x.pc + 1 } := by
  have h0 : x.advance old [] = x.onward old := rfl
  rw [h0]
  unfold Eng.onward
  rw [hb, hr]
  rcases old with _ | ⟨l, ls⟩
  · rfl
  · rcases x.loops with _ | ⟨z, zs⟩
    · rfl
    · exact if_neg (of_decide_eq_true hl)

/-- The next PC and the sampled lines do not meet. -/
theorem advance_quiet_sampled (y x : Eng) (old : List LoopEnt) (hb : y.br = none) (hr : y.rpt = none)
    (hl : (match old with | [] => true | l :: _ => decide (l.stop ≠ y.pc)) = true) :
    (y.sampled x).advance old [] = (y.advance old []).sampled x := by
  rw [advance_solo y old hb hr hl, advance_solo (y.sampled x) old hb hr hl]; rfl

theorem put_pw (x : Eng) (w : Wr) (p : List PendW) : ({ x with pw := p } : Eng).put w = { x.put w with pw := p } := by
  cases w with
  | fl sh m v => cases sh <;> rfl
  | flSet sh b => cases sh <;> rfl
  | _ => rfl

theorem puts_pw (l : List Wr) (x : Eng) (p : List PendW) : l.foldl Eng.put ({ x with pw := p } : Eng) = { l.foldl Eng.put x with pw := p } := by
  induction l generalizing x with
  | nil => rfl
  | cons w l ih => simp only [List.foldl_cons, put_pw, ih]

/-- What the results of a lone bundle do: those due land, in order, the sticky ones last. -/
theorem tickPw_solo (x : Eng) (r : List PendW) (hf : x.pwf = []) (hh : x.hand = []) :
    ({ x with pw := r } : Eng).tickPw = 
    { ((((r.filter (fun p => decide (p.left ≤ 1))).map PendW.wr).filter (fun w => !w.sticky)) ++
       (((r.filter (fun p => decide (p.left ≤ 1))).map PendW.wr).filter Wr.sticky)).foldl Eng.put x with
      pw := (r.filter (fun p => decide (1 < p.left))).map (fun p => { p with left := p.left - 1 }) } := by
  have h1 : ∀ r : List PendW, (r.map (fun p => { p with left := p.left - 1 })).filter (fun p => decide (0 < p.left)) =
      (r.filter (fun p => decide (1 < p.left))).map (fun p => { p with left := p.left - 1 }) := by
    intro r; rw [List.filter_map]; congr 1; apply List.filter_congr; intro p _; simp [Function.comp] <;> omega
  have h2 : ((r.map (fun p => { p with left := p.left - 1 })).filter (fun (p : PendW) => decide (p.left = 0))).map PendW.wr =
      (r.filter (fun p => decide (p.left ≤ 1))).map PendW.wr := by
    rw [List.filter_map, List.map_map]
    have : ((fun p => decide (p.left = 0)) ∘ fun (p : PendW) => ({ p with left := p.left - 1 } : PendW)) = (fun p => decide (p.left ≤ 1)) := by
      funext p; simp [Function.comp]; omega
    rw [this]; rfl
  simp only [Eng.tickPw, h1, h2, Eng.putAll, List.foldl_append]
  rw [← puts_pw, ← puts_pw]
  have : ({ x with pw := r } : Eng).pwf.isEmpty = true := by simp [hf]
  simp only [this, if_true]
  rw [← hh]

/-- A lone operation that writes registers: what is due lands, what is not stays on its way, and the PC moves on. -/
theorem issue_regs (s : State) (a : At) (info : OpInfo) (f : Ctx → OpRes) (x : Eng) (hx : s.eng a.die.val a.eng.val = x)
    (h : s.solo a = true) (hs : a.slot.val ∈ info.slots) (he : a.ext = none ∨ info.ext = true)
    (hp : info.priv = false ∨ x.user = false) (hk : info.kind ≠ .div)
    (fx : List Fx) (hfx : f ⟨s.setEng a.die.val a.eng.val x, a.die.val, a.eng.val, x, a⟩ = ⟨fx, []⟩)
    (hr : fx.all (fun f => f.res.isSome) = true) (now : List Wr) (later : List PendW)
    (hn : ((((fx.filterMap Fx.res).filter (fun p => decide (p.left ≤ 1))).map PendW.wr).filter (fun w => !w.sticky)) ++
       ((((fx.filterMap Fx.res).filter (fun p => decide (p.left ≤ 1))).map PendW.wr).filter Wr.sticky) = now)
    (hl : ((fx.filterMap Fx.res).filter (fun p => decide (1 < p.left))).map (fun p => { p with left := p.left - 1 }) = later) :
    ∃ t, issueOp a info f s = .next t ∧ Retired s t a (((s.eng a.die.val a.eng.val).after now later).sampled (s.eng a.die.val a.eng.val)) (s.counted a) := by
  obtain ⟨t, h1, h2⟩ := op_regs s a info f x hx h hs he hp hk fx hfx (by simpa using hr)
  refine ⟨t, h1, ?_⟩
  subst hx
  simp only [State.solo, Bool.and_eq_true, List.isEmpty_iff, Option.isNone_iff_eq_none, Bool.not_eq_true', ] at h
  obtain ⟨⟨⟨⟨⟨⟨⟨⟨⟨⟨⟨⟨⟨⟨-, -⟩, -⟩, -⟩, -⟩, hb⟩, hr⟩, hpw⟩, hst⟩, hxf⟩, hlo⟩, -⟩, -⟩, -⟩, -⟩ := h
  rw [tickPw_solo _ _ (still_parts _ hst).1 (still_parts _ hst).2.1, hn, hl] at h2
  obtain ⟨c1, c2, c3, -⟩ := puts_ctl now (s.eng a.die.val a.eng.val)
  rw [advance_quiet_sampled _ _ _ (by exact c2.trans hb) (by exact c3.trans hr) (by simp only [c1]; exact hlo),
    advance_solo _ _ (by exact c2.trans hb) (by exact c3.trans hr) (by simp only [c1]; exact hlo)] at h2
  simp only [c1] at h2
  exact h2

end Sys2Proof.Machine
end

