-- ==== Sys2Proof/Laws/State.lean ====
section
/-! SUPPORT. One lemma per field per update: the fields that an update of the State leaves alone, so that no proof unfolds a
record update. What an update writes is read back by the lemmas of Laws/Ops.lean. -/

namespace Sys2Proof.Machine

variable (s : State)

/-! ### setReg -/

@[simp] theorem State.setReg_pending (r : RegName) (d : Nat) (i : List Nat) (v : W32) : (s.setReg r d i v).pending = s.pending := rfl
@[simp] theorem State.setReg_fresh (r : RegName) (d : Nat) (i : List Nat) (v : W32) : (s.setReg r d i v).fresh = s.fresh := rfl
@[simp] theorem State.setReg_variant (r : RegName) (d : Nat) (i : List Nat) (v : W32) : (s.setReg r d i v).variant = s.variant := rfl
@[simp] theorem State.setReg_stepping (r : RegName) (d : Nat) (i : List Nat) (v : W32) : (s.setReg r d i v).stepping = s.stepping := rfl
@[simp] theorem State.setReg_engs (r : RegName) (d : Nat) (i : List Nat) (v : W32) : (s.setReg r d i v).engs = s.engs := rfl
@[simp] theorem State.setReg_dies (r : RegName) (d : Nat) (i : List Nat) (v : W32) : (s.setReg r d i v).dies = s.dies := rfl
@[simp] theorem State.setReg_shm (r : RegName) (d : Nat) (i : List Nat) (v : W32) : (s.setReg r d i v).shm = s.shm := rfl
@[simp] theorem State.setReg_sbits (r : RegName) (d : Nat) (i : List Nat) (v : W32) : (s.setReg r d i v).sbits = s.sbits := rfl
@[simp] theorem State.setReg_blks (r : RegName) (d : Nat) (i : List Nat) (v : W32) : (s.setReg r d i v).blks = s.blks := rfl
@[simp] theorem State.setReg_ques (r : RegName) (d : Nat) (i : List Nat) (v : W32) : (s.setReg r d i v).ques = s.ques := rfl
@[simp] theorem State.setReg_qpA (r : RegName) (d : Nat) (i : List Nat) (v : W32) : (s.setReg r d i v).qpA = s.qpA := rfl
@[simp] theorem State.setReg_qpS (r : RegName) (d : Nat) (i : List Nat) (v : W32) : (s.setReg r d i v).qpS = s.qpS := rfl
@[simp] theorem State.setReg_flA (r : RegName) (d : Nat) (i : List Nat) (v : W32) : (s.setReg r d i v).flA = s.flA := rfl
@[simp] theorem State.setReg_flS (r : RegName) (d : Nat) (i : List Nat) (v : W32) : (s.setReg r d i v).flS = s.flS := rfl
@[simp] theorem State.setReg_flSt (r : RegName) (d : Nat) (i : List Nat) (v : W32) : (s.setReg r d i v).flSt = s.flSt := rfl
@[simp] theorem State.setReg_flViewS (r : RegName) (d : Nat) (i : List Nat) (v : W32) : (s.setReg r d i v).flViewS = s.flViewS := rfl
@[simp] theorem State.setReg_flView (r : RegName) (d : Nat) (i : List Nat) (v : W32) : (s.setReg r d i v).flView = s.flView := rfl
@[simp] theorem State.setReg_leaves (r : RegName) (d : Nat) (i : List Nat) (v : W32) : (s.setReg r d i v).leaves = s.leaves := rfl
@[simp] theorem State.setReg_fin (r : RegName) (d : Nat) (i : List Nat) (v : W32) : (s.setReg r d i v).fin = s.fin := rfl
@[simp] theorem State.setReg_events (r : RegName) (d : Nat) (i : List Nat) (v : W32) : (s.setReg r d i v).events = s.events := rfl
@[simp] theorem State.setReg_pkg (r : RegName) (d : Nat) (i : List Nat) (v : W32) : (s.setReg r d i v).pkg = s.pkg := rfl

/-! ### setAct -/

@[simp] theorem State.setAct_pending (r : RegName) (d : Nat) (i : List Nat) (v : W32) : (s.setAct r d i v).pending = s.pending := rfl
@[simp] theorem State.setAct_fresh (r : RegName) (d : Nat) (i : List Nat) (v : W32) : (s.setAct r d i v).fresh = s.fresh := rfl
@[simp] theorem State.setAct_variant (r : RegName) (d : Nat) (i : List Nat) (v : W32) : (s.setAct r d i v).variant = s.variant := rfl
@[simp] theorem State.setAct_stepping (r : RegName) (d : Nat) (i : List Nat) (v : W32) : (s.setAct r d i v).stepping = s.stepping := rfl
@[simp] theorem State.setAct_engs (r : RegName) (d : Nat) (i : List Nat) (v : W32) : (s.setAct r d i v).engs = s.engs := rfl
@[simp] theorem State.setAct_dies (r : RegName) (d : Nat) (i : List Nat) (v : W32) : (s.setAct r d i v).dies = s.dies := rfl
@[simp] theorem State.setAct_shm (r : RegName) (d : Nat) (i : List Nat) (v : W32) : (s.setAct r d i v).shm = s.shm := rfl
@[simp] theorem State.setAct_sbits (r : RegName) (d : Nat) (i : List Nat) (v : W32) : (s.setAct r d i v).sbits = s.sbits := rfl
@[simp] theorem State.setAct_blks (r : RegName) (d : Nat) (i : List Nat) (v : W32) : (s.setAct r d i v).blks = s.blks := rfl
@[simp] theorem State.setAct_ques (r : RegName) (d : Nat) (i : List Nat) (v : W32) : (s.setAct r d i v).ques = s.ques := rfl
@[simp] theorem State.setAct_qpA (r : RegName) (d : Nat) (i : List Nat) (v : W32) : (s.setAct r d i v).qpA = s.qpA := rfl
@[simp] theorem State.setAct_qpS (r : RegName) (d : Nat) (i : List Nat) (v : W32) : (s.setAct r d i v).qpS = s.qpS := rfl
@[simp] theorem State.setAct_flA (r : RegName) (d : Nat) (i : List Nat) (v : W32) : (s.setAct r d i v).flA = s.flA := rfl
@[simp] theorem State.setAct_flS (r : RegName) (d : Nat) (i : List Nat) (v : W32) : (s.setAct r d i v).flS = s.flS := rfl
@[simp] theorem State.setAct_flSt (r : RegName) (d : Nat) (i : List Nat) (v : W32) : (s.setAct r d i v).flSt = s.flSt := rfl
@[simp] theorem State.setAct_flViewS (r : RegName) (d : Nat) (i : List Nat) (v : W32) : (s.setAct r d i v).flViewS = s.flViewS := rfl
@[simp] theorem State.setAct_flView (r : RegName) (d : Nat) (i : List Nat) (v : W32) : (s.setAct r d i v).flView = s.flView := rfl
@[simp] theorem State.setAct_leaves (r : RegName) (d : Nat) (i : List Nat) (v : W32) : (s.setAct r d i v).leaves = s.leaves := rfl
@[simp] theorem State.setAct_fin (r : RegName) (d : Nat) (i : List Nat) (v : W32) : (s.setAct r d i v).fin = s.fin := rfl
@[simp] theorem State.setAct_events (r : RegName) (d : Nat) (i : List Nat) (v : W32) : (s.setAct r d i v).events = s.events := rfl
@[simp] theorem State.setAct_pkg (r : RegName) (d : Nat) (i : List Nat) (v : W32) : (s.setAct r d i v).pkg = s.pkg := rfl

/-! ### setF -/

@[simp] theorem State.setF_pending (x : Fld) (d : Nat) (i : List Nat) (v : Nat) : (s.setF x d i v).pending = s.pending := rfl
@[simp] theorem State.setF_fresh (x : Fld) (d : Nat) (i : List Nat) (v : Nat) : (s.setF x d i v).fresh = s.fresh := rfl
@[simp] theorem State.setF_variant (x : Fld) (d : Nat) (i : List Nat) (v : Nat) : (s.setF x d i v).variant = s.variant := rfl
@[simp] theorem State.setF_stepping (x : Fld) (d : Nat) (i : List Nat) (v : Nat) : (s.setF x d i v).stepping = s.stepping := rfl
@[simp] theorem State.setF_engs (x : Fld) (d : Nat) (i : List Nat) (v : Nat) : (s.setF x d i v).engs = s.engs := rfl
@[simp] theorem State.setF_dies (x : Fld) (d : Nat) (i : List Nat) (v : Nat) : (s.setF x d i v).dies = s.dies := rfl
@[simp] theorem State.setF_shm (x : Fld) (d : Nat) (i : List Nat) (v : Nat) : (s.setF x d i v).shm = s.shm := rfl
@[simp] theorem State.setF_sbits (x : Fld) (d : Nat) (i : List Nat) (v : Nat) : (s.setF x d i v).sbits = s.sbits := rfl
@[simp] theorem State.setF_blks (x : Fld) (d : Nat) (i : List Nat) (v : Nat) : (s.setF x d i v).blks = s.blks := rfl
@[simp] theorem State.setF_ques (x : Fld) (d : Nat) (i : List Nat) (v : Nat) : (s.setF x d i v).ques = s.ques := rfl
@[simp] theorem State.setF_qpA (x : Fld) (d : Nat) (i : List Nat) (v : Nat) : (s.setF x d i v).qpA = s.qpA := rfl
@[simp] theorem State.setF_qpS (x : Fld) (d : Nat) (i : List Nat) (v : Nat) : (s.setF x d i v).qpS = s.qpS := rfl
@[simp] theorem State.setF_flA (x : Fld) (d : Nat) (i : List Nat) (v : Nat) : (s.setF x d i v).flA = s.flA := rfl
@[simp] theorem State.setF_flS (x : Fld) (d : Nat) (i : List Nat) (v : Nat) : (s.setF x d i v).flS = s.flS := rfl
@[simp] theorem State.setF_flSt (x : Fld) (d : Nat) (i : List Nat) (v : Nat) : (s.setF x d i v).flSt = s.flSt := rfl
@[simp] theorem State.setF_flViewS (x : Fld) (d : Nat) (i : List Nat) (v : Nat) : (s.setF x d i v).flViewS = s.flViewS := rfl
@[simp] theorem State.setF_flView (x : Fld) (d : Nat) (i : List Nat) (v : Nat) : (s.setF x d i v).flView = s.flView := rfl
@[simp] theorem State.setF_leaves (x : Fld) (d : Nat) (i : List Nat) (v : Nat) : (s.setF x d i v).leaves = s.leaves := rfl
@[simp] theorem State.setF_fin (x : Fld) (d : Nat) (i : List Nat) (v : Nat) : (s.setF x d i v).fin = s.fin := rfl
@[simp] theorem State.setF_events (x : Fld) (d : Nat) (i : List Nat) (v : Nat) : (s.setF x d i v).events = s.events := rfl
@[simp] theorem State.setF_pkg (x : Fld) (d : Nat) (i : List Nat) (v : Nat) : (s.setF x d i v).pkg = s.pkg := rfl

/-! ### setFa -/

@[simp] theorem State.setFa_pending (x : Fld) (d : Nat) (i : List Nat) (v : Nat) : (s.setFa x d i v).pending = s.pending := rfl
@[simp] theorem State.setFa_fresh (x : Fld) (d : Nat) (i : List Nat) (v : Nat) : (s.setFa x d i v).fresh = s.fresh := rfl
@[simp] theorem State.setFa_variant (x : Fld) (d : Nat) (i : List Nat) (v : Nat) : (s.setFa x d i v).variant = s.variant := rfl
@[simp] theorem State.setFa_stepping (x : Fld) (d : Nat) (i : List Nat) (v : Nat) : (s.setFa x d i v).stepping = s.stepping := rfl
@[simp] theorem State.setFa_engs (x : Fld) (d : Nat) (i : List Nat) (v : Nat) : (s.setFa x d i v).engs = s.engs := rfl
@[simp] theorem State.setFa_dies (x : Fld) (d : Nat) (i : List Nat) (v : Nat) : (s.setFa x d i v).dies = s.dies := rfl
@[simp] theorem State.setFa_shm (x : Fld) (d : Nat) (i : List Nat) (v : Nat) : (s.setFa x d i v).shm = s.shm := rfl
@[simp] theorem State.setFa_sbits (x : Fld) (d : Nat) (i : List Nat) (v : Nat) : (s.setFa x d i v).sbits = s.sbits := rfl
@[simp] theorem State.setFa_blks (x : Fld) (d : Nat) (i : List Nat) (v : Nat) : (s.setFa x d i v).blks = s.blks := rfl
@[simp] theorem State.setFa_ques (x : Fld) (d : Nat) (i : List Nat) (v : Nat) : (s.setFa x d i v).ques = s.ques := rfl
@[simp] theorem State.setFa_qpA (x : Fld) (d : Nat) (i : List Nat) (v : Nat) : (s.setFa x d i v).qpA = s.qpA := rfl
@[simp] theorem State.setFa_qpS (x : Fld) (d : Nat) (i : List Nat) (v : Nat) : (s.setFa x d i v).qpS = s.qpS := rfl
@[simp] theorem State.setFa_flA (x : Fld) (d : Nat) (i : List Nat) (v : Nat) : (s.setFa x d i v).flA = s.flA := rfl
@[simp] theorem State.setFa_flS (x : Fld) (d : Nat) (i : List Nat) (v : Nat) : (s.setFa x d i v).flS = s.flS := rfl
@[simp] theorem State.setFa_flSt (x : Fld) (d : Nat) (i : List Nat) (v : Nat) : (s.setFa x d i v).flSt = s.flSt := rfl
@[simp] theorem State.setFa_flViewS (x : Fld) (d : Nat) (i : List Nat) (v : Nat) : (s.setFa x d i v).flViewS = s.flViewS := rfl
@[simp] theorem State.setFa_flView (x : Fld) (d : Nat) (i : List Nat) (v : Nat) : (s.setFa x d i v).flView = s.flView := rfl
@[simp] theorem State.setFa_leaves (x : Fld) (d : Nat) (i : List Nat) (v : Nat) : (s.setFa x d i v).leaves = s.leaves := rfl
@[simp] theorem State.setFa_fin (x : Fld) (d : Nat) (i : List Nat) (v : Nat) : (s.setFa x d i v).fin = s.fin := rfl
@[simp] theorem State.setFa_events (x : Fld) (d : Nat) (i : List Nat) (v : Nat) : (s.setFa x d i v).events = s.events := rfl
@[simp] theorem State.setFa_pkg (x : Fld) (d : Nat) (i : List Nat) (v : Nat) : (s.setFa x d i v).pkg = s.pkg := rfl

/-! ### addF -/

@[simp] theorem State.addF_pending (x : Fld) (d : Nat) (i : List Nat) (n : Nat) : (s.addF x d i n).pending = s.pending := rfl
@[simp] theorem State.addF_fresh (x : Fld) (d : Nat) (i : List Nat) (n : Nat) : (s.addF x d i n).fresh = s.fresh := rfl
@[simp] theorem State.addF_variant (x : Fld) (d : Nat) (i : List Nat) (n : Nat) : (s.addF x d i n).variant = s.variant := rfl
@[simp] theorem State.addF_stepping (x : Fld) (d : Nat) (i : List Nat) (n : Nat) : (s.addF x d i n).stepping = s.stepping := rfl
@[simp] theorem State.addF_engs (x : Fld) (d : Nat) (i : List Nat) (n : Nat) : (s.addF x d i n).engs = s.engs := rfl
@[simp] theorem State.addF_dies (x : Fld) (d : Nat) (i : List Nat) (n : Nat) : (s.addF x d i n).dies = s.dies := rfl
@[simp] theorem State.addF_shm (x : Fld) (d : Nat) (i : List Nat) (n : Nat) : (s.addF x d i n).shm = s.shm := rfl
@[simp] theorem State.addF_sbits (x : Fld) (d : Nat) (i : List Nat) (n : Nat) : (s.addF x d i n).sbits = s.sbits := rfl
@[simp] theorem State.addF_blks (x : Fld) (d : Nat) (i : List Nat) (n : Nat) : (s.addF x d i n).blks = s.blks := rfl
@[simp] theorem State.addF_ques (x : Fld) (d : Nat) (i : List Nat) (n : Nat) : (s.addF x d i n).ques = s.ques := rfl
@[simp] theorem State.addF_qpA (x : Fld) (d : Nat) (i : List Nat) (n : Nat) : (s.addF x d i n).qpA = s.qpA := rfl
@[simp] theorem State.addF_qpS (x : Fld) (d : Nat) (i : List Nat) (n : Nat) : (s.addF x d i n).qpS = s.qpS := rfl
@[simp] theorem State.addF_flA (x : Fld) (d : Nat) (i : List Nat) (n : Nat) : (s.addF x d i n).flA = s.flA := rfl
@[simp] theorem State.addF_flS (x : Fld) (d : Nat) (i : List Nat) (n : Nat) : (s.addF x d i n).flS = s.flS := rfl
@[simp] theorem State.addF_flSt (x : Fld) (d : Nat) (i : List Nat) (n : Nat) : (s.addF x d i n).flSt = s.flSt := rfl
@[simp] theorem State.addF_flViewS (x : Fld) (d : Nat) (i : List Nat) (n : Nat) : (s.addF x d i n).flViewS = s.flViewS := rfl
@[simp] theorem State.addF_flView (x : Fld) (d : Nat) (i : List Nat) (n : Nat) : (s.addF x d i n).flView = s.flView := rfl
@[simp] theorem State.addF_leaves (x : Fld) (d : Nat) (i : List Nat) (n : Nat) : (s.addF x d i n).leaves = s.leaves := rfl
@[simp] theorem State.addF_fin (x : Fld) (d : Nat) (i : List Nat) (n : Nat) : (s.addF x d i n).fin = s.fin := rfl
@[simp] theorem State.addF_events (x : Fld) (d : Nat) (i : List Nat) (n : Nat) : (s.addF x d i n).events = s.events := rfl
@[simp] theorem State.addF_pkg (x : Fld) (d : Nat) (i : List Nat) (n : Nat) : (s.addF x d i n).pkg = s.pkg := rfl

/-! ### incF -/

@[simp] theorem State.incF_pending (x : Fld) (d : Nat) (i : List Nat) : (s.incF x d i).pending = s.pending := rfl
@[simp] theorem State.incF_fresh (x : Fld) (d : Nat) (i : List Nat) : (s.incF x d i).fresh = s.fresh := rfl
@[simp] theorem State.incF_variant (x : Fld) (d : Nat) (i : List Nat) : (s.incF x d i).variant = s.variant := rfl
@[simp] theorem State.incF_stepping (x : Fld) (d : Nat) (i : List Nat) : (s.incF x d i).stepping = s.stepping := rfl
@[simp] theorem State.incF_engs (x : Fld) (d : Nat) (i : List Nat) : (s.incF x d i).engs = s.engs := rfl
@[simp] theorem State.incF_dies (x : Fld) (d : Nat) (i : List Nat) : (s.incF x d i).dies = s.dies := rfl
@[simp] theorem State.incF_shm (x : Fld) (d : Nat) (i : List Nat) : (s.incF x d i).shm = s.shm := rfl
@[simp] theorem State.incF_sbits (x : Fld) (d : Nat) (i : List Nat) : (s.incF x d i).sbits = s.sbits := rfl
@[simp] theorem State.incF_blks (x : Fld) (d : Nat) (i : List Nat) : (s.incF x d i).blks = s.blks := rfl
@[simp] theorem State.incF_ques (x : Fld) (d : Nat) (i : List Nat) : (s.incF x d i).ques = s.ques := rfl
@[simp] theorem State.incF_qpA (x : Fld) (d : Nat) (i : List Nat) : (s.incF x d i).qpA = s.qpA := rfl
@[simp] theorem State.incF_qpS (x : Fld) (d : Nat) (i : List Nat) : (s.incF x d i).qpS = s.qpS := rfl
@[simp] theorem State.incF_flA (x : Fld) (d : Nat) (i : List Nat) : (s.incF x d i).flA = s.flA := rfl
@[simp] theorem State.incF_flS (x : Fld) (d : Nat) (i : List Nat) : (s.incF x d i).flS = s.flS := rfl
@[simp] theorem State.incF_flSt (x : Fld) (d : Nat) (i : List Nat) : (s.incF x d i).flSt = s.flSt := rfl
@[simp] theorem State.incF_flViewS (x : Fld) (d : Nat) (i : List Nat) : (s.incF x d i).flViewS = s.flViewS := rfl
@[simp] theorem State.incF_flView (x : Fld) (d : Nat) (i : List Nat) : (s.incF x d i).flView = s.flView := rfl
@[simp] theorem State.incF_leaves (x : Fld) (d : Nat) (i : List Nat) : (s.incF x d i).leaves = s.leaves := rfl
@[simp] theorem State.incF_fin (x : Fld) (d : Nat) (i : List Nat) : (s.incF x d i).fin = s.fin := rfl
@[simp] theorem State.incF_events (x : Fld) (d : Nat) (i : List Nat) : (s.incF x d i).events = s.events := rfl
@[simp] theorem State.incF_pkg (x : Fld) (d : Nat) (i : List Nat) : (s.incF x d i).pkg = s.pkg := rfl

/-! ### raise -/

@[simp] theorem State.raise_pending (x : Fld) (d : Nat) (i : List Nat) : (s.raise x d i).pending = s.pending := rfl
@[simp] theorem State.raise_fresh (x : Fld) (d : Nat) (i : List Nat) : (s.raise x d i).fresh = s.fresh := rfl
@[simp] theorem State.raise_variant (x : Fld) (d : Nat) (i : List Nat) : (s.raise x d i).variant = s.variant := rfl
@[simp] theorem State.raise_stepping (x : Fld) (d : Nat) (i : List Nat) : (s.raise x d i).stepping = s.stepping := rfl
@[simp] theorem State.raise_engs (x : Fld) (d : Nat) (i : List Nat) : (s.raise x d i).engs = s.engs := rfl
@[simp] theorem State.raise_dies (x : Fld) (d : Nat) (i : List Nat) : (s.raise x d i).dies = s.dies := rfl
@[simp] theorem State.raise_shm (x : Fld) (d : Nat) (i : List Nat) : (s.raise x d i).shm = s.shm := rfl
@[simp] theorem State.raise_sbits (x : Fld) (d : Nat) (i : List Nat) : (s.raise x d i).sbits = s.sbits := rfl
@[simp] theorem State.raise_blks (x : Fld) (d : Nat) (i : List Nat) : (s.raise x d i).blks = s.blks := rfl
@[simp] theorem State.raise_ques (x : Fld) (d : Nat) (i : List Nat) : (s.raise x d i).ques = s.ques := rfl
@[simp] theorem State.raise_qpA (x : Fld) (d : Nat) (i : List Nat) : (s.raise x d i).qpA = s.qpA := rfl
@[simp] theorem State.raise_qpS (x : Fld) (d : Nat) (i : List Nat) : (s.raise x d i).qpS = s.qpS := rfl
@[simp] theorem State.raise_flA (x : Fld) (d : Nat) (i : List Nat) : (s.raise x d i).flA = s.flA := rfl
@[simp] theorem State.raise_flS (x : Fld) (d : Nat) (i : List Nat) : (s.raise x d i).flS = s.flS := rfl
@[simp] theorem State.raise_flSt (x : Fld) (d : Nat) (i : List Nat) : (s.raise x d i).flSt = s.flSt := rfl
@[simp] theorem State.raise_flViewS (x : Fld) (d : Nat) (i : List Nat) : (s.raise x d i).flViewS = s.flViewS := rfl
@[simp] theorem State.raise_flView (x : Fld) (d : Nat) (i : List Nat) : (s.raise x d i).flView = s.flView := rfl
@[simp] theorem State.raise_leaves (x : Fld) (d : Nat) (i : List Nat) : (s.raise x d i).leaves = s.leaves := rfl
@[simp] theorem State.raise_fin (x : Fld) (d : Nat) (i : List Nat) : (s.raise x d i).fin = s.fin := rfl
@[simp] theorem State.raise_events (x : Fld) (d : Nat) (i : List Nat) : (s.raise x d i).events = s.events := rfl
@[simp] theorem State.raise_pkg (x : Fld) (d : Nat) (i : List Nat) : (s.raise x d i).pkg = s.pkg := rfl

/-! ### useFree -/

@[simp] theorem State.useFree_pending (n : Nat) : (s.useFree n).pending = s.pending := rfl
@[simp] theorem State.useFree_variant (n : Nat) : (s.useFree n).variant = s.variant := rfl
@[simp] theorem State.useFree_stepping (n : Nat) : (s.useFree n).stepping = s.stepping := rfl
@[simp] theorem State.useFree_regs (n : Nat) : (s.useFree n).regs = s.regs := rfl
@[simp] theorem State.useFree_engs (n : Nat) : (s.useFree n).engs = s.engs := rfl
@[simp] theorem State.useFree_dies (n : Nat) : (s.useFree n).dies = s.dies := rfl
@[simp] theorem State.useFree_shm (n : Nat) : (s.useFree n).shm = s.shm := rfl
@[simp] theorem State.useFree_sbits (n : Nat) : (s.useFree n).sbits = s.sbits := rfl
@[simp] theorem State.useFree_blks (n : Nat) : (s.useFree n).blks = s.blks := rfl
@[simp] theorem State.useFree_ques (n : Nat) : (s.useFree n).ques = s.ques := rfl
@[simp] theorem State.useFree_qpA (n : Nat) : (s.useFree n).qpA = s.qpA := rfl
@[simp] theorem State.useFree_qpS (n : Nat) : (s.useFree n).qpS = s.qpS := rfl
@[simp] theorem State.useFree_flA (n : Nat) : (s.useFree n).flA = s.flA := rfl
@[simp] theorem State.useFree_flS (n : Nat) : (s.useFree n).flS = s.flS := rfl
@[simp] theorem State.useFree_flSt (n : Nat) : (s.useFree n).flSt = s.flSt := rfl
@[simp] theorem State.useFree_flViewS (n : Nat) : (s.useFree n).flViewS = s.flViewS := rfl
@[simp] theorem State.useFree_flView (n : Nat) : (s.useFree n).flView = s.flView := rfl
@[simp] theorem State.useFree_leaves (n : Nat) : (s.useFree n).leaves = s.leaves := rfl
@[simp] theorem State.useFree_fin (n : Nat) : (s.useFree n).fin = s.fin := rfl
@[simp] theorem State.useFree_events (n : Nat) : (s.useFree n).events = s.events := rfl
@[simp] theorem State.useFree_pkg (n : Nat) : (s.useFree n).pkg = s.pkg := rfl

/-! ### setEng -/

@[simp] theorem State.setEng_pending (d e : Nat) (x : Eng) : (s.setEng d e x).pending = s.pending := rfl
@[simp] theorem State.setEng_fresh (d e : Nat) (x : Eng) : (s.setEng d e x).fresh = s.fresh := rfl
@[simp] theorem State.setEng_variant (d e : Nat) (x : Eng) : (s.setEng d e x).variant = s.variant := rfl
@[simp] theorem State.setEng_stepping (d e : Nat) (x : Eng) : (s.setEng d e x).stepping = s.stepping := rfl
@[simp] theorem State.setEng_regs (d e : Nat) (x : Eng) : (s.setEng d e x).regs = s.regs := rfl
@[simp] theorem State.setEng_dies (d e : Nat) (x : Eng) : (s.setEng d e x).dies = s.dies := rfl
@[simp] theorem State.setEng_shm (d e : Nat) (x : Eng) : (s.setEng d e x).shm = s.shm := rfl
@[simp] theorem State.setEng_sbits (d e : Nat) (x : Eng) : (s.setEng d e x).sbits = s.sbits := rfl
@[simp] theorem State.setEng_blks (d e : Nat) (x : Eng) : (s.setEng d e x).blks = s.blks := rfl
@[simp] theorem State.setEng_ques (d e : Nat) (x : Eng) : (s.setEng d e x).ques = s.ques := rfl
@[simp] theorem State.setEng_qpA (d e : Nat) (x : Eng) : (s.setEng d e x).qpA = s.qpA := rfl
@[simp] theorem State.setEng_qpS (d e : Nat) (x : Eng) : (s.setEng d e x).qpS = s.qpS := rfl
@[simp] theorem State.setEng_flA (d e : Nat) (x : Eng) : (s.setEng d e x).flA = s.flA := rfl
@[simp] theorem State.setEng_flS (d e : Nat) (x : Eng) : (s.setEng d e x).flS = s.flS := rfl
@[simp] theorem State.setEng_flSt (d e : Nat) (x : Eng) : (s.setEng d e x).flSt = s.flSt := rfl
@[simp] theorem State.setEng_flViewS (d e : Nat) (x : Eng) : (s.setEng d e x).flViewS = s.flViewS := rfl
@[simp] theorem State.setEng_flView (d e : Nat) (x : Eng) : (s.setEng d e x).flView = s.flView := rfl
@[simp] theorem State.setEng_leaves (d e : Nat) (x : Eng) : (s.setEng d e x).leaves = s.leaves := rfl
@[simp] theorem State.setEng_fin (d e : Nat) (x : Eng) : (s.setEng d e x).fin = s.fin := rfl
@[simp] theorem State.setEng_events (d e : Nat) (x : Eng) : (s.setEng d e x).events = s.events := rfl
@[simp] theorem State.setEng_pkg (d e : Nat) (x : Eng) : (s.setEng d e x).pkg = s.pkg := rfl

/-! ### updEng -/

@[simp] theorem State.updEng_pending (d e : Nat) (f : Eng → Eng) : (s.updEng d e f).pending = s.pending := rfl
@[simp] theorem State.updEng_fresh (d e : Nat) (f : Eng → Eng) : (s.updEng d e f).fresh = s.fresh := rfl
@[simp] theorem State.updEng_variant (d e : Nat) (f : Eng → Eng) : (s.updEng d e f).variant = s.variant := rfl
@[simp] theorem State.updEng_stepping (d e : Nat) (f : Eng → Eng) : (s.updEng d e f).stepping = s.stepping := rfl
@[simp] theorem State.updEng_regs (d e : Nat) (f : Eng → Eng) : (s.updEng d e f).regs = s.regs := rfl
@[simp] theorem State.updEng_dies (d e : Nat) (f : Eng → Eng) : (s.updEng d e f).dies = s.dies := rfl
@[simp] theorem State.updEng_shm (d e : Nat) (f : Eng → Eng) : (s.updEng d e f).shm = s.shm := rfl
@[simp] theorem State.updEng_sbits (d e : Nat) (f : Eng → Eng) : (s.updEng d e f).sbits = s.sbits := rfl
@[simp] theorem State.updEng_blks (d e : Nat) (f : Eng → Eng) : (s.updEng d e f).blks = s.blks := rfl
@[simp] theorem State.updEng_ques (d e : Nat) (f : Eng → Eng) : (s.updEng d e f).ques = s.ques := rfl
@[simp] theorem State.updEng_qpA (d e : Nat) (f : Eng → Eng) : (s.updEng d e f).qpA = s.qpA := rfl
@[simp] theorem State.updEng_qpS (d e : Nat) (f : Eng → Eng) : (s.updEng d e f).qpS = s.qpS := rfl
@[simp] theorem State.updEng_flA (d e : Nat) (f : Eng → Eng) : (s.updEng d e f).flA = s.flA := rfl
@[simp] theorem State.updEng_flS (d e : Nat) (f : Eng → Eng) : (s.updEng d e f).flS = s.flS := rfl
@[simp] theorem State.updEng_flSt (d e : Nat) (f : Eng → Eng) : (s.updEng d e f).flSt = s.flSt := rfl
@[simp] theorem State.updEng_flViewS (d e : Nat) (f : Eng → Eng) : (s.updEng d e f).flViewS = s.flViewS := rfl
@[simp] theorem State.updEng_flView (d e : Nat) (f : Eng → Eng) : (s.updEng d e f).flView = s.flView := rfl
@[simp] theorem State.updEng_leaves (d e : Nat) (f : Eng → Eng) : (s.updEng d e f).leaves = s.leaves := rfl
@[simp] theorem State.updEng_fin (d e : Nat) (f : Eng → Eng) : (s.updEng d e f).fin = s.fin := rfl
@[simp] theorem State.updEng_events (d e : Nat) (f : Eng → Eng) : (s.updEng d e f).events = s.events := rfl
@[simp] theorem State.updEng_pkg (d e : Nat) (f : Eng → Eng) : (s.updEng d e f).pkg = s.pkg := rfl

/-! ### setDie -/

@[simp] theorem State.setDie_pending (d : Nat) (x : Die) : (s.setDie d x).pending = s.pending := rfl
@[simp] theorem State.setDie_fresh (d : Nat) (x : Die) : (s.setDie d x).fresh = s.fresh := rfl
@[simp] theorem State.setDie_variant (d : Nat) (x : Die) : (s.setDie d x).variant = s.variant := rfl
@[simp] theorem State.setDie_stepping (d : Nat) (x : Die) : (s.setDie d x).stepping = s.stepping := rfl
@[simp] theorem State.setDie_regs (d : Nat) (x : Die) : (s.setDie d x).regs = s.regs := rfl
@[simp] theorem State.setDie_engs (d : Nat) (x : Die) : (s.setDie d x).engs = s.engs := rfl
@[simp] theorem State.setDie_shm (d : Nat) (x : Die) : (s.setDie d x).shm = s.shm := rfl
@[simp] theorem State.setDie_sbits (d : Nat) (x : Die) : (s.setDie d x).sbits = s.sbits := rfl
@[simp] theorem State.setDie_blks (d : Nat) (x : Die) : (s.setDie d x).blks = s.blks := rfl
@[simp] theorem State.setDie_ques (d : Nat) (x : Die) : (s.setDie d x).ques = s.ques := rfl
@[simp] theorem State.setDie_qpA (d : Nat) (x : Die) : (s.setDie d x).qpA = s.qpA := rfl
@[simp] theorem State.setDie_qpS (d : Nat) (x : Die) : (s.setDie d x).qpS = s.qpS := rfl
@[simp] theorem State.setDie_flA (d : Nat) (x : Die) : (s.setDie d x).flA = s.flA := rfl
@[simp] theorem State.setDie_flS (d : Nat) (x : Die) : (s.setDie d x).flS = s.flS := rfl
@[simp] theorem State.setDie_flSt (d : Nat) (x : Die) : (s.setDie d x).flSt = s.flSt := rfl
@[simp] theorem State.setDie_flViewS (d : Nat) (x : Die) : (s.setDie d x).flViewS = s.flViewS := rfl
@[simp] theorem State.setDie_flView (d : Nat) (x : Die) : (s.setDie d x).flView = s.flView := rfl
@[simp] theorem State.setDie_leaves (d : Nat) (x : Die) : (s.setDie d x).leaves = s.leaves := rfl
@[simp] theorem State.setDie_fin (d : Nat) (x : Die) : (s.setDie d x).fin = s.fin := rfl
@[simp] theorem State.setDie_events (d : Nat) (x : Die) : (s.setDie d x).events = s.events := rfl
@[simp] theorem State.setDie_pkg (d : Nat) (x : Die) : (s.setDie d x).pkg = s.pkg := rfl

/-! ### setSeg -/

@[simp] theorem State.setSeg_pending (d : Nat) (dir : Dir) (g : Segment) : (s.setSeg d dir g).pending = s.pending := by cases dir <;> rfl
@[simp] theorem State.setSeg_fresh (d : Nat) (dir : Dir) (g : Segment) : (s.setSeg d dir g).fresh = s.fresh := by cases dir <;> rfl
@[simp] theorem State.setSeg_variant (d : Nat) (dir : Dir) (g : Segment) : (s.setSeg d dir g).variant = s.variant := by cases dir <;> rfl
@[simp] theorem State.setSeg_stepping (d : Nat) (dir : Dir) (g : Segment) : (s.setSeg d dir g).stepping = s.stepping := by cases dir <;> rfl
@[simp] theorem State.setSeg_regs (d : Nat) (dir : Dir) (g : Segment) : (s.setSeg d dir g).regs = s.regs := by cases dir <;> rfl
@[simp] theorem State.setSeg_engs (d : Nat) (dir : Dir) (g : Segment) : (s.setSeg d dir g).engs = s.engs := by cases dir <;> rfl
@[simp] theorem State.setSeg_shm (d : Nat) (dir : Dir) (g : Segment) : (s.setSeg d dir g).shm = s.shm := by cases dir <;> rfl
@[simp] theorem State.setSeg_sbits (d : Nat) (dir : Dir) (g : Segment) : (s.setSeg d dir g).sbits = s.sbits := by cases dir <;> rfl
@[simp] theorem State.setSeg_blks (d : Nat) (dir : Dir) (g : Segment) : (s.setSeg d dir g).blks = s.blks := by cases dir <;> rfl
@[simp] theorem State.setSeg_ques (d : Nat) (dir : Dir) (g : Segment) : (s.setSeg d dir g).ques = s.ques := by cases dir <;> rfl
@[simp] theorem State.setSeg_qpA (d : Nat) (dir : Dir) (g : Segment) : (s.setSeg d dir g).qpA = s.qpA := by cases dir <;> rfl
@[simp] theorem State.setSeg_qpS (d : Nat) (dir : Dir) (g : Segment) : (s.setSeg d dir g).qpS = s.qpS := by cases dir <;> rfl
@[simp] theorem State.setSeg_flA (d : Nat) (dir : Dir) (g : Segment) : (s.setSeg d dir g).flA = s.flA := by cases dir <;> rfl
@[simp] theorem State.setSeg_flS (d : Nat) (dir : Dir) (g : Segment) : (s.setSeg d dir g).flS = s.flS := by cases dir <;> rfl
@[simp] theorem State.setSeg_flSt (d : Nat) (dir : Dir) (g : Segment) : (s.setSeg d dir g).flSt = s.flSt := by cases dir <;> rfl
@[simp] theorem State.setSeg_flViewS (d : Nat) (dir : Dir) (g : Segment) : (s.setSeg d dir g).flViewS = s.flViewS := by cases dir <;> rfl
@[simp] theorem State.setSeg_flView (d : Nat) (dir : Dir) (g : Segment) : (s.setSeg d dir g).flView = s.flView := by cases dir <;> rfl
@[simp] theorem State.setSeg_leaves (d : Nat) (dir : Dir) (g : Segment) : (s.setSeg d dir g).leaves = s.leaves := by cases dir <;> rfl
@[simp] theorem State.setSeg_fin (d : Nat) (dir : Dir) (g : Segment) : (s.setSeg d dir g).fin = s.fin := by cases dir <;> rfl
@[simp] theorem State.setSeg_events (d : Nat) (dir : Dir) (g : Segment) : (s.setSeg d dir g).events = s.events := by cases dir <;> rfl
@[simp] theorem State.setSeg_pkg (d : Nat) (dir : Dir) (g : Segment) : (s.setSeg d dir g).pkg = s.pkg := by cases dir <;> rfl

/-! ### setWord -/

@[simp] theorem State.setWord_pending (pa : Nat) (v : Stored) : (s.setWord pa v).pending = s.pending := rfl
@[simp] theorem State.setWord_fresh (pa : Nat) (v : Stored) : (s.setWord pa v).fresh = s.fresh := rfl
@[simp] theorem State.setWord_variant (pa : Nat) (v : Stored) : (s.setWord pa v).variant = s.variant := rfl
@[simp] theorem State.setWord_stepping (pa : Nat) (v : Stored) : (s.setWord pa v).stepping = s.stepping := rfl
@[simp] theorem State.setWord_regs (pa : Nat) (v : Stored) : (s.setWord pa v).regs = s.regs := rfl
@[simp] theorem State.setWord_engs (pa : Nat) (v : Stored) : (s.setWord pa v).engs = s.engs := rfl
@[simp] theorem State.setWord_dies (pa : Nat) (v : Stored) : (s.setWord pa v).dies = s.dies := rfl
@[simp] theorem State.setWord_sbits (pa : Nat) (v : Stored) : (s.setWord pa v).sbits = s.sbits := rfl
@[simp] theorem State.setWord_blks (pa : Nat) (v : Stored) : (s.setWord pa v).blks = s.blks := rfl
@[simp] theorem State.setWord_ques (pa : Nat) (v : Stored) : (s.setWord pa v).ques = s.ques := rfl
@[simp] theorem State.setWord_qpA (pa : Nat) (v : Stored) : (s.setWord pa v).qpA = s.qpA := rfl
@[simp] theorem State.setWord_qpS (pa : Nat) (v : Stored) : (s.setWord pa v).qpS = s.qpS := rfl
@[simp] theorem State.setWord_flA (pa : Nat) (v : Stored) : (s.setWord pa v).flA = s.flA := rfl
@[simp] theorem State.setWord_flS (pa : Nat) (v : Stored) : (s.setWord pa v).flS = s.flS := rfl
@[simp] theorem State.setWord_flSt (pa : Nat) (v : Stored) : (s.setWord pa v).flSt = s.flSt := rfl
@[simp] theorem State.setWord_flViewS (pa : Nat) (v : Stored) : (s.setWord pa v).flViewS = s.flViewS := rfl
@[simp] theorem State.setWord_flView (pa : Nat) (v : Stored) : (s.setWord pa v).flView = s.flView := rfl
@[simp] theorem State.setWord_leaves (pa : Nat) (v : Stored) : (s.setWord pa v).leaves = s.leaves := rfl
@[simp] theorem State.setWord_fin (pa : Nat) (v : Stored) : (s.setWord pa v).fin = s.fin := rfl
@[simp] theorem State.setWord_events (pa : Nat) (v : Stored) : (s.setWord pa v).events = s.events := rfl
@[simp] theorem State.setWord_pkg (pa : Nat) (v : Stored) : (s.setWord pa v).pkg = s.pkg := rfl

/-! ### setBank -/

@[simp] theorem State.setBank_pending (lo n : Nat) (m : Store Stored) : (s.setBank lo n m).pending = s.pending := rfl
@[simp] theorem State.setBank_fresh (lo n : Nat) (m : Store Stored) : (s.setBank lo n m).fresh = s.fresh := rfl
@[simp] theorem State.setBank_variant (lo n : Nat) (m : Store Stored) : (s.setBank lo n m).variant = s.variant := rfl
@[simp] theorem State.setBank_stepping (lo n : Nat) (m : Store Stored) : (s.setBank lo n m).stepping = s.stepping := rfl
@[simp] theorem State.setBank_regs (lo n : Nat) (m : Store Stored) : (s.setBank lo n m).regs = s.regs := rfl
@[simp] theorem State.setBank_engs (lo n : Nat) (m : Store Stored) : (s.setBank lo n m).engs = s.engs := rfl
@[simp] theorem State.setBank_dies (lo n : Nat) (m : Store Stored) : (s.setBank lo n m).dies = s.dies := rfl
@[simp] theorem State.setBank_sbits (lo n : Nat) (m : Store Stored) : (s.setBank lo n m).sbits = s.sbits := rfl
@[simp] theorem State.setBank_blks (lo n : Nat) (m : Store Stored) : (s.setBank lo n m).blks = s.blks := rfl
@[simp] theorem State.setBank_ques (lo n : Nat) (m : Store Stored) : (s.setBank lo n m).ques = s.ques := rfl
@[simp] theorem State.setBank_qpA (lo n : Nat) (m : Store Stored) : (s.setBank lo n m).qpA = s.qpA := rfl
@[simp] theorem State.setBank_qpS (lo n : Nat) (m : Store Stored) : (s.setBank lo n m).qpS = s.qpS := rfl
@[simp] theorem State.setBank_flA (lo n : Nat) (m : Store Stored) : (s.setBank lo n m).flA = s.flA := rfl
@[simp] theorem State.setBank_flS (lo n : Nat) (m : Store Stored) : (s.setBank lo n m).flS = s.flS := rfl
@[simp] theorem State.setBank_flSt (lo n : Nat) (m : Store Stored) : (s.setBank lo n m).flSt = s.flSt := rfl
@[simp] theorem State.setBank_flViewS (lo n : Nat) (m : Store Stored) : (s.setBank lo n m).flViewS = s.flViewS := rfl
@[simp] theorem State.setBank_flView (lo n : Nat) (m : Store Stored) : (s.setBank lo n m).flView = s.flView := rfl
@[simp] theorem State.setBank_leaves (lo n : Nat) (m : Store Stored) : (s.setBank lo n m).leaves = s.leaves := rfl
@[simp] theorem State.setBank_fin (lo n : Nat) (m : Store Stored) : (s.setBank lo n m).fin = s.fin := rfl
@[simp] theorem State.setBank_events (lo n : Nat) (m : Store Stored) : (s.setBank lo n m).events = s.events := rfl
@[simp] theorem State.setBank_pkg (lo n : Nat) (m : Store Stored) : (s.setBank lo n m).pkg = s.pkg := rfl

/-! ### event -/

@[simp] theorem State.event_pending (code d c : Nat) (l : List Nat) : (s.event code d c l).pending = s.pending := rfl
@[simp] theorem State.event_fresh (code d c : Nat) (l : List Nat) : (s.event code d c l).fresh = s.fresh := rfl
@[simp] theorem State.event_variant (code d c : Nat) (l : List Nat) : (s.event code d c l).variant = s.variant := rfl
@[simp] theorem State.event_stepping (code d c : Nat) (l : List Nat) : (s.event code d c l).stepping = s.stepping := rfl
@[simp] theorem State.event_regs (code d c : Nat) (l : List Nat) : (s.event code d c l).regs = s.regs := rfl
@[simp] theorem State.event_engs (code d c : Nat) (l : List Nat) : (s.event code d c l).engs = s.engs := rfl
@[simp] theorem State.event_dies (code d c : Nat) (l : List Nat) : (s.event code d c l).dies = s.dies := rfl
@[simp] theorem State.event_shm (code d c : Nat) (l : List Nat) : (s.event code d c l).shm = s.shm := rfl
@[simp] theorem State.event_sbits (code d c : Nat) (l : List Nat) : (s.event code d c l).sbits = s.sbits := rfl
@[simp] theorem State.event_blks (code d c : Nat) (l : List Nat) : (s.event code d c l).blks = s.blks := rfl
@[simp] theorem State.event_ques (code d c : Nat) (l : List Nat) : (s.event code d c l).ques = s.ques := rfl
@[simp] theorem State.event_qpA (code d c : Nat) (l : List Nat) : (s.event code d c l).qpA = s.qpA := rfl
@[simp] theorem State.event_qpS (code d c : Nat) (l : List Nat) : (s.event code d c l).qpS = s.qpS := rfl
@[simp] theorem State.event_flA (code d c : Nat) (l : List Nat) : (s.event code d c l).flA = s.flA := rfl
@[simp] theorem State.event_flS (code d c : Nat) (l : List Nat) : (s.event code d c l).flS = s.flS := rfl
@[simp] theorem State.event_flSt (code d c : Nat) (l : List Nat) : (s.event code d c l).flSt = s.flSt := rfl
@[simp] theorem State.event_flViewS (code d c : Nat) (l : List Nat) : (s.event code d c l).flViewS = s.flViewS := rfl
@[simp] theorem State.event_flView (code d c : Nat) (l : List Nat) : (s.event code d c l).flView = s.flView := rfl
@[simp] theorem State.event_leaves (code d c : Nat) (l : List Nat) : (s.event code d c l).leaves = s.leaves := rfl
@[simp] theorem State.event_fin (code d c : Nat) (l : List Nat) : (s.event code d c l).fin = s.fin := rfl
@[simp] theorem State.event_pkg (code d c : Nat) (l : List Nat) : (s.event code d c l).pkg = s.pkg := rfl

/-! ### setBlk -/

@[simp] theorem State.setBlk_pending (d h : Nat) (b : Block) : (s.setBlk d h b).pending = s.pending := rfl
@[simp] theorem State.setBlk_fresh (d h : Nat) (b : Block) : (s.setBlk d h b).fresh = s.fresh := rfl
@[simp] theorem State.setBlk_variant (d h : Nat) (b : Block) : (s.setBlk d h b).variant = s.variant := rfl
@[simp] theorem State.setBlk_stepping (d h : Nat) (b : Block) : (s.setBlk d h b).stepping = s.stepping := rfl
@[simp] theorem State.setBlk_regs (d h : Nat) (b : Block) : (s.setBlk d h b).regs = s.regs := rfl
@[simp] theorem State.setBlk_engs (d h : Nat) (b : Block) : (s.setBlk d h b).engs = s.engs := rfl
@[simp] theorem State.setBlk_dies (d h : Nat) (b : Block) : (s.setBlk d h b).dies = s.dies := rfl
@[simp] theorem State.setBlk_shm (d h : Nat) (b : Block) : (s.setBlk d h b).shm = s.shm := rfl
@[simp] theorem State.setBlk_sbits (d h : Nat) (b : Block) : (s.setBlk d h b).sbits = s.sbits := rfl
@[simp] theorem State.setBlk_ques (d h : Nat) (b : Block) : (s.setBlk d h b).ques = s.ques := rfl
@[simp] theorem State.setBlk_qpA (d h : Nat) (b : Block) : (s.setBlk d h b).qpA = s.qpA := rfl
@[simp] theorem State.setBlk_qpS (d h : Nat) (b : Block) : (s.setBlk d h b).qpS = s.qpS := rfl
@[simp] theorem State.setBlk_flA (d h : Nat) (b : Block) : (s.setBlk d h b).flA = s.flA := rfl
@[simp] theorem State.setBlk_flS (d h : Nat) (b : Block) : (s.setBlk d h b).flS = s.flS := rfl
@[simp] theorem State.setBlk_flSt (d h : Nat) (b : Block) : (s.setBlk d h b).flSt = s.flSt := rfl
@[simp] theorem State.setBlk_flViewS (d h : Nat) (b : Block) : (s.setBlk d h b).flViewS = s.flViewS := rfl
@[simp] theorem State.setBlk_flView (d h : Nat) (b : Block) : (s.setBlk d h b).flView = s.flView := rfl
@[simp] theorem State.setBlk_leaves (d h : Nat) (b : Block) : (s.setBlk d h b).leaves = s.leaves := rfl
@[simp] theorem State.setBlk_fin (d h : Nat) (b : Block) : (s.setBlk d h b).fin = s.fin := rfl
@[simp] theorem State.setBlk_events (d h : Nat) (b : Block) : (s.setBlk d h b).events = s.events := rfl
@[simp] theorem State.setBlk_pkg (d h : Nat) (b : Block) : (s.setBlk d h b).pkg = s.pkg := rfl

/-! ### setQue -/

@[simp] theorem State.setQue_pending (g : Nat) (q : Queue) : (s.setQue g q).pending = s.pending := rfl
@[simp] theorem State.setQue_fresh (g : Nat) (q : Queue) : (s.setQue g q).fresh = s.fresh := rfl
@[simp] theorem State.setQue_variant (g : Nat) (q : Queue) : (s.setQue g q).variant = s.variant := rfl
@[simp] theorem State.setQue_stepping (g : Nat) (q : Queue) : (s.setQue g q).stepping = s.stepping := rfl
@[simp] theorem State.setQue_regs (g : Nat) (q : Queue) : (s.setQue g q).regs = s.regs := rfl
@[simp] theorem State.setQue_engs (g : Nat) (q : Queue) : (s.setQue g q).engs = s.engs := rfl
@[simp] theorem State.setQue_dies (g : Nat) (q : Queue) : (s.setQue g q).dies = s.dies := rfl
@[simp] theorem State.setQue_shm (g : Nat) (q : Queue) : (s.setQue g q).shm = s.shm := rfl
@[simp] theorem State.setQue_sbits (g : Nat) (q : Queue) : (s.setQue g q).sbits = s.sbits := rfl
@[simp] theorem State.setQue_blks (g : Nat) (q : Queue) : (s.setQue g q).blks = s.blks := rfl
@[simp] theorem State.setQue_qpA (g : Nat) (q : Queue) : (s.setQue g q).qpA = s.qpA := rfl
@[simp] theorem State.setQue_qpS (g : Nat) (q : Queue) : (s.setQue g q).qpS = s.qpS := rfl
@[simp] theorem State.setQue_flA (g : Nat) (q : Queue) : (s.setQue g q).flA = s.flA := rfl
@[simp] theorem State.setQue_flS (g : Nat) (q : Queue) : (s.setQue g q).flS = s.flS := rfl
@[simp] theorem State.setQue_flSt (g : Nat) (q : Queue) : (s.setQue g q).flSt = s.flSt := rfl
@[simp] theorem State.setQue_flViewS (g : Nat) (q : Queue) : (s.setQue g q).flViewS = s.flViewS := rfl
@[simp] theorem State.setQue_flView (g : Nat) (q : Queue) : (s.setQue g q).flView = s.flView := rfl
@[simp] theorem State.setQue_leaves (g : Nat) (q : Queue) : (s.setQue g q).leaves = s.leaves := rfl
@[simp] theorem State.setQue_fin (g : Nat) (q : Queue) : (s.setQue g q).fin = s.fin := rfl
@[simp] theorem State.setQue_events (g : Nat) (q : Queue) : (s.setQue g q).events = s.events := rfl
@[simp] theorem State.setQue_pkg (g : Nat) (q : Queue) : (s.setQue g q).pkg = s.pkg := rfl

/-! ### setFlowState -/

@[simp] theorem State.setFlowState_pending (g : Nat) (x : FlowS) : (s.setFlowState g x).pending = s.pending := rfl
@[simp] theorem State.setFlowState_fresh (g : Nat) (x : FlowS) : (s.setFlowState g x).fresh = s.fresh := rfl
@[simp] theorem State.setFlowState_variant (g : Nat) (x : FlowS) : (s.setFlowState g x).variant = s.variant := rfl
@[simp] theorem State.setFlowState_stepping (g : Nat) (x : FlowS) : (s.setFlowState g x).stepping = s.stepping := rfl
@[simp] theorem State.setFlowState_regs (g : Nat) (x : FlowS) : (s.setFlowState g x).regs = s.regs := rfl
@[simp] theorem State.setFlowState_engs (g : Nat) (x : FlowS) : (s.setFlowState g x).engs = s.engs := rfl
@[simp] theorem State.setFlowState_dies (g : Nat) (x : FlowS) : (s.setFlowState g x).dies = s.dies := rfl
@[simp] theorem State.setFlowState_shm (g : Nat) (x : FlowS) : (s.setFlowState g x).shm = s.shm := rfl
@[simp] theorem State.setFlowState_sbits (g : Nat) (x : FlowS) : (s.setFlowState g x).sbits = s.sbits := rfl
@[simp] theorem State.setFlowState_blks (g : Nat) (x : FlowS) : (s.setFlowState g x).blks = s.blks := rfl
@[simp] theorem State.setFlowState_ques (g : Nat) (x : FlowS) : (s.setFlowState g x).ques = s.ques := rfl
@[simp] theorem State.setFlowState_qpA (g : Nat) (x : FlowS) : (s.setFlowState g x).qpA = s.qpA := rfl
@[simp] theorem State.setFlowState_qpS (g : Nat) (x : FlowS) : (s.setFlowState g x).qpS = s.qpS := rfl
@[simp] theorem State.setFlowState_flA (g : Nat) (x : FlowS) : (s.setFlowState g x).flA = s.flA := rfl
@[simp] theorem State.setFlowState_flS (g : Nat) (x : FlowS) : (s.setFlowState g x).flS = s.flS := rfl
@[simp] theorem State.setFlowState_flViewS (g : Nat) (x : FlowS) : (s.setFlowState g x).flViewS = s.flViewS := rfl
@[simp] theorem State.setFlowState_flView (g : Nat) (x : FlowS) : (s.setFlowState g x).flView = s.flView := rfl
@[simp] theorem State.setFlowState_leaves (g : Nat) (x : FlowS) : (s.setFlowState g x).leaves = s.leaves := rfl
@[simp] theorem State.setFlowState_fin (g : Nat) (x : FlowS) : (s.setFlowState g x).fin = s.fin := rfl
@[simp] theorem State.setFlowState_events (g : Nat) (x : FlowS) : (s.setFlowState g x).events = s.events := rfl
@[simp] theorem State.setFlowState_pkg (g : Nat) (x : FlowS) : (s.setFlowState g x).pkg = s.pkg := rfl

/-! ### setPort -/

@[simp] theorem State.setPort_pending (k : Nat) (x : Port) : (s.setPort k x).pending = s.pending := rfl
@[simp] theorem State.setPort_fresh (k : Nat) (x : Port) : (s.setPort k x).fresh = s.fresh := rfl
@[simp] theorem State.setPort_variant (k : Nat) (x : Port) : (s.setPort k x).variant = s.variant := rfl
@[simp] theorem State.setPort_stepping (k : Nat) (x : Port) : (s.setPort k x).stepping = s.stepping := rfl
@[simp] theorem State.setPort_regs (k : Nat) (x : Port) : (s.setPort k x).regs = s.regs := rfl
@[simp] theorem State.setPort_engs (k : Nat) (x : Port) : (s.setPort k x).engs = s.engs := rfl
@[simp] theorem State.setPort_dies (k : Nat) (x : Port) : (s.setPort k x).dies = s.dies := rfl
@[simp] theorem State.setPort_shm (k : Nat) (x : Port) : (s.setPort k x).shm = s.shm := rfl
@[simp] theorem State.setPort_sbits (k : Nat) (x : Port) : (s.setPort k x).sbits = s.sbits := rfl
@[simp] theorem State.setPort_blks (k : Nat) (x : Port) : (s.setPort k x).blks = s.blks := rfl
@[simp] theorem State.setPort_ques (k : Nat) (x : Port) : (s.setPort k x).ques = s.ques := rfl
@[simp] theorem State.setPort_qpA (k : Nat) (x : Port) : (s.setPort k x).qpA = s.qpA := rfl
@[simp] theorem State.setPort_qpS (k : Nat) (x : Port) : (s.setPort k x).qpS = s.qpS := rfl
@[simp] theorem State.setPort_flA (k : Nat) (x : Port) : (s.setPort k x).flA = s.flA := rfl
@[simp] theorem State.setPort_flS (k : Nat) (x : Port) : (s.setPort k x).flS = s.flS := rfl
@[simp] theorem State.setPort_flSt (k : Nat) (x : Port) : (s.setPort k x).flSt = s.flSt := rfl
@[simp] theorem State.setPort_flViewS (k : Nat) (x : Port) : (s.setPort k x).flViewS = s.flViewS := rfl
@[simp] theorem State.setPort_flView (k : Nat) (x : Port) : (s.setPort k x).flView = s.flView := rfl
@[simp] theorem State.setPort_leaves (k : Nat) (x : Port) : (s.setPort k x).leaves = s.leaves := rfl
@[simp] theorem State.setPort_fin (k : Nat) (x : Port) : (s.setPort k x).fin = s.fin := rfl
@[simp] theorem State.setPort_events (k : Nat) (x : Port) : (s.setPort k x).events = s.events := rfl

/-! ### updPort -/

@[simp] theorem State.updPort_pending (k : Nat) (f : Port → Port) : (s.updPort k f).pending = s.pending := rfl
@[simp] theorem State.updPort_fresh (k : Nat) (f : Port → Port) : (s.updPort k f).fresh = s.fresh := rfl
@[simp] theorem State.updPort_variant (k : Nat) (f : Port → Port) : (s.updPort k f).variant = s.variant := rfl
@[simp] theorem State.updPort_stepping (k : Nat) (f : Port → Port) : (s.updPort k f).stepping = s.stepping := rfl
@[simp] theorem State.updPort_regs (k : Nat) (f : Port → Port) : (s.updPort k f).regs = s.regs := rfl
@[simp] theorem State.updPort_engs (k : Nat) (f : Port → Port) : (s.updPort k f).engs = s.engs := rfl
@[simp] theorem State.updPort_dies (k : Nat) (f : Port → Port) : (s.updPort k f).dies = s.dies := rfl
@[simp] theorem State.updPort_shm (k : Nat) (f : Port → Port) : (s.updPort k f).shm = s.shm := rfl
@[simp] theorem State.updPort_sbits (k : Nat) (f : Port → Port) : (s.updPort k f).sbits = s.sbits := rfl
@[simp] theorem State.updPort_blks (k : Nat) (f : Port → Port) : (s.updPort k f).blks = s.blks := rfl
@[simp] theorem State.updPort_ques (k : Nat) (f : Port → Port) : (s.updPort k f).ques = s.ques := rfl
@[simp] theorem State.updPort_qpA (k : Nat) (f : Port → Port) : (s.updPort k f).qpA = s.qpA := rfl
@[simp] theorem State.updPort_qpS (k : Nat) (f : Port → Port) : (s.updPort k f).qpS = s.qpS := rfl
@[simp] theorem State.updPort_flA (k : Nat) (f : Port → Port) : (s.updPort k f).flA = s.flA := rfl
@[simp] theorem State.updPort_flS (k : Nat) (f : Port → Port) : (s.updPort k f).flS = s.flS := rfl
@[simp] theorem State.updPort_flSt (k : Nat) (f : Port → Port) : (s.updPort k f).flSt = s.flSt := rfl
@[simp] theorem State.updPort_flViewS (k : Nat) (f : Port → Port) : (s.updPort k f).flViewS = s.flViewS := rfl
@[simp] theorem State.updPort_flView (k : Nat) (f : Port → Port) : (s.updPort k f).flView = s.flView := rfl
@[simp] theorem State.updPort_leaves (k : Nat) (f : Port → Port) : (s.updPort k f).leaves = s.leaves := rfl
@[simp] theorem State.updPort_fin (k : Nat) (f : Port → Port) : (s.updPort k f).fin = s.fin := rfl
@[simp] theorem State.updPort_events (k : Nat) (f : Port → Port) : (s.updPort k f).events = s.events := rfl

/-! ### updRing -/

@[simp] theorem State.updRing_pending (k r : Nat) (f : Ring → Ring) : (s.updRing k r f).pending = s.pending := rfl
@[simp] theorem State.updRing_fresh (k r : Nat) (f : Ring → Ring) : (s.updRing k r f).fresh = s.fresh := rfl
@[simp] theorem State.updRing_variant (k r : Nat) (f : Ring → Ring) : (s.updRing k r f).variant = s.variant := rfl
@[simp] theorem State.updRing_stepping (k r : Nat) (f : Ring → Ring) : (s.updRing k r f).stepping = s.stepping := rfl
@[simp] theorem State.updRing_regs (k r : Nat) (f : Ring → Ring) : (s.updRing k r f).regs = s.regs := rfl
@[simp] theorem State.updRing_engs (k r : Nat) (f : Ring → Ring) : (s.updRing k r f).engs = s.engs := rfl
@[simp] theorem State.updRing_dies (k r : Nat) (f : Ring → Ring) : (s.updRing k r f).dies = s.dies := rfl
@[simp] theorem State.updRing_shm (k r : Nat) (f : Ring → Ring) : (s.updRing k r f).shm = s.shm := rfl
@[simp] theorem State.updRing_sbits (k r : Nat) (f : Ring → Ring) : (s.updRing k r f).sbits = s.sbits := rfl
@[simp] theorem State.updRing_blks (k r : Nat) (f : Ring → Ring) : (s.updRing k r f).blks = s.blks := rfl
@[simp] theorem State.updRing_ques (k r : Nat) (f : Ring → Ring) : (s.updRing k r f).ques = s.ques := rfl
@[simp] theorem State.updRing_qpA (k r : Nat) (f : Ring → Ring) : (s.updRing k r f).qpA = s.qpA := rfl
@[simp] theorem State.updRing_qpS (k r : Nat) (f : Ring → Ring) : (s.updRing k r f).qpS = s.qpS := rfl
@[simp] theorem State.updRing_flA (k r : Nat) (f : Ring → Ring) : (s.updRing k r f).flA = s.flA := rfl
@[simp] theorem State.updRing_flS (k r : Nat) (f : Ring → Ring) : (s.updRing k r f).flS = s.flS := rfl
@[simp] theorem State.updRing_flSt (k r : Nat) (f : Ring → Ring) : (s.updRing k r f).flSt = s.flSt := rfl
@[simp] theorem State.updRing_flViewS (k r : Nat) (f : Ring → Ring) : (s.updRing k r f).flViewS = s.flViewS := rfl
@[simp] theorem State.updRing_flView (k r : Nat) (f : Ring → Ring) : (s.updRing k r f).flView = s.flView := rfl
@[simp] theorem State.updRing_leaves (k r : Nat) (f : Ring → Ring) : (s.updRing k r f).leaves = s.leaves := rfl
@[simp] theorem State.updRing_fin (k r : Nat) (f : Ring → Ring) : (s.updRing k r f).fin = s.fin := rfl
@[simp] theorem State.updRing_events (k r : Nat) (f : Ring → Ring) : (s.updRing k r f).events = s.events := rfl

/-! ### emit -/

@[simp] theorem State.emit_pending (k : Nat) (w : Sent) : (s.emit k w).pending = s.pending := rfl
@[simp] theorem State.emit_fresh (k : Nat) (w : Sent) : (s.emit k w).fresh = s.fresh := rfl
@[simp] theorem State.emit_variant (k : Nat) (w : Sent) : (s.emit k w).variant = s.variant := rfl
@[simp] theorem State.emit_stepping (k : Nat) (w : Sent) : (s.emit k w).stepping = s.stepping := rfl
@[simp] theorem State.emit_regs (k : Nat) (w : Sent) : (s.emit k w).regs = s.regs := rfl
@[simp] theorem State.emit_engs (k : Nat) (w : Sent) : (s.emit k w).engs = s.engs := rfl
@[simp] theorem State.emit_dies (k : Nat) (w : Sent) : (s.emit k w).dies = s.dies := rfl
@[simp] theorem State.emit_shm (k : Nat) (w : Sent) : (s.emit k w).shm = s.shm := rfl
@[simp] theorem State.emit_sbits (k : Nat) (w : Sent) : (s.emit k w).sbits = s.sbits := rfl
@[simp] theorem State.emit_blks (k : Nat) (w : Sent) : (s.emit k w).blks = s.blks := rfl
@[simp] theorem State.emit_ques (k : Nat) (w : Sent) : (s.emit k w).ques = s.ques := rfl
@[simp] theorem State.emit_qpA (k : Nat) (w : Sent) : (s.emit k w).qpA = s.qpA := rfl
@[simp] theorem State.emit_qpS (k : Nat) (w : Sent) : (s.emit k w).qpS = s.qpS := rfl
@[simp] theorem State.emit_flA (k : Nat) (w : Sent) : (s.emit k w).flA = s.flA := rfl
@[simp] theorem State.emit_flS (k : Nat) (w : Sent) : (s.emit k w).flS = s.flS := rfl
@[simp] theorem State.emit_flSt (k : Nat) (w : Sent) : (s.emit k w).flSt = s.flSt := rfl
@[simp] theorem State.emit_flViewS (k : Nat) (w : Sent) : (s.emit k w).flViewS = s.flViewS := rfl
@[simp] theorem State.emit_flView (k : Nat) (w : Sent) : (s.emit k w).flView = s.flView := rfl
@[simp] theorem State.emit_leaves (k : Nat) (w : Sent) : (s.emit k w).leaves = s.leaves := rfl
@[simp] theorem State.emit_fin (k : Nat) (w : Sent) : (s.emit k w).fin = s.fin := rfl
@[simp] theorem State.emit_events (k : Nat) (w : Sent) : (s.emit k w).events = s.events := rfl

/-! ### setBoot -/

@[simp] theorem State.setBoot_pending (b : Boot) : (s.setBoot b).pending = s.pending := rfl
@[simp] theorem State.setBoot_fresh (b : Boot) : (s.setBoot b).fresh = s.fresh := rfl
@[simp] theorem State.setBoot_variant (b : Boot) : (s.setBoot b).variant = s.variant := rfl
@[simp] theorem State.setBoot_stepping (b : Boot) : (s.setBoot b).stepping = s.stepping := rfl
@[simp] theorem State.setBoot_regs (b : Boot) : (s.setBoot b).regs = s.regs := rfl
@[simp] theorem State.setBoot_engs (b : Boot) : (s.setBoot b).engs = s.engs := rfl
@[simp] theorem State.setBoot_dies (b : Boot) : (s.setBoot b).dies = s.dies := rfl
@[simp] theorem State.setBoot_shm (b : Boot) : (s.setBoot b).shm = s.shm := rfl
@[simp] theorem State.setBoot_sbits (b : Boot) : (s.setBoot b).sbits = s.sbits := rfl
@[simp] theorem State.setBoot_blks (b : Boot) : (s.setBoot b).blks = s.blks := rfl
@[simp] theorem State.setBoot_ques (b : Boot) : (s.setBoot b).ques = s.ques := rfl
@[simp] theorem State.setBoot_qpA (b : Boot) : (s.setBoot b).qpA = s.qpA := rfl
@[simp] theorem State.setBoot_qpS (b : Boot) : (s.setBoot b).qpS = s.qpS := rfl
@[simp] theorem State.setBoot_flA (b : Boot) : (s.setBoot b).flA = s.flA := rfl
@[simp] theorem State.setBoot_flS (b : Boot) : (s.setBoot b).flS = s.flS := rfl
@[simp] theorem State.setBoot_flSt (b : Boot) : (s.setBoot b).flSt = s.flSt := rfl
@[simp] theorem State.setBoot_flViewS (b : Boot) : (s.setBoot b).flViewS = s.flViewS := rfl
@[simp] theorem State.setBoot_flView (b : Boot) : (s.setBoot b).flView = s.flView := rfl
@[simp] theorem State.setBoot_leaves (b : Boot) : (s.setBoot b).leaves = s.leaves := rfl
@[simp] theorem State.setBoot_fin (b : Boot) : (s.setBoot b).fin = s.fin := rfl
@[simp] theorem State.setBoot_events (b : Boot) : (s.setBoot b).events = s.events := rfl

/-! ### updNode -/

@[simp] theorem State.updNode_pending (d n : Nat) (f : FinNode → FinNode) : (s.updNode d n f).pending = s.pending := rfl
@[simp] theorem State.updNode_fresh (d n : Nat) (f : FinNode → FinNode) : (s.updNode d n f).fresh = s.fresh := rfl
@[simp] theorem State.updNode_variant (d n : Nat) (f : FinNode → FinNode) : (s.updNode d n f).variant = s.variant := rfl
@[simp] theorem State.updNode_stepping (d n : Nat) (f : FinNode → FinNode) : (s.updNode d n f).stepping = s.stepping := rfl
@[simp] theorem State.updNode_regs (d n : Nat) (f : FinNode → FinNode) : (s.updNode d n f).regs = s.regs := rfl
@[simp] theorem State.updNode_engs (d n : Nat) (f : FinNode → FinNode) : (s.updNode d n f).engs = s.engs := rfl
@[simp] theorem State.updNode_dies (d n : Nat) (f : FinNode → FinNode) : (s.updNode d n f).dies = s.dies := rfl
@[simp] theorem State.updNode_shm (d n : Nat) (f : FinNode → FinNode) : (s.updNode d n f).shm = s.shm := rfl
@[simp] theorem State.updNode_sbits (d n : Nat) (f : FinNode → FinNode) : (s.updNode d n f).sbits = s.sbits := rfl
@[simp] theorem State.updNode_blks (d n : Nat) (f : FinNode → FinNode) : (s.updNode d n f).blks = s.blks := rfl
@[simp] theorem State.updNode_ques (d n : Nat) (f : FinNode → FinNode) : (s.updNode d n f).ques = s.ques := rfl
@[simp] theorem State.updNode_qpA (d n : Nat) (f : FinNode → FinNode) : (s.updNode d n f).qpA = s.qpA := rfl
@[simp] theorem State.updNode_qpS (d n : Nat) (f : FinNode → FinNode) : (s.updNode d n f).qpS = s.qpS := rfl
@[simp] theorem State.updNode_flA (d n : Nat) (f : FinNode → FinNode) : (s.updNode d n f).flA = s.flA := rfl
@[simp] theorem State.updNode_flS (d n : Nat) (f : FinNode → FinNode) : (s.updNode d n f).flS = s.flS := rfl
@[simp] theorem State.updNode_flSt (d n : Nat) (f : FinNode → FinNode) : (s.updNode d n f).flSt = s.flSt := rfl
@[simp] theorem State.updNode_flViewS (d n : Nat) (f : FinNode → FinNode) : (s.updNode d n f).flViewS = s.flViewS := rfl
@[simp] theorem State.updNode_flView (d n : Nat) (f : FinNode → FinNode) : (s.updNode d n f).flView = s.flView := rfl
@[simp] theorem State.updNode_leaves (d n : Nat) (f : FinNode → FinNode) : (s.updNode d n f).leaves = s.leaves := rfl
@[simp] theorem State.updNode_events (d n : Nat) (f : FinNode → FinNode) : (s.updNode d n f).events = s.events := rfl
@[simp] theorem State.updNode_pkg (d n : Nat) (f : FinNode → FinNode) : (s.updNode d n f).pkg = s.pkg := rfl

/-! ### updFin -/

@[simp] theorem State.updFin_pending (d : Nat) (f : FinRing → FinRing) : (s.updFin d f).pending = s.pending := rfl
@[simp] theorem State.updFin_fresh (d : Nat) (f : FinRing → FinRing) : (s.updFin d f).fresh = s.fresh := rfl
@[simp] theorem State.updFin_variant (d : Nat) (f : FinRing → FinRing) : (s.updFin d f).variant = s.variant := rfl
@[simp] theorem State.updFin_stepping (d : Nat) (f : FinRing → FinRing) : (s.updFin d f).stepping = s.stepping := rfl
@[simp] theorem State.updFin_regs (d : Nat) (f : FinRing → FinRing) : (s.updFin d f).regs = s.regs := rfl
@[simp] theorem State.updFin_engs (d : Nat) (f : FinRing → FinRing) : (s.updFin d f).engs = s.engs := rfl
@[simp] theorem State.updFin_shm (d : Nat) (f : FinRing → FinRing) : (s.updFin d f).shm = s.shm := rfl
@[simp] theorem State.updFin_sbits (d : Nat) (f : FinRing → FinRing) : (s.updFin d f).sbits = s.sbits := rfl
@[simp] theorem State.updFin_blks (d : Nat) (f : FinRing → FinRing) : (s.updFin d f).blks = s.blks := rfl
@[simp] theorem State.updFin_ques (d : Nat) (f : FinRing → FinRing) : (s.updFin d f).ques = s.ques := rfl
@[simp] theorem State.updFin_qpA (d : Nat) (f : FinRing → FinRing) : (s.updFin d f).qpA = s.qpA := rfl
@[simp] theorem State.updFin_qpS (d : Nat) (f : FinRing → FinRing) : (s.updFin d f).qpS = s.qpS := rfl
@[simp] theorem State.updFin_flA (d : Nat) (f : FinRing → FinRing) : (s.updFin d f).flA = s.flA := rfl
@[simp] theorem State.updFin_flS (d : Nat) (f : FinRing → FinRing) : (s.updFin d f).flS = s.flS := rfl
@[simp] theorem State.updFin_flSt (d : Nat) (f : FinRing → FinRing) : (s.updFin d f).flSt = s.flSt := rfl
@[simp] theorem State.updFin_flViewS (d : Nat) (f : FinRing → FinRing) : (s.updFin d f).flViewS = s.flViewS := rfl
@[simp] theorem State.updFin_flView (d : Nat) (f : FinRing → FinRing) : (s.updFin d f).flView = s.flView := rfl
@[simp] theorem State.updFin_leaves (d : Nat) (f : FinRing → FinRing) : (s.updFin d f).leaves = s.leaves := rfl
@[simp] theorem State.updFin_fin (d : Nat) (f : FinRing → FinRing) : (s.updFin d f).fin = s.fin := rfl
@[simp] theorem State.updFin_events (d : Nat) (f : FinRing → FinRing) : (s.updFin d f).events = s.events := rfl
@[simp] theorem State.updFin_pkg (d : Nat) (f : FinRing → FinRing) : (s.updFin d f).pkg = s.pkg := rfl

/-! ### updLink -/

@[simp] theorem State.updLink_pending (d k : Nat) (f : Link → Link) : (s.updLink d k f).pending = s.pending := rfl
@[simp] theorem State.updLink_fresh (d k : Nat) (f : Link → Link) : (s.updLink d k f).fresh = s.fresh := rfl
@[simp] theorem State.updLink_variant (d k : Nat) (f : Link → Link) : (s.updLink d k f).variant = s.variant := rfl
@[simp] theorem State.updLink_stepping (d k : Nat) (f : Link → Link) : (s.updLink d k f).stepping = s.stepping := rfl
@[simp] theorem State.updLink_regs (d k : Nat) (f : Link → Link) : (s.updLink d k f).regs = s.regs := rfl
@[simp] theorem State.updLink_engs (d k : Nat) (f : Link → Link) : (s.updLink d k f).engs = s.engs := rfl
@[simp] theorem State.updLink_shm (d k : Nat) (f : Link → Link) : (s.updLink d k f).shm = s.shm := rfl
@[simp] theorem State.updLink_sbits (d k : Nat) (f : Link → Link) : (s.updLink d k f).sbits = s.sbits := rfl
@[simp] theorem State.updLink_blks (d k : Nat) (f : Link → Link) : (s.updLink d k f).blks = s.blks := rfl
@[simp] theorem State.updLink_ques (d k : Nat) (f : Link → Link) : (s.updLink d k f).ques = s.ques := rfl
@[simp] theorem State.updLink_qpA (d k : Nat) (f : Link → Link) : (s.updLink d k f).qpA = s.qpA := rfl
@[simp] theorem State.updLink_qpS (d k : Nat) (f : Link → Link) : (s.updLink d k f).qpS = s.qpS := rfl
@[simp] theorem State.updLink_flA (d k : Nat) (f : Link → Link) : (s.updLink d k f).flA = s.flA := rfl
@[simp] theorem State.updLink_flS (d k : Nat) (f : Link → Link) : (s.updLink d k f).flS = s.flS := rfl
@[simp] theorem State.updLink_flSt (d k : Nat) (f : Link → Link) : (s.updLink d k f).flSt = s.flSt := rfl
@[simp] theorem State.updLink_flViewS (d k : Nat) (f : Link → Link) : (s.updLink d k f).flViewS = s.flViewS := rfl
@[simp] theorem State.updLink_flView (d k : Nat) (f : Link → Link) : (s.updLink d k f).flView = s.flView := rfl
@[simp] theorem State.updLink_leaves (d k : Nat) (f : Link → Link) : (s.updLink d k f).leaves = s.leaves := rfl
@[simp] theorem State.updLink_fin (d k : Nat) (f : Link → Link) : (s.updLink d k f).fin = s.fin := rfl
@[simp] theorem State.updLink_events (d k : Nat) (f : Link → Link) : (s.updLink d k f).events = s.events := rfl
@[simp] theorem State.updLink_pkg (d k : Nat) (f : Link → Link) : (s.updLink d k f).pkg = s.pkg := rfl

/-! ### updTdm -/

@[simp] theorem State.updTdm_pending (d k : Nat) (f : Tdm → Tdm) : (s.updTdm d k f).pending = s.pending := rfl
@[simp] theorem State.updTdm_fresh (d k : Nat) (f : Tdm → Tdm) : (s.updTdm d k f).fresh = s.fresh := rfl
@[simp] theorem State.updTdm_variant (d k : Nat) (f : Tdm → Tdm) : (s.updTdm d k f).variant = s.variant := rfl
@[simp] theorem State.updTdm_stepping (d k : Nat) (f : Tdm → Tdm) : (s.updTdm d k f).stepping = s.stepping := rfl
@[simp] theorem State.updTdm_regs (d k : Nat) (f : Tdm → Tdm) : (s.updTdm d k f).regs = s.regs := rfl
@[simp] theorem State.updTdm_engs (d k : Nat) (f : Tdm → Tdm) : (s.updTdm d k f).engs = s.engs := rfl
@[simp] theorem State.updTdm_shm (d k : Nat) (f : Tdm → Tdm) : (s.updTdm d k f).shm = s.shm := rfl
@[simp] theorem State.updTdm_sbits (d k : Nat) (f : Tdm → Tdm) : (s.updTdm d k f).sbits = s.sbits := rfl
@[simp] theorem State.updTdm_blks (d k : Nat) (f : Tdm → Tdm) : (s.updTdm d k f).blks = s.blks := rfl
@[simp] theorem State.updTdm_ques (d k : Nat) (f : Tdm → Tdm) : (s.updTdm d k f).ques = s.ques := rfl
@[simp] theorem State.updTdm_qpA (d k : Nat) (f : Tdm → Tdm) : (s.updTdm d k f).qpA = s.qpA := rfl
@[simp] theorem State.updTdm_qpS (d k : Nat) (f : Tdm → Tdm) : (s.updTdm d k f).qpS = s.qpS := rfl
@[simp] theorem State.updTdm_flA (d k : Nat) (f : Tdm → Tdm) : (s.updTdm d k f).flA = s.flA := rfl
@[simp] theorem State.updTdm_flS (d k : Nat) (f : Tdm → Tdm) : (s.updTdm d k f).flS = s.flS := rfl
@[simp] theorem State.updTdm_flSt (d k : Nat) (f : Tdm → Tdm) : (s.updTdm d k f).flSt = s.flSt := rfl
@[simp] theorem State.updTdm_flViewS (d k : Nat) (f : Tdm → Tdm) : (s.updTdm d k f).flViewS = s.flViewS := rfl
@[simp] theorem State.updTdm_flView (d k : Nat) (f : Tdm → Tdm) : (s.updTdm d k f).flView = s.flView := rfl
@[simp] theorem State.updTdm_leaves (d k : Nat) (f : Tdm → Tdm) : (s.updTdm d k f).leaves = s.leaves := rfl
@[simp] theorem State.updTdm_fin (d k : Nat) (f : Tdm → Tdm) : (s.updTdm d k f).fin = s.fin := rfl
@[simp] theorem State.updTdm_events (d k : Nat) (f : Tdm → Tdm) : (s.updTdm d k f).events = s.events := rfl
@[simp] theorem State.updTdm_pkg (d k : Nat) (f : Tdm → Tdm) : (s.updTdm d k f).pkg = s.pkg := rfl

/-! ### updTmu -/

@[simp] theorem State.updTmu_pending (d c : Nat) (f : Tmu → Tmu) : (s.updTmu d c f).pending = s.pending := rfl
@[simp] theorem State.updTmu_fresh (d c : Nat) (f : Tmu → Tmu) : (s.updTmu d c f).fresh = s.fresh := rfl
@[simp] theorem State.updTmu_variant (d c : Nat) (f : Tmu → Tmu) : (s.updTmu d c f).variant = s.variant := rfl
@[simp] theorem State.updTmu_stepping (d c : Nat) (f : Tmu → Tmu) : (s.updTmu d c f).stepping = s.stepping := rfl
@[simp] theorem State.updTmu_regs (d c : Nat) (f : Tmu → Tmu) : (s.updTmu d c f).regs = s.regs := rfl
@[simp] theorem State.updTmu_engs (d c : Nat) (f : Tmu → Tmu) : (s.updTmu d c f).engs = s.engs := rfl
@[simp] theorem State.updTmu_shm (d c : Nat) (f : Tmu → Tmu) : (s.updTmu d c f).shm = s.shm := rfl
@[simp] theorem State.updTmu_sbits (d c : Nat) (f : Tmu → Tmu) : (s.updTmu d c f).sbits = s.sbits := rfl
@[simp] theorem State.updTmu_blks (d c : Nat) (f : Tmu → Tmu) : (s.updTmu d c f).blks = s.blks := rfl
@[simp] theorem State.updTmu_ques (d c : Nat) (f : Tmu → Tmu) : (s.updTmu d c f).ques = s.ques := rfl
@[simp] theorem State.updTmu_qpA (d c : Nat) (f : Tmu → Tmu) : (s.updTmu d c f).qpA = s.qpA := rfl
@[simp] theorem State.updTmu_qpS (d c : Nat) (f : Tmu → Tmu) : (s.updTmu d c f).qpS = s.qpS := rfl
@[simp] theorem State.updTmu_flA (d c : Nat) (f : Tmu → Tmu) : (s.updTmu d c f).flA = s.flA := rfl
@[simp] theorem State.updTmu_flS (d c : Nat) (f : Tmu → Tmu) : (s.updTmu d c f).flS = s.flS := rfl
@[simp] theorem State.updTmu_flSt (d c : Nat) (f : Tmu → Tmu) : (s.updTmu d c f).flSt = s.flSt := rfl
@[simp] theorem State.updTmu_flViewS (d c : Nat) (f : Tmu → Tmu) : (s.updTmu d c f).flViewS = s.flViewS := rfl
@[simp] theorem State.updTmu_flView (d c : Nat) (f : Tmu → Tmu) : (s.updTmu d c f).flView = s.flView := rfl
@[simp] theorem State.updTmu_leaves (d c : Nat) (f : Tmu → Tmu) : (s.updTmu d c f).leaves = s.leaves := rfl
@[simp] theorem State.updTmu_fin (d c : Nat) (f : Tmu → Tmu) : (s.updTmu d c f).fin = s.fin := rfl
@[simp] theorem State.updTmu_events (d c : Nat) (f : Tmu → Tmu) : (s.updTmu d c f).events = s.events := rfl
@[simp] theorem State.updTmu_pkg (d c : Nat) (f : Tmu → Tmu) : (s.updTmu d c f).pkg = s.pkg := rfl

/-! ### updPanel -/

@[simp] theorem State.updPanel_pending (k : Nat) (f : Panel → Panel) : (s.updPanel k f).pending = s.pending := rfl
@[simp] theorem State.updPanel_fresh (k : Nat) (f : Panel → Panel) : (s.updPanel k f).fresh = s.fresh := rfl
@[simp] theorem State.updPanel_variant (k : Nat) (f : Panel → Panel) : (s.updPanel k f).variant = s.variant := rfl
@[simp] theorem State.updPanel_stepping (k : Nat) (f : Panel → Panel) : (s.updPanel k f).stepping = s.stepping := rfl
@[simp] theorem State.updPanel_regs (k : Nat) (f : Panel → Panel) : (s.updPanel k f).regs = s.regs := rfl
@[simp] theorem State.updPanel_engs (k : Nat) (f : Panel → Panel) : (s.updPanel k f).engs = s.engs := rfl
@[simp] theorem State.updPanel_shm (k : Nat) (f : Panel → Panel) : (s.updPanel k f).shm = s.shm := rfl
@[simp] theorem State.updPanel_sbits (k : Nat) (f : Panel → Panel) : (s.updPanel k f).sbits = s.sbits := rfl
@[simp] theorem State.updPanel_blks (k : Nat) (f : Panel → Panel) : (s.updPanel k f).blks = s.blks := rfl
@[simp] theorem State.updPanel_ques (k : Nat) (f : Panel → Panel) : (s.updPanel k f).ques = s.ques := rfl
@[simp] theorem State.updPanel_qpA (k : Nat) (f : Panel → Panel) : (s.updPanel k f).qpA = s.qpA := rfl
@[simp] theorem State.updPanel_qpS (k : Nat) (f : Panel → Panel) : (s.updPanel k f).qpS = s.qpS := rfl
@[simp] theorem State.updPanel_flA (k : Nat) (f : Panel → Panel) : (s.updPanel k f).flA = s.flA := rfl
@[simp] theorem State.updPanel_flS (k : Nat) (f : Panel → Panel) : (s.updPanel k f).flS = s.flS := rfl
@[simp] theorem State.updPanel_flSt (k : Nat) (f : Panel → Panel) : (s.updPanel k f).flSt = s.flSt := rfl
@[simp] theorem State.updPanel_flViewS (k : Nat) (f : Panel → Panel) : (s.updPanel k f).flViewS = s.flViewS := rfl
@[simp] theorem State.updPanel_flView (k : Nat) (f : Panel → Panel) : (s.updPanel k f).flView = s.flView := rfl
@[simp] theorem State.updPanel_leaves (k : Nat) (f : Panel → Panel) : (s.updPanel k f).leaves = s.leaves := rfl
@[simp] theorem State.updPanel_fin (k : Nat) (f : Panel → Panel) : (s.updPanel k f).fin = s.fin := rfl
@[simp] theorem State.updPanel_events (k : Nat) (f : Panel → Panel) : (s.updPanel k f).events = s.events := rfl
@[simp] theorem State.updPanel_pkg (k : Nat) (f : Panel → Panel) : (s.updPanel k f).pkg = s.pkg := rfl

end Sys2Proof.Machine
end

