-- ==== Sys2Proof/Laws/Ops.lean ====
section
/-! SUPPORT. What each shared operation over registers, engines, dies, memory and tables does: what it writes reads back, what it does
not name is unchanged, and every memory operation keeps the canonical form of the memory. -/

namespace Sys2Proof.Machine

variable (s : State)

/-! ### Fields of a register -/

theorem field_lt (v : W32) (hi lo : Nat) : field v hi lo < 2 ^ (hi + 1 - lo) := by
  simp only [field]
  exact Nat.mod_lt _ (Nat.two_pow_pos _)

/-! ### Registers -/

@[simp] theorem State.reg_setReg (r : RegName) (d : Nat) (i : List Nat) (v : W32) : (s.setReg r d i v).reg r d i = v := by
  simp [State.reg, State.setReg]

@[simp] theorem State.act_setAct (r : RegName) (d : Nat) (i : List Nat) (v : W32) : (s.setAct r d i v).act r d i = v := by
  simp [State.act, State.setAct]

/-- A write of one register leaves every register at another cell alone. -/
theorem State.reg_setReg_other (r q : RegName) (d e : Nat) (i j : List Nat) (v : W32) (h : r.cell d i ≠ q.cell e j) :
    (s.setReg r d i v).reg q e j = s.reg q e j := Store.get_set_other _ _ _ _ h

theorem State.act_setAct_other (r q : RegName) (d e : Nat) (i j : List Nat) (v : W32) (h : r.cell d i ≠ q.cell e j) :
    (s.setAct r d i v).act q e j = s.act q e j := Store.get_set_other _ _ _ _ (by omega)

/-- A write of the shadow copy leaves active copies alone, where no active cell is the shadow cell. -/
theorem State.act_setReg_other (r q : RegName) (d e : Nat) (i j : List Nat) (v : W32) (h : r.cell d i ≠ q.cell e j + 0x8000) :
    (s.setReg r d i v).act q e j = s.act q e j := Store.get_set_other _ _ _ _ h

theorem State.reg_setF_other (x : Fld) (q : RegName) (d e : Nat) (i j : List Nat) (v : Nat) (h : x.reg.cell d i ≠ q.cell e j) :
    (s.setF x d i v).reg q e j = s.reg q e j := s.reg_setReg_other _ _ _ _ _ _ _ h

/-- A field of a register at another cell is unchanged. -/
theorem State.f_setF_other (x y : Fld) (d e : Nat) (i j : List Nat) (v : Nat) (h : x.reg.cell d i ≠ y.reg.cell e j) :
    (s.setF x d i v).f y e j = s.f y e j := by
  simp only [State.f, s.reg_setF_other x y.reg d e i j v h]

/-! ### Engines, dies and ports -/

@[simp] theorem State.eng_setEng_same (d e : Nat) (x : Eng) : (s.setEng d e x).eng d e = x := by simp [State.eng, State.setEng]

theorem State.eng_setEng_ne (d e i j : Nat) (x : Eng) (h : 64 * d + e ≠ 64 * i + j) : (s.setEng d e x).eng i j = s.eng i j :=
  Store.get_set_other _ _ _ _ h

@[simp] theorem State.die_setDie (d : Nat) (x : Die) : (s.setDie d x).die d = x := by simp [State.die, State.setDie]

theorem State.die_setDie_ne (d e : Nat) (x : Die) (h : d ≠ e) : (s.setDie d x).die e = s.die e := Store.get_set_other _ _ _ _ h

@[simp] theorem State.port_setPort (k : Nat) (x : Port) : (s.setPort k x).port k = x := by simp [State.port, State.setPort]

theorem State.port_setPort_ne (k j : Nat) (x : Port) (h : k ≠ j) : (s.setPort k x).port j = s.port j := Store.get_set_other _ _ _ _ h

/-! ### Blocks, queues and flow state -/

@[simp] theorem State.blk_setBlk (d h : Nat) (b : Block) : (s.setBlk d h b).blk d h = b := by simp [State.blk, State.setBlk]

@[simp] theorem State.que_setQue (g : Nat) (q : Queue) : (s.setQue g q).que g = q := by simp [State.que, State.setQue]

theorem State.que_setQue_ne (g k : Nat) (q : Queue) (h : g ≠ k) : (s.setQue g q).que k = s.que k := Store.get_set_other _ _ _ _ h

@[simp] theorem State.flowState_setFlowState (g : Nat) (x : FlowS) : (s.setFlowState g x).flowState g = x := by
  simp [State.flowState, State.setFlowState]

/-! ### Package memory -/

@[simp] theorem State.word_setWord (pa : Nat) (v : Stored) : (s.setWord pa v).word pa = v := by simp [State.word, State.setWord]

theorem State.word_setWord_ne (pa q : Nat) (v : Stored) (h : pa ≠ q) : (s.setWord pa v).word q = s.word q := Store.get_set_other _ _ _ _ h

theorem State.wf_setWord (pa : Nat) (v : Stored) (h : Memory.wf s.shm = true) : Memory.wf (s.setWord pa v).shm = true :=
  Store.wf_set _ _ _ _ h

theorem State.wf_putWord (pa : Nat) (v : Stored) (h : Memory.wf s.shm = true) : Memory.wf (s.putWord pa v).shm = true := by
  unfold State.putWord
  have := s.wf_setWord pa v h
  dsimp only
  split
  · exact State.wf_setWord _ _ _ this
  · exact this

theorem State.wf_putWords (ws : List W18) (s : State) (pa : Nat) (h : Memory.wf s.shm = true) : Memory.wf (s.putWords pa ws).shm = true := by
  induction ws generalizing s pa with
  | nil => exact h
  | cons w ws ih => exact ih _ _ (s.wf_putWord pa (enc18 w) h)

/-- Noting an error changes no word. -/
@[simp] theorem State.shm_colErrAt (pa : Nat) : (s.colErrAt pa).shm = s.shm := by
  unfold State.colErrAt
  split <;> rfl

/-- A repair from the twin changes one word. -/
theorem State.wf_fixWord (pa : Nat) (h : Memory.wf s.shm = true) : Memory.wf (s.fixWord pa).1.shm = true := by
  unfold State.fixWord
  dsimp only
  repeat' split
  all_goals first | exact h | exact s.wf_setWord _ _ h

/-- A read changes the memory only where it repairs a word from the twin. -/
theorem State.wf_readWord (pa : Nat) (h : Memory.wf s.shm = true) : Memory.wf (s.readWord pa).1.shm = true := by
  unfold State.readWord
  split
  · exact s.wf_fixWord pa h
  · exact State.wf_fixWord _ _ (by simpa using h)

theorem State.wf_readWords (n : Nat) (s : State) (pa : Nat) (h : Memory.wf s.shm = true) : Memory.wf (s.readWords pa n).1.shm = true := by
  induction n generalizing s pa with
  | zero => exact h
  | succ n ih => exact ih _ _ (s.wf_readWord pa h)

/-- A read of a word whose check bits are right changes nothing and gives the word. -/
theorem State.readWord_ok (pa : Nat) (h : ok18 (s.word pa) = true) : s.readWord pa = (s, data18 (s.word pa), true) := by
  simp [State.readWord, State.fixWord, h]

theorem State.wf_setBank (lo n : Nat) (m : Store Stored) (h : Memory.wf s.shm = true) (hm : Memory.wf m = true)
    (hr : ∀ e ∈ m, lo ≤ e.1 ∧ e.1 < lo + n) : Memory.wf (s.setBank lo n m).shm = true := by
  simp only [State.setBank, Memory.wf] at *
  refine Store.wf_append _ _ _ (Store.wf_append _ _ _ (Store.wf_filter _ _ _ h) hm ?_) (Store.wf_filter _ _ _ h) ?_
  · intro x hx y hy
    have h1 := hr y hy
    simp only [List.mem_filter, decide_eq_true_eq] at hx
    omega
  · intro x hx y hy
    simp only [List.mem_append, List.mem_filter, decide_eq_true_eq] at hx hy
    rcases hx with hx | hx
    · omega
    · have h1 := hr x hx
      omega

theorem State.wf_bankWords (lo n dst : Nat) (h : Memory.wf s.shm = true) : Memory.wf (s.bankWords lo n dst) = true :=
  Store.wf_shift _ _ _ _ (Store.wf_filter _ _ _ h) (fun e he => by
    simp only [List.mem_filter, decide_eq_true_eq] at he
    exact he.2.1)

/-- Emptying a bank keeps the canonical form. -/
theorem State.wf_setBank_nil (lo n : Nat) (h : Memory.wf s.shm = true) : Memory.wf (s.setBank lo n []).shm = true :=
  s.wf_setBank lo n [] h rfl (by simp)

/-- Copying one bank over another keeps the canonical form. -/
theorem State.wf_setBank_copy (lo n dst : Nat) (h : Memory.wf s.shm = true) : Memory.wf (s.setBank dst n (s.bankWords lo n dst)).shm = true := by
  refine s.wf_setBank dst n _ h (s.wf_bankWords lo n dst h) ?_
  intro e he
  simp only [State.bankWords, List.mem_map, List.mem_filter, decide_eq_true_eq] at he
  obtain ⟨x, ⟨_, h1, h2⟩, rfl⟩ := he
  simp only
  omega

/-- With no word of the queue and flow memory in error an access to a queue loses none. -/
theorem State.rowsLost_sound (s : State) (g : Nat) (h : (s.die (g / 131072)).qbad = []) : s.rowsLost g = false := by
  simp [State.rowsLost, h]

/-- A head in error in both arrays is lost to every access to its queue (R389). -/
theorem State.rowsLost_head (s : State) (g : Nat) (h : Config.queueHead (g % 131072) ∈ (s.die (g / 131072)).qbad)
    (h2 : (pairArray (Config.queueHead (g % 131072)).1, (Config.queueHead (g % 131072)).2) ∈ (s.die (g / 131072)).qbad) : s.rowsLost g = true := by
  simp [State.rowsLost, Config.queueRows, h, h2]

/-! ### Segments, queue memory, writes under way and frames -/

/-- A segment's update changes one die and nothing else. -/
theorem State.setSeg_rest (d : Nat) (dir : Dir) (g : Segment) : ∃ x, s.setSeg d dir g = s.setDie d x := by
  cases dir <;> exact ⟨_, rfl⟩

/-- The segments of other dies keep their messages. -/
theorem State.die_setSeg_ne (d e : Nat) (dir : Dir) (g : Segment) (h : d ≠ e) : (s.setSeg d dir g).die e = s.die e := by
  obtain ⟨x, hx⟩ := s.setSeg_rest d dir g
  rw [hx, s.die_setDie_ne d e x h]

/-- Rewriting a row changes no field but the dies. -/
theorem State.mendRow_rest (d u row : Nat) : ∃ l, s.mendRow d u row = { s with dies := l } := by
  unfold State.mendRow
  dsimp only
  split
  · exact ⟨_, rfl⟩
  · exact ⟨s.dies, rfl⟩

/-- Reading a queue's words changes no field but the dies. -/
theorem State.readQueue_rest (g : Nat) : ∃ l, s.readQueue g = { s with dies := l } := by
  unfold State.readQueue
  generalize Config.queueRows (g % 131072) = rows
  induction rows generalizing s with
  | nil => exact ⟨s.dies, rfl⟩
  | cons p t ih =>
    obtain ⟨l, hl⟩ := s.mendRow_rest (g / 131072) p.1 p.2
    obtain ⟨m, hm⟩ := ih (s.mendRow (g / 131072) p.1 p.2)
    exact ⟨m, by rw [List.foldl_cons, hm, hl]⟩

/-- With no delivered write due a die's performing them changes nothing. -/
theorem State.performDue_nil (d : Nat) (h : (s.die d).due = []) : s.performDue d = s := by
  simp [State.performDue, h]

/-- With no CFG_WRITE waiting for a write under way none completes. -/
theorem State.settleWrites_none (h : s.pkg.waits.all (fun w => match w.kind with | .writes .. => false | _ => true) = true) : s.settleWrites = s := by
  unfold State.settleWrites
  dsimp only
  rw [if_neg]
  intro hc
  rw [List.any_eq_true] at hc
  obtain ⟨w, hw, hk⟩ := hc
  have := List.all_eq_true.mp h w hw
  cases hkind : w.kind <;> simp_all

/-- The FCS is four bytes (R474). -/
theorem fcsOf_length (l : List Byte) : (fcsOf l).length = 4 := by
  simp [fcsOf, beBytes]

/-- A body filled to n bytes has n. -/
theorem fillTo_length (n : Nat) (l : List Byte) : (fillTo n l).length = n := by
  simp [fillTo]
  omega

/-- Every slot of a train is 308 bytes (R488). -/
theorem SlotTx.bytes_length (x : SlotTx) (dirB : Bool) (fn i : Nat) : (x.bytes dirB fn i).length = 308 := by
  simp [SlotTx.bytes, beBytes, fillTo_length]

end Sys2Proof.Machine
end

