-- ==== Sys2Proof/Tests/Slice0.lean ====
section
/-! SUPPORT. The tests of the model: commands that cannot arrive, numbers from the spec's own examples, and for every statement that has
hypotheses a state and operands that meet them, clause by clause. -/

open Sys2Proof Sys2Proof.Machine
namespace Sys2Proof.Tests

-- One theorem at a time, so that the compile needs few threads.
set_option Elab.async false

/-- A small part in its work phase, whose engine 3 of FD0 is powered and is `x`. -/
def onEngine (x : Eng) : State :=
  let s : State := { State.reset with variant := .dxd2064 }
  (s.setDie 0 { s.die 0 with phase := .work }).setF F.ENG_STAT.PWR 0 [3] 1 |>.setEng 0 3 x

/-- A lone operation of that engine. -/
def at0 (slot : Fin 8) : At := ⟨0, 3, slot, none, true, none⟩

/-- That engine in supervisor mode in a folio run. -/
def sup : Eng := { run := .folio 2 false, st := 1 }

/-- A TLB entry of 2 to the 20 words from VA 0, at bank 5 of FD0. -/
def page : TlbEnt := { TlbEnt.zero with ps := 20, ppn := 81920, g := true, u := true, w := true, r := true, x := true, v := true }

/-- The engine with first-level copies of that page and, in user mode, of its code page; the bank admits it. -/
def onPage (x : Eng) : State :=
  (onEngine { x with dtlb := [some ⟨5, page⟩] }).setF F.SHM_OWN.OWNER 0 [5] 11

/-- The first-level instruction copy of the code page that holds PC 0. -/
def codePage : List (Option TlbCopy) := [some ⟨3, { TlbEnt.zero with vpn := 1073741760, ps := 12, g := true, u := true, x := true, v := true }⟩]

/-! ### Commands that cannot arrive: one ill-formed command for each check of WellFormed -/

/-- A command descriptor for FD0. -/
def cmd (op : BitVec 16) : Desc := ⟨0, 0, op, 0, 0, 0, 0, 0, true, true⟩

theorem test_wfRegisterWrite : (Instr.registerWrite (.host 0) .bar0 0 0 32).wf = false := by decide
theorem test_wfTick : (Instr.tick 0 ⟨0, 0, 0, 3, 0, 0, 0⟩).wf = false := by decide
theorem test_wfFlywheelTick : (Instr.flywheelTick 0 ⟨0, 0, 0, 3, 0, 0, 0⟩).wf = false := by decide
theorem test_wfInterruptEntry : (Instr.interruptEntry 0 0 19).wf = false := by decide
theorem test_wfDoorbellRead : (Instr.doorbellReadComplete 0 true 0 [⟨3, 0, 0, 0⟩, ⟨3, 1, 0, 0⟩]).wf = false := by decide
theorem test_wfSlowPathTransmit : (Instr.slowPathTransmit 0 0 ⟨0, 2, 0, false, false, [1], 0⟩).wf = false := by decide
theorem test_wfCodeLoad : (Instr.codeLoad (cmd 2) false 0 0 2 [0]).wf = false := by decide
theorem test_wfLeafInit : (Instr.leafInit (cmd 3) false 0 0 0 0 0 2 (some [0])).wf = false := by decide
theorem test_wfSwapArm : (Instr.swapArm (cmd 7) 9 [0, 0, 0, 0, 0, 0, 0]).wf = false := by decide
theorem test_wfKeyLoadType : (Instr.keyLoad (cmd 13) false 0 0 0 []).wf = false := by decide
theorem test_wfKeyLoadLength : (Instr.keyLoad (cmd 13) false 0 1 2 [7]).wf = false := by decide
theorem test_wfFinCarrier : (Instr.finSlotReceive 0 ⟨false, 0, 0, 0, 67, 0, 0, 0, .carrier [0], 0⟩ true false).wf = false := by decide
theorem test_wfFinNctl : (Instr.finSlotReceive 0 ⟨false, 0, 0, 0, 3, 0, 0, 0, .nctl ⟨0, 0, 1, List.replicate 273 0⟩, 0⟩ true false).wf = false := by decide +kernel
theorem test_wfEndpaperHeader : (Instr.endpaperHeaderRead (some [0x44])).wf = false := by decide
theorem test_wfReservedOpcode : (Instr.reservedOpcode (at0 0) [0]).wf = false := by decide
theorem test_wfPlayback : (Instr.playbackReadComplete 0 0 [[0]]).wf = false := by decide

/-! ### Numbers from the spec's own examples -/

/-- The state a command leaves. -/
def left (o : Host.Outcome State Fault Refusal) : State := match o with
  | .next t => t
  | _ => State.reset

/-- What a lone operation leaves in the engine of `onEngine`. -/
def after (c : Instr) (x : Eng) : Eng := (left (exec c (onEngine x))).eng 0 3

/-- 04, Example of the decimal operations (R197): 1435h − 1428h, 1505h − 1458h and 1505h − 1510h. -/
theorem test_dsub :
    let run (n : W18) : W18 × Bool := let y := after (.dsub (at0 4) 3 1 2) { sup with d := [(1, n), (2, 0)] }; (y.rd 3, y.fl.getLsbD 5)
    (after (.dsub (at0 4) 3 1 2) { sup with d := [(1, 0x1435), (2, 0x1428)] }).rd 3 = 0x0007 ∧
    (after (.dsub (at0 4) 3 1 2) { sup with d := [(1, 0x1505), (2, 0x1458)] }).rd 3 = 0x0047 ∧
    (let y := after (.dsub (at0 4) 3 1 2) { sup with d := [(1, 0x1505), (2, 0x1510)] }; y.rd 3 = 0x9995 ∧ y.fl.getLsbD 5 = true) ∧
    (run 0x0047).2 = false := by decide +kernel

/-- 04, Example of a bundle: MOVI with the extension 27Ah gives −99,824. -/
theorem test_moviExtended : ((after (.movi (⟨0, 3, 4, some 0x27A, true, none⟩) 4 0x10) sup).rd 4).toInt = -99824 := by decide +kernel

/-- 04, the same bundle: BRcc NE, FAh at 2C7h reaches 2C1h, after two delay slots. -/
theorem test_brccTarget : (after (.brcc (at0 7) 1 0xFA) { sup with pc := 0x2C7 }).br.bind (fun b => b.target) = some 0x2C1 := by decide +kernel

/-- An operand that overflows: 1FFFFh + 1 in an 18-bit sum sets V and N and clears C and Z (R176). -/
theorem test_addOverflows : (let y := after (.add (at0 4) 1 1 2) { sup with d := [(1, 0x1FFFF), (2, 1)] }; (y.rd 1, y.fl.extractLsb' 0 4)) = (0x20000, 0b1100) := by decide +kernel

/-- 08, Example of ingress conversion (R320): E = 3, word 0 = 0300Ch, and the mantissas of the table. -/
theorem test_conversion : toBlock [256000000, 85333248, -768000, 0] = (3, [125000, 41667, BitVec.ofInt 18 (-375), 0]) ∧
    (mkBlock 3 (List.replicate 12 0) 0 0 0 0 0 0).headD 0 = 0x0300C ∧ (sendSample 0 (valueV 41667 3)).1 = 1302 := by decide +kernel

/-- 00 and 01, Examples of addresses: engine 3.17's register at 40h of its block, and word 100h of bank 5 of FD3. -/
theorem test_addresses : RegName.addr .ENG_CTL 3 [17] = 0x411100 ∧ RegName.addr .ENG_TRAP 5 [40] = 0x612808 ∧ RegName.addr .ENG_TCNT 5 [40] = 0x61280C ∧
    bankPa 3 5 0x100 = 0x600500100 ∧ RegName.addr .HPT_RCFG 0 [4] = 0x190148 ∧ RegName.addr .FLW_VIEW 2 [0] = 0x332010 := by decide +kernel

/-- 08, Example of handles: A3C5h of FD2 with BASE = 30h lies at 4_0351_E280h. -/
theorem test_handle : (State.reset.setFa F.KEN_POOL.BASE 2 [] 0x30).blkPa 2 0xA3C5 = 0x40351E280 := by decide +kernel

/-- 03, Example of ENG_TRAP: 4012_00A4h after WALKERR at 0A4h, and a write of 4000_0000h clears TEV. -/
theorem test_engTrap : let s := ((State.reset.setF F.ENG_TRAP.CAUSE 5 [40] 18).setF F.ENG_TRAP.EPC 5 [40] 0xA4).raise F.ENG_TRAP.TEV 5 [40]
    s.reg .ENG_TRAP 5 [40] = 0x401200A4 ∧
    (left (exec (.registerWrite (.eng 5 40) .bar0 0x612808 0x40000000 0x0F) s)).f F.ENG_TRAP.TEV 5 [40] = 0 := by decide +kernel

/-- 08, Example of FLW_VIEW: 940E_0E10h reads OPEN = 1, CRIT = 0, PRIO = 2, SRC = 4, QCNT = 7, QBASE = 0E10h. -/
theorem test_flowImage : let p : FlowP := ⟨0x940E0E10, 0, 0, 0⟩; p.isOpen = true ∧ p.crit = false ∧ p.prio = 2 ∧ p.src = 4 ∧ p.qcnt = 7 ∧ p.qbase = 0xE10 := by decide +kernel

/-- 11, worked example: the flow opened at HP0 is FID 17 of FD1, flow 2011h, when FIDs 0 to 16 are in use. -/
theorem test_flowOpen :
    let s := (State.reset.setF F.PKG_STATE.STATE 0 [] 3 |>.setF F.PKG_AUTH.OWNER 0 [] 1).setPort 0 { taken := [⟨0, 0, 17, 1, false⟩] }
    let used := (List.range 17).map (fun i => (8192 + i, (⟨0x80020000#32 + BitVec.ofNat 32 i, 0, 0, 0⟩ : FlowP)))
    (left (exec (.flowOpen ⟨0, 0, 4, 4, 1, 0xA11, 0, 0, true, true⟩ ⟨0x34020200, 0x10400004, 0x00020001, 0⟩ ⟨1, 4, 8⟩) { s with flA := used })).pkg.waits.map (fun w => w.kind)
      = [.flow 1 0x2011] := by decide +kernel

/-- No row of the table gives bits, so no word spells a command. -/
theorem test_noWord : decodeTableWord 18 0 = none ∧ State.reset.withFetchWord 18 0 = State.reset := by decide +kernel

/-! ### Witnesses: for each clause of each statement, a state and operands that meet its hypotheses -/

/-- A state that meets the invariant with a command waiting, and its step answers a next state. -/
theorem witness_everyStepKeepsTheInvariant :
    let s : State := { State.reset with pending := [.heelSend 0, .nop (at0 0)] }
    (Memory.wf s.shm = true ∧ s.queueWf = true) ∧ (match step s with | .next _ => true | _ => false) = true := by decide +kernel

/-- The premise of the clause on words that are not decimal: a digit above 9. -/
theorem witness_decimalOfNonDecimal : let s := onEngine { sup with d := [(1, 10)] }
    Lone s (at0 4) [4, 5] ∧ ∀ m n : Nat, m ≤ 9999 → n ≤ 9999 → ¬((s.engOf (at0 4)).rd 1 = toBcd m ∧ (s.engOf (at0 4)).rd 2 = toBcd n) := by
  have h : ∀ i < 100, ∀ j < 100, (onEngine { sup with d := [(1, 10)] } |>.engOf (at0 4)).rd 1 ≠ toBcd (100 * i + j) := by decide +kernel
  refine ⟨by decide +kernel, fun m n hm _ ⟨e, _⟩ => h (m / 100) (by omega) (m % 100) (by omega) ?_⟩
  rw [Nat.div_add_mod]; exact e

theorem witness_branchAfterTwoDelaySlots : (let x := (onEngine sup).engOf (at0 7); Lone (onEngine sup) (at0 7) [7] ∧ x.user = false ∧ x.loops = []) ∧
    ∀ k, okBundle (((onEngine sup).engOf (at0 7)).pmem.get 0 k) = true :=
  ⟨by decide +kernel, fun _ => (by decide : okBundle 0 = true)⟩

theorem witness_interruptAndReturn : (let x := (onEngine { sup with st := 3, bits := [(15, true)], imask := 0xFFFF, smp := 0x8000 }).engOf (at0 7)
      Lone (onEngine { sup with st := 3, bits := [(15, true)], imask := 0xFFFF, smp := 0x8000 }) (at0 7) [7] ∧ x.user = false ∧ x.sh = false ∧
      x.smp.getLsbD 15 = true ∧ (∀ j < 15, x.smp.getLsbD j = false) ∧ x.loops = [] ∧ x.farOld = []) ∧
    (∀ k, okBundle (((onEngine { sup with st := 3, bits := [(15, true)], imask := 0xFFFF, smp := 0x8000 }).engOf (at0 7)).pmem.get 0 k) = true) ∧
    (Lone (onEngine sup) (at0 7) [7] ∧ ((onEngine sup).engOf (at0 7)).smp = 0) :=
  ⟨by decide +kernel, fun _ => (by decide : okBundle 0 = true), by decide +kernel⟩

/-- A free block can always be given from a pool with nothing in use. -/
theorem witness_allocate : ∃ h, ((onEngine sup).setFa F.KEN_POOL.NBANK 0 [] 1).pickFree 0 = some h ∧ 0 < h ∧ h < 65536 := by
  refine ⟨1 + freeNat 8191 0, ?_, by omega, ?_⟩
  · rfl
  · have : freeNat 8191 0 < 8191 := Nat.mod_lt _ (by decide)
    omega

/-- The premises of VGTH.F and VSCT.F: two elements on a page that grants them, and one whose page is not there. -/
theorem witness_farVectorAccess : (let s := onPage { sup with vl := 2 }; let a := at0 6; Lone s a [6] ∧ (∀ w ∈ [false, true], ∀ i < 2, s.farLands a ⟨0, 0, w, false, true, false⟩ 5242880 false)) ∧
    (let s := onEngine { sup with vl := 2 }; let a := at0 6; Lone s a [6] ∧ (s.engOf a).sh = false ∧
      (∀ w ∈ [false, true], (s.farCheck 0 3 ⟨0, 0, w, false, true, false⟩).isRight = true)) := by decide +kernel

/-- A die with a duplicate holder waiting for its copy, and a free block for it. -/
theorem witness_auditCopy : let s := (State.reset.setDie 1 { audit := { copies := [(0, .hold 5)] } }).setFa F.KEN_POOL.NBANK 1 [] 1
    ∃ n, s.live 1 = true ∧ (s.die 1).audit.copies = [(0, .hold 5)] ∧ s.pickFree 1 = some n ∧ n ≠ 0 :=
  ⟨1 + freeNat 8191 0, by decide +kernel, by decide +kernel, rfl, by omega⟩


/-- A FLOW_OPEN on a die whose 5,120 flow numbers are all given. -/
theorem witness_noFlowNumber :
    let s : State := { ((State.reset.setF F.PKG_STATE.STATE 0 [] 3).setF F.PKG_AUTH.OWNER 0 [] 2 |>.setPort 1 { taken := [⟨1, 63, 0, 0, false⟩] }) with
      dies := [(7, { assigned := List.range 5120 })] }
    let x : Desc := ⟨1, 63, 4, 0, 7, 5, 0x1000, 4096, true, true⟩
    (s.headCmd x = some ⟨1, 63, 0, 0, false⟩ ∧ x.opcode.toNat = 4 ∧ x.flags.toNat < 16 ∧ s.pkgState = 3 ∧ s.f F.PKG_AUTH.OWNER 0 [] = 2 ∧ s.live 7 = true ∧
      s.f F.PKG_SWAP.ARMED 0 [] = 0) ∧ s.freeFid 7 = none := by
  have h : ∀ s : State, s.dies = [(7, { assigned := List.range 5120 })] → s.freeFid 7 = none := fun s e => List.find?_eq_none.2 fun i hi => by
    have : (s.die 7).assigned.contains i = true := by simp [State.die, e, Store.get, Store.find, List.mem_range.1 hi]
    simp only [State.fidUsed, this, Bool.or_true, Bool.true_or, Bool.not_true, Bool.false_eq_true, not_false_eq_true]
  exact ⟨by decide +kernel, h _ rfl⟩

theorem witness_stepRunsTheFrontCommand :
    (fun (s : State) (c : Instr) (rest : List Instr) =>
      (s.pending = c :: rest)) ({ State.reset with pending := [.guardStart 0] }) (.guardStart 0) [] ∧
    (fun (s : State) =>
      (s.pending = [])) State.reset := by decide +kernel

theorem witness_sumsAndCompares :
    (fun (s : State) (a : At) =>
      (Lone s a [4, 5])) (onEngine sup) (at0 4) ∧
    (fun (s : State) (a : At) =>
      (LoneX s a [4, 5])) (onEngine sup) (at0 4) := by decide +kernel

theorem witness_saturatingAndUnary :
    (fun (s : State) (a : At) =>
      (Lone s a [4, 5])) (onEngine sup) (at0 5) ∧
    (fun (x : W18) =>
      (x ≠ 0) ∧ (x ≠ 0x3FFFF#18)) 5 := by decide +kernel

theorem witness_logicAndExtremes :
    (fun (s : State) (a : At) =>
      (Lone s a [4, 5])) (onEngine sup) (at0 4) := by decide +kernel

theorem witness_shifts :
    (fun (s : State) (a : At) =>
      (Lone s a [4, 5])) (onEngine sup) (at0 4) := by decide +kernel

theorem witness_pairOperations :
    (fun (s : State) (a : At) =>
      (Lone s a [4, 5])) (onEngine sup) (at0 4) := by decide +kernel

theorem witness_blockExponent :
    (fun (s : State) (a : At) =>
      (Lone s a [4, 5])) (onEngine sup) (at0 4) := by decide +kernel

theorem witness_decimalArithmetic :
    (fun (s : State) (a : At) (p : BitVec 4) (q : BitVec 4) (m : Nat) (n : Nat) =>
      let x := s.engOf a
      let P := x.rd p.toNat
      (Lone s a [4, 5]) ∧ (m ≤ 9999) ∧ (n ≤ 9999) ∧ (P = toBcd m) ∧ (x.rd q.toNat = toBcd n)) (onEngine { sup with d := [(1, 0x9999), (2, 0x17)] }) (at0 4) 1 2 9999 17 ∧
    (fun (s : State) (a : At) (p : BitVec 4) (m : Nat) =>
      let x := s.engOf a
      let P := x.rd p.toNat
      (Lone s a [4, 5]) ∧ (m ≤ 9999) ∧ (P = BitVec.ofNat 18 m)) (onEngine { sup with d := [(1, 9999)] }) (at0 4) 1 9999 ∧
    (fun (s : State) (a : At) (p : BitVec 4) =>
      let x := s.engOf a
      let P := x.rd p.toNat
      (Lone s a [4, 5]) ∧ (P.toInt < 0 ∨ 9999 < P.toInt)) (onEngine { sup with d := [(1, 10000)] }) (at0 4) 1 := by decide +kernel

theorem witness_localBits :
    (fun (s : State) (a : At) =>
      (Lone s a [4, 5])) (onEngine sup) (at0 5) := by decide +kernel

theorem witness_divide :
    (fun (s : State) (a : At) =>
      (Lone s a [4])) (onEngine sup) (at0 4) := by decide +kernel

theorem witness_stringOperations :
    (fun (s : State) (a : At) =>
      let x := s.engOf a
      (Lone s a [5]) ∧ (x.scnt = 0)) (onEngine sup) (at0 5) ∧
    (fun (s : State) (a : At) (dir : BitVec 1) =>
      let x := s.engOf a
      let k : Int := if dir = 0 then 1 else -1
      let src := (x.ra 6).toNat
      let dst := (x.ra 7).toNat
      (Lone s a [5]) ∧ (x.scnt ≠ 0) ∧ (x.inRing 6 k = true) ∧ (x.inRing 7 k = true) ∧ (x.goodL src = true) ∧ (src ≠ dst) ∧ (s.mayStore a [dst] = true)) (onEngine { sup with scnt := 2, a := [(7, 65535)] }) (at0 5) 0 ∧
    (fun (s : State) (a : At) (dir : BitVec 1) =>
      let x := s.engOf a
      let k : Int := if dir = 0 then 1 else -1
      let src := (x.ra 6).toNat
      let dst := (x.ra 7).toNat
      (Lone s a [5]) ∧ (x.scnt ≠ 0) ∧ (x.inRing 6 k = true) ∧ (x.inRing 7 k = true) ∧ (x.goodL src = true) ∧ (src ≠ dst) ∧ (x.goodL dst = true) ∧ (x.atL src ≠ x.atL dst)) (onEngine { sup with scnt := 1, a := [(7, 1)], lmem := [(1, enc18 5)] }) (at0 5) 0 ∧
    (fun (s : State) (a : At) (dir : BitVec 1) =>
      let x := s.engOf a
      let k : Int := if dir = 0 then 1 else -1
      let src := (x.ra 6).toNat
      let dst := (x.ra 7).toNat
      (Lone s a [5]) ∧ (x.scnt ≠ 0) ∧ (x.inRing 6 k = true) ∧ (x.inRing 7 k = true) ∧ (x.goodL src = true) ∧ (src ≠ dst) ∧ (x.goodL dst = true) ∧ (x.atL src = x.atL dst)) (onEngine { sup with scnt := 2, a := [(7, 65535)] }) (at0 5) 0 := by decide +kernel

theorem witness_multiplies :
    (fun (s : State) (a : At) =>
      (Lone s a [2, 3])) (onEngine sup) (at0 2) := by decide +kernel

theorem witness_accumulatorOperations :
    (fun (s : State) (a : At) (d : BitVec 4) =>
      (Lone s a [2, 3]) ∧ (d.toNat % 2 = 0)) (onEngine sup) (at0 3) 0 := by decide +kernel

theorem witness_localLoads :
    (fun (s : State) (a : At) (d : BitVec 4) (imm : BitVec 8) =>
      let x := s.engOf a
      let even := d.toNat % 2 = 0
      let dir := x.directAt a imm
      let next (k : Nat) := (k + 1) % 65536
      (LoneX s a [0, 1]) ∧ (even) ∧ (x.goodL dir = true) ∧ (x.goodL (next dir) = true)) (onEngine { sup with ln := [(0, 4)], a := [(0, 3)] }) (at0 0) 14 0 ∧
    (fun (s : State) (a : At) (n : BitVec 3) (off : BitVec 6) =>
      let x := s.engOf a
      let ptr := (x.ra n.toNat).toNat
      let idx := (ptr + uimmOf a off) % 65536
      (LoneX s a [0, 1]) ∧ (x.goodL idx = true)) (onEngine { sup with ln := [(0, 4)], a := [(0, 3)] }) (at0 0) 0 0 ∧
    (fun (s : State) (a : At) (n : BitVec 3) (mode : BitVec 3) =>
      let x := s.engOf a
      let ptr := (x.ra n.toNat).toNat
      (Lone s a [0, 1]) ∧ (x.goodL ptr = true) ∧ ((x.postA n mode 1).isSome = true)) (onEngine { sup with ln := [(0, 4)], a := [(0, 3)] }) (at0 0) 0 1 ∧
    (fun (s : State) (a : At) (d : BitVec 4) (n : BitVec 3) (mode : BitVec 3) =>
      let x := s.engOf a
      let even := d.toNat % 2 = 0
      let ptr := (x.ra n.toNat).toNat
      let next (k : Nat) := (k + 1) % 65536
      (Lone s a [0, 1]) ∧ (x.goodL ptr = true) ∧ ((x.postA n mode 2).isSome = true) ∧ (even) ∧ (x.goodL (next ptr) = true)) (onEngine { sup with ln := [(0, 4)], a := [(0, 3)] }) (at0 0) 14 0 1 := by decide +kernel

theorem witness_localStores :
    (fun (s : State) (a : At) (imm : BitVec 8) =>
      let x := s.engOf a
      let dir := x.directAt a imm
      (LoneX s a [0, 1]) ∧ (s.mayStore a [dir] = true)) (onEngine { sup with ln := [(0, 4)], a := [(0, 3)] }) (at0 1) 0 ∧
    (fun (s : State) (a : At) (d : BitVec 4) (imm : BitVec 8) =>
      let x := s.engOf a
      let even := d.toNat % 2 = 0
      let dir := x.directAt a imm
      let next (k : Nat) := (k + 1) % 65536
      (LoneX s a [0, 1]) ∧ (even) ∧ (s.mayStore a [dir, next dir] = true)) (onEngine { sup with ln := [(0, 4)], a := [(0, 3)] }) (at0 1) 14 0 ∧
    (fun (s : State) (a : At) (n : BitVec 3) (off : BitVec 6) =>
      let x := s.engOf a
      let ptr := (x.ra n.toNat).toNat
      let idx := (ptr + uimmOf a off) % 65536
      (LoneX s a [0, 1]) ∧ (s.mayStore a [idx] = true)) (onEngine { sup with ln := [(0, 4)], a := [(0, 3)] }) (at0 1) 0 0 ∧
    (fun (s : State) (a : At) (n : BitVec 3) (mode : BitVec 3) =>
      let x := s.engOf a
      let ptr := (x.ra n.toNat).toNat
      (Lone s a [0, 1]) ∧ ((x.postA n mode 1).isSome = true) ∧ (s.mayStore a [ptr] = true)) (onEngine { sup with ln := [(0, 4)], a := [(0, 3)] }) (at0 1) 0 2 ∧
    (fun (s : State) (a : At) (d : BitVec 4) (n : BitVec 3) (mode : BitVec 3) =>
      let x := s.engOf a
      let even := d.toNat % 2 = 0
      let ptr := (x.ra n.toNat).toNat
      let next (k : Nat) := (k + 1) % 65536
      (Lone s a [0, 1]) ∧ ((x.postA n mode 2).isSome = true) ∧ (even) ∧ (s.mayStore a [ptr, next ptr] = true)) (onEngine { sup with ln := [(0, 4)], a := [(0, 3)] }) (at0 1) 14 0 2 := by decide +kernel

theorem witness_addressRegisters :
    (fun (s : State) (a : At) =>
      (LoneX s a [0, 1])) (onEngine sup) (at0 1) ∧
    (fun (s : State) (a : At) =>
      (Lone s a [0, 1])) (onEngine sup) (at0 1) ∧
    (fun (s : State) (a : At) =>
      (Lone s a [0, 1, 2, 3, 4, 5, 6, 7])) (onEngine sup) (at0 1) := by decide +kernel

theorem witness_rangeTransfers :
    (fun (s : State) (a : At) (v : BitVec 3) (dl : BitVec 3) (pa : Nat) (side : Bool) =>
      let x := s.engOf a
      let len := (x.rd dl.toNat).toNat % 65536
      let va := x.ddv v
      let req (w : Bool) : FarReq := ⟨va, (va + (len - 1)) % 2 ^ 36, w, false, true, true⟩
      (Lone s a [0, 1]) ∧ (s.farLands a (req false) pa side) ∧ (s.noConst a = true)) (onPage { sup with d := [(2, 9), (4, 20)] }) (at0 0) 1 4 5242889 false ∧
    (fun (s : State) (a : At) (v : BitVec 3) (dl : BitVec 3) (pa : Nat) (side : Bool) =>
      let x := s.engOf a
      let len := (x.rd dl.toNat).toNat % 65536
      let va := x.ddv v
      let req (w : Bool) : FarReq := ⟨va, (va + (len - 1)) % 2 ^ 36, w, false, true, true⟩
      (Lone s a [0, 1]) ∧ (s.farLands a (req true) pa side)) (onPage { sup with d := [(2, 9), (4, 20)] }) (at0 0) 1 4 5242889 false ∧
    (fun (s : State) (a : At) =>
      let x := s.engOf a
      (Lone s a [0, 1]) ∧ (x.xfers = []) ∧ (x.pmws = [])) (onPage { sup with d := [(2, 9), (4, 20)] }) (at0 0) := by decide +kernel

theorem witness_leafAndBlockTransfers :
    (fun (s : State) (a : At) (v : BitVec 3) (dl : BitVec 3) (l : Leaf) (i : Nat) (again : Bool) =>
      let x := s.engOf a
      let len := (x.rd dl.toNat).toNat % 65536
      let num := (x.rd (2 * v.toNat + 1)).toNat % 16384
      let ofs := (x.rd (2 * v.toNat)).toNat
      let pa (write : Bool) := bankPa a.die.val 0 ((if write = l.side then l.recto else l.verso) + ofs)
      let open_ (write : Bool) : Prop := s.f F.SHM_PWR.PSTAT (paDie (pa write)) [paBank (pa write)] = 0 ∧ s.admits a.die.val a.eng.val (pa write) = true
      (Lone s a [0, 1]) ∧ ((∀ w, paDie (pa w) = a.die.val ∧ paDie (pa w + len) = a.die.val)) ∧ (x.run = .folio i again) ∧ (s.leaves.get .zero (16384 * a.die.val + num) = l) ∧ (l.v = true) ∧ (l.eng = a.eng.val) ∧ (l.entry = i) ∧ (ofs + max len 1 ≤ l.len) ∧ (open_ false) ∧ (s.noConst a = true)) ({ (onEngine { sup with d := [(3, 7), (2, 4), (4, 16)] }).setF F.SHM_OWN.OWNER 0 [5] 11 with leaves := [(7, ⟨true, 3, 2, 5242880, 5242980, 20, false, false⟩)] }) (at0 0) 1 4 ⟨true, 3, 2, 5242880, 5242980, 20, false, false⟩ 2 false ∧
    (fun (s : State) (a : At) (v : BitVec 3) (dl : BitVec 3) (l : Leaf) (i : Nat) (again : Bool) =>
      let x := s.engOf a
      let len := (x.rd dl.toNat).toNat % 65536
      let num := (x.rd (2 * v.toNat + 1)).toNat % 16384
      let ofs := (x.rd (2 * v.toNat)).toNat
      let pa (write : Bool) := bankPa a.die.val 0 ((if write = l.side then l.recto else l.verso) + ofs)
      let open_ (write : Bool) : Prop := s.f F.SHM_PWR.PSTAT (paDie (pa write)) [paBank (pa write)] = 0 ∧ s.admits a.die.val a.eng.val (pa write) = true
      (Lone s a [0, 1]) ∧ ((∀ w, paDie (pa w) = a.die.val ∧ paDie (pa w + len) = a.die.val)) ∧ (x.run = .folio i again) ∧ (s.leaves.get .zero (16384 * a.die.val + num) = l) ∧ (l.v = true) ∧ (l.eng = a.eng.val) ∧ (l.entry = i) ∧ (ofs + max len 1 ≤ l.len) ∧ (open_ true)) ({ (onEngine { sup with d := [(3, 7), (2, 4), (4, 16)] }).setF F.SHM_OWN.OWNER 0 [5] 11 with leaves := [(7, ⟨true, 3, 2, 5242880, 5242980, 20, false, false⟩)] }) (at0 0) 1 4 ⟨true, 3, 2, 5242880, 5242980, 20, false, false⟩ 2 false ∧
    (fun (s : State) (a : At) (d : BitVec 4) =>
      let x := s.engOf a
      let h := (x.rd d.toNat).toNat
      let pa := s.blkPa a.die.val h
      (Lone s a [0, 1]) ∧ (s.validH a.die.val h = true) ∧ (x.work.has (BitVec.ofNat 16 h) = true) ∧ (x.run ≠ .idle) ∧ (s.f F.SHM_PWR.PSTAT a.die.val [paBank pa] = 0) ∧ (s.noConst a = true)) ((onEngine { sup with d := [(1, 6)], work := ⟨[], [6], [], []⟩ }).setFa F.KEN_POOL.NBANK 0 [] 1) (at0 0) 1 := by decide +kernel

theorem witness_farLoadsAndStores :
    (fun (s : State) (a : At) (v : BitVec 3) (pa : Nat) (side : Bool) =>
      let x := s.engOf a
      let va := x.ddv v
      let req (w dbl : Bool) : FarReq := ⟨va, va, w, dbl, false, false⟩
      (Lone s a [0, 1]) ∧ (s.farLands a (req false false) pa side) ∧ (x.sbuf = [])) (onPage { sup with d := [(2, 9)] }) (at0 1) 1 5242889 false ∧
    (fun (s : State) (a : At) (v : BitVec 3) (pa : Nat) (side : Bool) (b : SbEnt) =>
      let x := s.engOf a
      let va := x.ddv v
      let req (w dbl : Bool) : FarReq := ⟨va, va, w, dbl, false, false⟩
      (Lone s a [0, 1]) ∧ (s.farLands a (req false false) pa side) ∧ (x.sbuf = [b]) ∧ (b.pa = pa) ∧ (b.words.length = 1) ∧ (b.bad = false) ∧ (side = false)) (onPage { sup with d := [(2, 9)], sbuf := [⟨5242889, [8], false, 0, 0, [], 0⟩] }) (at0 1) 1 5242889 false ⟨5242889, [8], false, 0, 0, [], 0⟩ ∧
    (fun (s : State) (a : At) (d : BitVec 4) (v : BitVec 3) (pa : Nat) (side : Bool) =>
      let x := s.engOf a
      let va := x.ddv v
      let req (w dbl : Bool) : FarReq := ⟨va, va, w, dbl, false, false⟩
      (Lone s a [0, 1]) ∧ (s.farLands a (req false true) pa side) ∧ (d.toNat % 2 = 0) ∧ (x.sbuf = [])) (onPage { sup with d := [(2, 8)] }) (at0 1) 6 1 5242888 false ∧
    (fun (s : State) (a : At) (v : BitVec 3) (pa : Nat) (side : Bool) =>
      let x := s.engOf a
      let va := x.ddv v
      let req (w dbl : Bool) : FarReq := ⟨va, va, w, dbl, false, false⟩
      (Lone s a [0, 1]) ∧ (s.farLands a (req true false) pa side)) (onPage { sup with d := [(2, 9)] }) (at0 1) 1 5242889 false ∧
    (fun (s : State) (a : At) (d : BitVec 4) (v : BitVec 3) (pa : Nat) (side : Bool) =>
      let x := s.engOf a
      let va := x.ddv v
      let req (w dbl : Bool) : FarReq := ⟨va, va, w, dbl, false, false⟩
      (Lone s a [0, 1]) ∧ (s.farLands a (req true true) pa side) ∧ (d.toNat % 2 = 0)) (onPage { sup with d := [(2, 8)] }) (at0 1) 6 1 5242888 false := by decide +kernel

theorem witness_farTranslation :
    (fun (s : State) (a : At) (va : Nat) (i : Nat) (e : TlbEnt) (write : Bool) =>
      let x := s.engOf a
      let page := 2 ^ e.ps.toNat
      let pa := e.ppn.toNat * 64 / page * page + va % page
      (x.dtlb = [some ⟨i, e⟩]) ∧ (e.v = true) ∧ (e.perr = false) ∧ (e.vpn.toNat * 64 / page = va / page) ∧ ((e.g = true ∨ e.asid = x.asid)) ∧ (6 ≤ e.ps.toNat) ∧ (e.ps.toNat ≤ 36) ∧ (e.space = 0) ∧ ((if write then e.w else e.r) = true) ∧ ((e.u = true ∨ x.user = false)) ∧ (va < 68719472640) ∧ (s.live (paDie pa) = true) ∧ (paShared pa = true) ∧ (s.f F.SHM_PWR.PSTAT (paDie pa) [paBank pa] = 0) ∧ (s.admits a.die.val a.eng.val pa = true)) (onPage sup) (at0 0) 1048575 5 page false := by decide +kernel

theorem witness_controlTransfers :
    (fun (s : State) (a : At) (d : BitVec 4) =>
      let x := s.engOf a
      let t : BitVec 12 := BitVec.ofNat 12 (x.rd d.toNat).toNat
      let six (w : BitVec 12) (k : Nat) : BitVec 6 := (BitVec.ofNat 6 w.toNat).rotateLeft k
      let slot := (BitVec.ofNat 6 x.pc.toNat ^^^ six (x.hist.getD 0 0) 0 ^^^ six (x.hist.getD 1 0) 1 ^^^ six (x.hist.getD 2 0) 2 ^^^ six (x.hist.getD 3 0) 3).toNat
      (Lone s a [7]) ∧ (x.itab.get none slot = some t) ∧ (x.itabBad.contains slot = false)) (onEngine { sup with itab := [(0, some 0)] }) (at0 7) 0 ∧
    (fun (s : State) (a : At) =>
      let x := s.engOf a
      let r15 : BitVec 12 := BitVec.ofNat 12 (x.rd 15).toNat
      (Lone s a [7]) ∧ (x.rstack.head? = some (r15, false))) (onEngine { sup with rstack := [(0, false)] }) (at0 7) ∧
    (fun (s : State) (a : At) (d : BitVec 4) =>
      let x := s.engOf a
      let t : BitVec 12 := BitVec.ofNat 12 (x.rd d.toNat).toNat
      let slot := (BitVec.ofNat 6 x.pc.toNat ^^^ histHash x.hist).toNat
      (Lone s a [7]) ∧ (x.itab.get none slot ≠ some t ∨ x.itabBad.contains slot = true)) (onEngine sup) (at0 7) 0 ∧
    (fun (s : State) (a : At) =>
      let x := s.engOf a
      let r15 : BitVec 12 := BitVec.ofNat 12 (x.rd 15).toNat
      (Lone s a [7]) ∧ (x.rstack.head? ≠ some (r15, false))) (onEngine sup) (at0 7) := by decide +kernel

theorem witness_loopsAndRepeats_1 :
    (fun (s : State) (a : At) (d : BitVec 4) (len : BitVec 8) =>
      let x := s.engOf a
      let n := (x.rd d.toNat).toNat % 4096
      (Lone s a [7]) ∧ (len ≠ 0) ∧ ((n = 0 ∨ x.loops.length < 4))) (onEngine { sup with d := [(0, 4095)], rc := 64 }) (at0 7) 0 255 ∧
    (fun (s : State) (a : At) (cnt : BitVec 6) (l6 : BitVec 6) =>
      let x := s.engOf a
      (Lone s a [7]) ∧ (l6 ≠ 0) ∧ ((cnt = 0 ∨ x.loops.length < 4))) (onEngine { sup with d := [(0, 4095)], rc := 64 }) (at0 7) 63 63 ∧
    (fun (s : State) (a : At) (k : BitVec 7) =>
      let x := s.engOf a
      let next := dataBundle (x.pmem.get 0 ((if x.half then 4096 else 0) + (x.pc + 1).toNat))
      (Lone s a [7]) ∧ (noRepeat next = false) ∧ (1 ≤ k.toNat) ∧ (k.toNat ≤ 64)) (onEngine { sup with d := [(0, 4095)], rc := 64 }) (at0 7) 64 ∧
    (fun (s : State) (a : At) =>
      let x := s.engOf a
      let next := dataBundle (x.pmem.get 0 ((if x.half then 4096 else 0) + (x.pc + 1).toNat))
      (Lone s a [7]) ∧ (noRepeat next = false) ∧ (x.rc.toNat ≤ 64)) (onEngine { sup with d := [(0, 4095)], rc := 64 }) (at0 7) ∧
    (fun (s : State) (a : At) =>
      let x := s.engOf a
      let next := dataBundle (x.pmem.get 0 ((if x.half then 4096 else 0) + (x.pc + 1).toNat))
      (Lone s a [7]) ∧ (noRepeat next = true) ∧ (x.rc = 0)) (onEngine { sup with pmem := [(1, encBundle (BitVec.ofNat 144 (4096 * 2 ^ 126)))] }) (at0 7) := by decide +kernel

theorem witness_loopsAndRepeats_2 :
    (fun (s : State) (a : At) (k : BitVec 7) =>
      let x := s.engOf a
      let next := dataBundle (x.pmem.get 0 ((if x.half then 4096 else 0) + (x.pc + 1).toNat))
      (Lone s a [7]) ∧ (noRepeat next = true) ∧ (x.sh = false) ∧ (1 ≤ k.toNat) ∧ (k.toNat ≤ 64)) (onEngine { sup with pmem := [(1, encBundle (BitVec.ofNat 144 (4096 * 2 ^ 126)))] }) (at0 7) 64 ∧
    (fun (s : State) (a : At) =>
      let x := s.engOf a
      let next := dataBundle (x.pmem.get 0 ((if x.half then 4096 else 0) + (x.pc + 1).toNat))
      (Lone s a [7]) ∧ (noRepeat next = true) ∧ (x.sh = false) ∧ (x.rc ≠ 0)) (onEngine { sup with pmem := [(1, encBundle (BitVec.ofNat 144 (4096 * 2 ^ 126)))], rc := 1 }) (at0 7) ∧
    (fun (s : State) (a : At) =>
      let x := s.engOf a
      let next := dataBundle (x.pmem.get 0 ((if x.half then 4096 else 0) + (x.pc + 1).toNat))
      (Lone s a [7]) ∧ (noRepeat next = false) ∧ (x.sh = false) ∧ (64 < x.rc.toNat)) (onEngine { sup with rc := 65 }) (at0 7) ∧
    (fun (s : State) (a : At) (d : BitVec 4) (len : BitVec 8) =>
      let x := s.engOf a
      let n := (x.rd d.toNat).toNat % 4096
      (Lone s a [7]) ∧ (x.sh = false) ∧ (x.loops.length = 4) ∧ (len ≠ 0) ∧ (n ≠ 0)) (onEngine { sup with d := [(0, 1)], loops := [⟨1, 9, 5⟩, ⟨1, 9, 5⟩, ⟨1, 9, 5⟩, ⟨1, 9, 5⟩] }) (at0 7) 0 255 ∧
    (fun (s : State) (a : At) (cnt : BitVec 6) (l6 : BitVec 6) =>
      let x := s.engOf a
      (Lone s a [7]) ∧ (x.sh = false) ∧ (x.loops.length = 4) ∧ (l6 ≠ 0) ∧ (cnt ≠ 0)) (onEngine { sup with d := [(0, 1)], loops := [⟨1, 9, 5⟩, ⟨1, 9, 5⟩, ⟨1, 9, 5⟩, ⟨1, 9, 5⟩] }) (at0 7) 63 63 := by decide +kernel

theorem witness_enqueueAndRelease :
    (fun (s : State) (a : At) (d : BitVec 4) (v : BitVec 3) (i : Nat) (again : Bool) =>
      let x := s.engOf a
      let h := (x.rd d.toNat).toNat
      let b : BitVec 16 := BitVec.ofNat 16 h
      let q := x.ddv v
      let w := x.work
      (Lone s a [7]) ∧ (x.run = .folio i again) ∧ (q < 1048576) ∧ (q / 131072 < s.variant.dies) ∧ (h ≠ 0) ∧ (h < s.slots a.die.val) ∧ (w.has b = true) ∧ (w.used b = false)) ((onEngine { sup with d := [(0, 6), (2, 262143)], work := ⟨[], [6], [], []⟩ }).setFa F.KEN_POOL.NBANK 0 [] 1) (at0 7) 0 1 2 false ∧
    (fun (s : State) (a : At) (d : BitVec 4) (v : BitVec 3) (i : Nat) (again : Bool) =>
      let x := s.engOf a
      let h := (x.rd d.toNat).toNat
      let q := x.ddv v
      (Lone s a [7]) ∧ (x.run = .folio i again) ∧ (q < 1048576) ∧ (q / 131072 < s.variant.dies) ∧ (h = 0)) (onEngine sup) (at0 7) 0 1 2 false ∧
    (fun (s : State) (a : At) (d : BitVec 4) (v : BitVec 3) (i : Nat) (again : Bool) =>
      let x := s.engOf a
      let h := (x.rd d.toNat).toNat
      let b : BitVec 16 := BitVec.ofNat 16 h
      let q := x.ddv v
      let w := x.work
      (Lone s a [7]) ∧ (x.run = .folio i again) ∧ (q < 1048576) ∧ (q / 131072 < s.variant.dies) ∧ (h ≠ 0) ∧ (h < s.slots a.die.val) ∧ ((w.has b = false ∨ w.used b = true))) ((onEngine { sup with d := [(0, 8191), (2, 262143)], work := ⟨[], [6], [], []⟩ }).setFa F.KEN_POOL.NBANK 0 [] 1) (at0 7) 0 1 2 false := by decide +kernel

/-- The premises of ALLOC: which free block it takes is a free choice. -/
theorem witness_allocate_pick :
    let s : State := (onEngine sup).setFa F.KEN_POOL.NBANK 0 [] 1
    let h := 1 + freeNat 8191 s.fresh
    (Lone s (at0 7) [7] ∧ (s.engOf (at0 7)).run ≠ .idle ∧ s.pickFree 0 = some h) ∧ 0 < h ∧ h < 65536 := by
  intro s h
  have hl : freeNat 8191 s.fresh < 8191 := Nat.mod_lt _ (by decide)
  refine ⟨⟨by decide +kernel, by decide +kernel, ?_⟩, by omega, by omega⟩
  have h1 : s.allocLimit 0 = 8192 := by decide +kernel
  have h2 : s.blks = [] := by decide +kernel
  have h3 : ∀ c, s.blk 0 c = Block.free := fun c => by simp [State.blk, h2, Store.get, Store.find]
  simp only [State.pickFree, h1, h2, State.scanFree, h3]
  rfl

/-- The premises of DEQ from a queue whose head is in error in both arrays (R389). -/
theorem witness_dequeue_rowLost :
    let s : State := { (onEngine { sup with d := [(2, 9)] }).setDie 0 { (onEngine sup).die 0 with qbad := [Config.queueHead 9, (pairArray (Config.queueHead 9).1, (Config.queueHead 9).2)] } with flA := [(0, ⟨0x80100009, 0, 0, 0⟩)] }
    let x := s.engOf (at0 7)
    (Lone s (at0 7) [7] ∧ x.ddv 1 = 9 ∧ x.run ≠ .idle ∧ s.queOpen 9 = true ∧ s.portQueue 9 = false) ∧ s.rowsLost 9 = true :=
  ⟨by decide +kernel, State.rowsLost_head _ 9 (.head _) (.tail _ (.head _))⟩

theorem witness_dequeueAndAllocate :
    (fun (s : State) (a : At) (v : BitVec 3) (e : QEnt) =>
      let x := s.engOf a
      let q := x.ddv v
      let D := a.die.val
      let front := (s.que q).com.find? (fun e => !e.held && !e.gone)
      (Lone s a [7]) ∧ (q < 1048576) ∧ (q / 131072 = D) ∧ (x.run ≠ .idle) ∧ (s.queOpen q = true) ∧ (s.portQueue q = false) ∧ ((s.die D).qbad = []) ∧ (front = some e) ∧ (0 < e.h.toNat))
      { (onEngine { sup with d := [(2, 9)] }).setFa F.KEN_POOL.NBANK 0 [] 1 with ques := [(9, { Queue.zero with com := [⟨5, 0, false, false⟩] })], flA := [(0, ⟨0x80100009, 0, 0, 0⟩)] } (at0 7) 1 ⟨5, 0, false, false⟩ ∧
    (fun (s : State) (a : At) =>
      let x := s.engOf a
      let D := a.die.val
      (Lone s a [7]) ∧ (x.run = .idle ∨ s.pickFree D = none)) (onEngine { sup with run := .idle }) (at0 7) ∧
    (fun (s : State) (a : At) (v : BitVec 3) =>
      let x := s.engOf a
      let q := x.ddv v
      let D := a.die.val
      let front := (s.que q).com.find? (fun e => !e.held && !e.gone)
      (Lone s a [7]) ∧ (q < 1048576) ∧ (q / 131072 = D) ∧ (x.run = .idle ∨ (s.portQueue q = false ∧ (s.queOpen q = false ∨ (front = none ∧ (s.die D).qbad = []))))) (onEngine sup) (at0 7) 1 ∧
    (fun (s : State) (a : At) (v : BitVec 3) =>
      let x := s.engOf a
      let q := x.ddv v
      let D := a.die.val
      (Lone s a [7]) ∧ (q < 1048576) ∧ (q / 131072 = D) ∧ (x.run ≠ .idle) ∧ (s.portQueue q = true))
      ((onEngine { sup with d := [(2, 9)] }).setFa F.DIE_SUPQ.V 0 [] 1 |>.setFa F.DIE_SUPQ.Q 0 [] 9) (at0 7) 1 ∧
    (fun (s : State) (a : At) (v : BitVec 3) =>
      let x := s.engOf a
      let q := x.ddv v
      let D := a.die.val
      (Lone s a [7]) ∧ (1048576 ≤ q ∨ q / 131072 ≠ D) ∧ (x.sh = false)) (onEngine { sup with d := [(3, 4), (2, 0)] }) (at0 7) 1 := by decide +kernel

/-- With no word in error no row is lost. -/
theorem witness_dequeue_noRowLost : ({ (onEngine { sup with d := [(2, 9)] }).setFa F.KEN_POOL.NBANK 0 [] 1 with ques := [(9, { Queue.zero with com := [⟨5, 0, false, false⟩] })], flA := [(0, ⟨0x80100009, 0, 0, 0⟩)] } : State).rowsLost 9 = false :=
  State.rowsLost_sound _ 9 (by decide)

theorem witness_sharedBitOperations :
    (fun (s : State) (a : At) =>
      let x := s.engOf a
      (Lone s a [7]) ∧ (x.user = false)) (onEngine sup) (at0 7) := by decide +kernel

theorem witness_systemRegisters :
    (fun (s : State) (a : At) (sys : BitVec 5) =>
      let x := s.engOf a
      let n := sys.toNat
      (Lone s a [7]) ∧ (x.loops.length ≤ 4) ∧ (x.st.toNat / 64 % 8 = 0) ∧ (n < 19 ∨ 22 < n) ∧ (x.user = false ∨ n ≤ 9 ∨ n = 23 ∨ n = 24)) (onEngine sup) (at0 7) 0 ∧
    (fun (s : State) (a : At) (d : BitVec 4) (sys : BitVec 5) =>
      let x := s.engOf a
      let n := sys.toNat
      (Lone s a [7]) ∧ (x.loops.length ≤ 4) ∧ (x.st.toNat / 64 % 8 = 0) ∧ (19 ≤ n) ∧ (n ≤ 22) ∧ (d.toNat % 2 = 0)) (onEngine sup) (at0 7) 0 22 ∧
    (fun (s : State) (a : At) (sys : BitVec 5) =>
      let x := s.engOf a
      let n := sys.toNat
      (Lone s a [7]) ∧ (n < 19 ∨ n = 23 ∨ n = 24) ∧ (x.user = false ∨ n ∈ [0, 2, 3, 4, 8])) (onEngine sup) (at0 7) 0 ∧
    (fun (s : State) (a : At) (d : BitVec 4) (sys : BitVec 5) =>
      let x := s.engOf a
      let n := sys.toNat
      (Lone s a [7]) ∧ (19 ≤ n) ∧ (n ≤ 22) ∧ (d.toNat % 2 = 0) ∧ (x.user = false)) (onEngine sup) (at0 7) 0 22 := by decide +kernel

theorem witness_tlbEntries :
    (fun (s : State) (a : At) (e : TlbEnt) (i : Nat) =>
      let x := s.engOf a
      let at_ (j : Nat) : TlbEnt := x.l2.get .zero j
      (Lone s a [7]) ∧ (x.user = false) ∧ (6 ≤ e.ps.toNat) ∧ (e.ps.toNat ≤ 36) ∧ (e.space ≠ 3) ∧ (e.perr = false) ∧ ((List.range 8).map (fun j => x.rd (8 + j)) = e.words) ∧ (i < 128) ∧ ((at_ i).pin = false) ∧ ((at_ i).v = false) ∧ ((∀ j < i, (at_ j).pin = true ∨ (at_ j).v = true))) (onEngine { sup with d := (List.range 8).map (fun j => (8 + j, page.words.getD j 0)), l2 := [(0, page)] }) (at0 7) page 1 ∧
    (fun (s : State) (a : At) =>
      let x := s.engOf a
      let at_ (j : Nat) : TlbEnt := x.l2.get .zero j
      (Lone s a [7]) ∧ (x.user = false) ∧ ((∀ j < 128, (at_ j).pin = true))) (onEngine { sup with l2 := (List.range 128).map (fun j => (j, { page with pin := true })) }) (at0 7) ∧
    (fun (s : State) (a : At) (d : BitVec 4) =>
      let x := s.engOf a
      let k := (x.rd d.toNat).toNat % 128
      let at_ (j : Nat) : TlbEnt := x.l2.get .zero j
      (Lone s a [7]) ∧ (x.user = false) ∧ ((at_ k).perr = false)) (onEngine sup) (at0 7) 0 ∧
    (fun (e : TlbEnt) (f : TlbEnt) =>
      (e.perr = false) ∧ (f.perr = false) ∧ (e.words = f.words)) page page := by decide +kernel

theorem witness_tlbInvalidationAndWalk_1 :
    (fun (s : State) (a : At) =>
      let x := s.engOf a
      (Lone s a [7]) ∧ (x.user = false)) (onEngine { sup with l2 := [(127, { page with perr := true })], dtlb := [some ⟨127, page⟩], itlb := [none] }) (at0 7) ∧
    (fun (s : State) (a : At) (v : BitVec 3) (w : W36) =>
      let x := s.engOf a
      let desc := x.ddv v
      let va := x.evah.toNat * 262144 + x.eval.toNat
      let space := desc / 2 ^ 34
      let base := desc / 2 ^ 11 % 2 ^ 23
      let sh := desc / 16 % 64
      let wid := desc % 16
      let pa := space * 2 ^ 36 + base * 8192 + 2 * (va / 2 ^ sh % 2 ^ wid)
      let p := s.landPa pa
      let cached := x.walk.find? (fun e => decide (e.1 = pa) && !e.2.2)
      (Lone s a [7]) ∧ (x.user = false) ∧ (desc / 1024 % 2 = 0) ∧ (0 < wid) ∧ (wid ≤ 12) ∧ (sh + wid ≤ 36) ∧ (space = 0) ∧ (s.located p = true) ∧ (cached = some (pa, w, false)))
      ((onEngine { sup with d := [(3, 5), (2, 1)], walk := [(5242880, 9, false)] }).setF F.SHM_OWN.OWNER 0 [5] 11) (at0 7) 1 9 ∧
    (fun (s : State) (a : At) (v : BitVec 3) =>
      let x := s.engOf a
      let desc := x.ddv v
      let va := x.evah.toNat * 262144 + x.eval.toNat
      let space := desc / 2 ^ 34
      let base := desc / 2 ^ 11 % 2 ^ 23
      let sh := desc / 16 % 64
      let wid := desc % 16
      let pa := space * 2 ^ 36 + base * 8192 + 2 * (va / 2 ^ sh % 2 ^ wid)
      let p := s.landPa pa
      let cached := x.walk.find? (fun e => decide (e.1 = pa) && !e.2.2)
      (Lone s a [7]) ∧ (x.user = false) ∧ (desc / 1024 % 2 = 0) ∧ (0 < wid) ∧ (wid ≤ 12) ∧ (sh + wid ≤ 36) ∧ (space = 0) ∧ (s.live (paDie p) = true) ∧ (paShared p = true) ∧ (s.f F.SHM_PWR.PSTAT (paDie p) [paBank p] = 0) ∧ (s.admits a.die.val a.eng.val p = true) ∧
      (cached = none) ∧ ((∀ b ∈ x.sbuf, b.pa + b.words.length ≤ p ∨ p + 2 ≤ b.pa)) ∧ (ok18 (s.word p) = true) ∧ (ok18 (s.word (p + 1)) = true))
      ((onEngine { sup with d := [(3, 5), (2, 1)] }).setF F.SHM_OWN.OWNER 0 [5] 11) (at0 7) 1 := by decide +kernel

theorem witness_tlbInvalidationAndWalk_2 :
    (fun (s : State) (a : At) (v : BitVec 3) =>
      let x := s.engOf a
      let desc := x.ddv v
      let va := x.evah.toNat * 262144 + x.eval.toNat
      let space := desc / 2 ^ 34
      let base := desc / 2 ^ 11 % 2 ^ 23
      let sh := desc / 16 % 64
      let wid := desc % 16
      let pa := space * 2 ^ 36 + base * 8192 + 2 * (va / 2 ^ sh % 2 ^ wid)
      let p := s.landPa pa
      let cached := x.walk.find? (fun e => decide (e.1 = pa) && !e.2.2)
      (Lone s a [7]) ∧ (x.user = false) ∧ (desc / 1024 % 2 = 0) ∧ (0 < wid) ∧ (wid ≤ 12) ∧ (sh + wid ≤ 36) ∧ (space = 2) ∧ (cached = none) ∧ (s.aperOk false pa = true)) ((onEngine { sup with d := [(3, 131072), (2, 1)] }).setF F.HPT_AWCFG.EN 0 [0] 1) (at0 7) 1 ∧
    (fun (s : State) (a : At) (v : BitVec 3) =>
      let x := s.engOf a
      let desc := x.ddv v
      let va := x.evah.toNat * 262144 + x.eval.toNat
      let space := desc / 2 ^ 34
      let base := desc / 2 ^ 11 % 2 ^ 23
      let sh := desc / 16 % 64
      let wid := desc % 16
      let pa := space * 2 ^ 36 + base * 8192 + 2 * (va / 2 ^ sh % 2 ^ wid)
      let p := s.landPa pa
      let cached := x.walk.find? (fun e => decide (e.1 = pa) && !e.2.2)
      (Lone s a [7]) ∧ (x.user = false) ∧ (desc / 1024 % 2 = 0) ∧ (0 < wid) ∧ (wid ≤ 12) ∧ (sh + wid ≤ 36) ∧ (space = 2) ∧ (cached = none) ∧ (s.aperOk false pa = false) ∧ (x.sh = false)) (onEngine { sup with d := [(3, 131072), (2, 1)] }) (at0 7) 1 ∧
    (fun (s : State) (a : At) (v : BitVec 3) =>
      let x := s.engOf a
      let space := x.ddv v / 2 ^ 34
      (Lone s a [7]) ∧ (x.user = false) ∧ (space = 1) ∧ (x.sh = false)) (onEngine { sup with d := [(3, 65536), (2, 0)] }) (at0 7) 1 ∧
    (fun (s : State) (a : At) (v : BitVec 3) =>
      let x := s.engOf a
      let desc := x.ddv v
      (Lone s a [7]) ∧ (x.user = false) ∧ (desc / 2 ^ 34 = 3 ∨ (desc / 2 ^ 34 ≠ 1 ∧ (desc / 1024 % 2 = 1 ∨ desc % 16 = 0 ∨ 12 < desc % 16 ∨ 36 < desc / 16 % 64 + desc % 16))) ∧
      (x.sh = false)) (onEngine sup) (at0 7) 1 := by decide +kernel

theorem witness_programWrites :
    (fun (s : State) (a : At) (n : BitVec 3) (d : BitVec 4) =>
      let x := s.engOf a
      let A := (x.ra n.toNat).toNat
      let t := (x.rd d.toNat).toNat
      let other := decide (t / 4096 % 2 = 1)
      (Lone s a [7]) ∧ (x.user = false) ∧ (A % 8 = 0) ∧ ((other = true ∨ x.st.getLsbD 4 = true)) ∧ ((∀ k < 8, x.goodL (A + k) = true))) (onEngine { sup with d := [(0, 4096)], a := [(0, 8)] }) (at0 7) 0 0 ∧
    (fun (s : State) (a : At) (l : List PmwEnt) =>
      (Lone s a [7]) ∧ (l ≠ []) ∧ ((∀ p ∈ l, p.age < 7))) (onEngine { sup with d := [(0, 4096)], a := [(0, 8)] }) (at0 7) [⟨true, 4095, 8, 0, 6⟩] ∧
    (fun (s : State) (a : At) (l : List PmwEnt) =>
      (Lone s a [7]) ∧ (l ≠ []) ∧ ((∀ p ∈ l, p.age = 7))) (onEngine { sup with d := [(0, 4096)], a := [(0, 8)] }) (at0 7) [⟨true, 4095, 8, 0, 7⟩] ∧
    (fun (s : State) (a : At) (i : Nat) (again : Bool) =>
      let x := s.engOf a
      (Lone s a [7]) ∧ (x.user = true) ∧ (x.run = .folio i again)) (onEngine { sup with st := 0, itlb := codePage }) (at0 7) 2 false := by decide +kernel

theorem witness_trapsTaken :
    (fun (s : State) (a : At) =>
      let x := s.engOf a
      (s.solo a = true) ∧ (x.sh = false) ∧ (Lone s a [7])) (onEngine sup) (at0 7) ∧
    (fun (s : State) (a : At) (syls : List W18) (i : Fin 8) =>
      let x := s.engOf a
      (s.solo a = true) ∧ (x.sh = false) ∧ (reservedSlot syls = some i)) (onEngine sup) (at0 7) [0, 0, 0, 0, 0, 0, 0, 258048] 7 ∧
    (fun (s : State) (a : At) =>
      let x := s.engOf a
      (Lone s a [7]) ∧ (x.user = true) ∧ (x.sh = false)) (onEngine { sup with st := 0, itlb := codePage }) (at0 7) := by decide +kernel

theorem witness_vectorArithmetic :
    (fun (s : State) (a : At) =>
      (Lone s a [6])) (onEngine { sup with vl := 16 }) (at0 6) := by decide +kernel

theorem witness_vectorMovesAndExtremes :
    (fun (s : State) (a : At) (vd : BitVec 4) =>
      (Lone s a [6]) ∧ (vd.toNat % 2 = 0)) (onEngine { sup with vl := 16 }) (at0 6) 14 ∧
    (fun (s : State) (a : At) (d : BitVec 4) =>
      (Lone s a [6]) ∧ (d.toNat % 2 = 0)) (onEngine { sup with vl := 16 }) (at0 6) 14 := by decide +kernel

theorem witness_vectorAccumulators :
    (fun (s : State) (a : At) =>
      (Lone s a [6])) (onEngine { sup with vl := 16 }) (at0 6) := by decide +kernel

theorem witness_localVectorAccess_1 :
    (fun (s : State) (a : At) (vd : BitVec 4) (n : BitVec 3) (mode : BitVec 3) (k : Fin 4) =>
      let x := s.engOf a
      let N := min x.vl.toNat 16
      let K := k.val + 1
      let fits (delta : Int) : Bool := x.inRing n.toNat delta
      let step : Int := match mode.toNat with | 1 => (K * N : Nat) | 2 => -(K * N : Nat) | _ => (x.rm n.toNat).toInt
      (Lone s a [6]) ∧ (mode.toNat ≤ 3) ∧ (vd.toNat + K ≤ 16) ∧ ((∀ e < K * N, fits (e : Nat) = true)) ∧ ((mode = 0 ∨ fits step = true)) ∧ (k = 0)) (onEngine { sup with vl := 16, ln := [(0, 64)] }) (at0 6) 15 0 1 0 ∧
    (fun (s : State) (a : At) (vd : BitVec 4) (n : BitVec 3) (mode : BitVec 3) (k : Fin 4) =>
      let x := s.engOf a
      let N := min x.vl.toNat 16
      let K := k.val + 1
      let fits (delta : Int) : Bool := x.inRing n.toNat delta
      let step : Int := match mode.toNat with | 1 => (K * N : Nat) | 2 => -(K * N : Nat) | _ => (x.rm n.toNat).toInt
      (Lone s a [6]) ∧ (mode.toNat ≤ 3) ∧ (vd.toNat + K ≤ 16) ∧ ((∀ e < K * N, fits (e : Nat) = true)) ∧ ((mode = 0 ∨ fits step = true)) ∧ (k = 1)) (onEngine { sup with vl := 16, ln := [(0, 64)] }) (at0 6) 14 0 1 1 ∧
    (fun (s : State) (a : At) (vd : BitVec 4) (n : BitVec 3) (mode : BitVec 3) (k : Fin 4) =>
      let x := s.engOf a
      let N := min x.vl.toNat 16
      let K := k.val + 1
      let fits (delta : Int) : Bool := x.inRing n.toNat delta
      let step : Int := match mode.toNat with | 1 => (K * N : Nat) | 2 => -(K * N : Nat) | _ => (x.rm n.toNat).toInt
      (Lone s a [6]) ∧ (mode.toNat ≤ 3) ∧ (vd.toNat + K ≤ 16) ∧ ((∀ e < K * N, fits (e : Nat) = true)) ∧ ((mode = 0 ∨ fits step = true)) ∧ (k = 2)) (onEngine { sup with vl := 16, ln := [(0, 64)] }) (at0 6) 13 0 1 2 ∧
    (fun (s : State) (a : At) (vd : BitVec 4) (n : BitVec 3) (mode : BitVec 3) (k : Fin 4) =>
      let x := s.engOf a
      let N := min x.vl.toNat 16
      let K := k.val + 1
      let fits (delta : Int) : Bool := x.inRing n.toNat delta
      let step : Int := match mode.toNat with | 1 => (K * N : Nat) | 2 => -(K * N : Nat) | _ => (x.rm n.toNat).toInt
      (Lone s a [6]) ∧ (mode.toNat ≤ 3) ∧ (vd.toNat + K ≤ 16) ∧ ((∀ e < K * N, fits (e : Nat) = true)) ∧ ((mode = 0 ∨ fits step = true)) ∧ (k = 3)) (onEngine { sup with vl := 16, ln := [(0, 64)] }) (at0 6) 12 0 1 3 := by decide +kernel

theorem witness_localVectorAccess_2 :
    (fun (s : State) (a : At) (n : BitVec 3) (m : BitVec 3) (u : BitVec 2) =>
      let x := s.engOf a
      let N := min x.vl.toNat 16
      let mm := (x.rm m.toNat).toInt
      let fits (delta : Int) : Bool := x.inRing n.toNat delta
      (Lone s a [6]) ∧ (u.toNat < 2) ∧ ((∀ i < N + 1, fits (i * mm) = true))) (onEngine { sup with vl := 16, ln := [(0, 64)] }) (at0 6) 0 0 1 ∧
    (fun (s : State) (a : At) (vb : BitVec 4) (n : BitVec 3) =>
      let x := s.engOf a
      let N := min x.vl.toNat 16
      let picked : List Nat := (List.range N).map (fun i => ((x.ra n.toNat).toNat + (x.v.get 0 (16 * vb.toNat + i)).toNat) % 65536)
      (Lone s a [6]) ∧ (∀ e ∈ picked, x.goodL e = true) ∧ (s.mayStore a picked = true)) (onEngine { sup with vl := 16, ln := [(0, 64)] }) (at0 6) 15 0 := by decide +kernel

theorem witness_vectorLength :
    (fun (s : State) (a : At) =>
      (Lone s a [6])) (onEngine sup) (at0 6) ∧
    (fun (s : State) (a : At) =>
      (LoneX s a [6])) (onEngine sup) (at0 6) ∧
    (fun (s : State) (a : At) =>
      let x := s.engOf a
      (Lone s a [7]) ∧ (x.user = false)) (onEngine sup) (at0 7) ∧
    (fun (s : State) (a : At) =>
      let x := s.engOf a
      (Lone s a [7]) ∧ (x.user = true) ∧ (x.sh = false)) (onEngine { sup with st := 0, itlb := codePage }) (at0 7) := by decide +kernel

theorem witness_railsResetAndTestPort :
    (fun (s : State) (die : DieNo) (rail : Rail) =>
      let d := die.val
      let x := s.die d
      let out := rail ∈ x.railsOut
      (s.live d = true) ∧ (¬ out)) State.reset 0 .core ∧
    (fun (s : State) (die : DieNo) (rail : Rail) =>
      let d := die.val
      let x := s.die d
      let out := rail ∈ x.railsOut
      (s.live d = true) ∧ (out)) (State.reset.setDie 0 { railsOut := [.core] }) 0 .core ∧
    (fun (s : State) (die : DieNo) (rail : Rail) =>
      let d := die.val
      let x := s.die d
      let gone (i : Nat) : Bool := !s.populated i || s.lost i || decide (i = d) || !(s.die i).trips.isEmpty
      (s.live d = true) ∧ (s.pkgState ≠ 0) ∧ (rail ∉ x.trips) ∧ ((∃ i < 8, gone i = false))) State.reset 0 .core ∧
    (fun (s : State) (die : DieNo) (rail : Rail) =>
      let d := die.val
      let x := s.die d
      let gone (i : Nat) : Bool := !s.populated i || s.lost i || decide (i = d) || !(s.die i).trips.isEmpty
      (s.live d = true) ∧ (s.pkgState ≠ 0) ∧ (rail ∉ x.trips) ∧ ((∀ i < 8, gone i = true))) ({ State.reset with variant := .dxd2064 }.setDie 1 { trips := [.core] }) 0 .core ∧
    (fun (s : State) =>
      (s.pkg.resetLow = false)) State.reset ∧
    (fun (s : State) =>
      (s.pkg.resetLow = true) ∧ (∃ i < 8, s.populated i = true ∧ ((s.die i).trips ≠ [] ∨ (s.die i).railsOut ≠ []))) ({ State.reset.setDie 7 { railsOut := [.core] } with pkg := { State.reset.pkg with resetLow := true } }) ∧
    (fun (s : State) =>
      (s.pkg.resetLow = true) ∧ (∀ i < 8, s.populated i = true → (s.die i).trips = [] ∧ (s.die i).railsOut = [])) ({ State.reset with pkg := { State.reset.pkg with resetLow := true } }) ∧
    (fun (s : State) =>
      (s.f F.PKG_SVNUP.GO 0 [] = 1)) (State.reset.setF F.PKG_SVNUP.GO 0 [] 1) := by decide +kernel

theorem witness_registerWrites :
    (fun (s : State) (src : Src) (addr : BitVec 24) (be : BitVec 8) =>
      let A := addr.toNat
      let host := (match src with | .host _ => true | .eng _ _ => false)
      let size := host && (decide (be ≠ 0x0F) || decide (A % 4 ≠ 0))
      (s.srcLive src = true) ∧ (size || s.unpop A || s.noAuth src A)) (State.reset.setF F.PKG_AUTH.OWNER 0 [] 1) (.host 0) 0 255 ∧
    (fun (s : State) (src : Src) (addr : BitVec 24) (write : Bool) =>
      let A := addr.toNat
      let host := (match src with | .host _ => true | .eng _ _ => false)
      (s.srcLive src = true) ∧ (s.unpop A = true) ∧ (A % 4 = 0) ∧ (write = true ∨ host = false)) ({ State.reset with variant := .dxd2064 }) (.host 1) 0x300000 true ∧
    (fun (s : State) (src : Src) (addr : BitVec 24) (p : PortNo) (space : HostSpace) =>
      let A := addr.toNat
      (src = .host p) ∧ (s.srcLive src = true) ∧ (s.unpop (A / 4 * 4) = true ∨ crosses src A = none) ∧ (space = .bar0)) State.reset (.host 1) 0x2FFFFF 1 .bar0 ∧
    (fun (s : State) (src : Src) (addr : BitVec 24) (p : PortNo) (g : Nat) (space : HostSpace) =>
      let A := addr.toNat
      (src = .host p) ∧ (s.srcLive src = true) ∧ (s.unpop (A / 4 * 4) = false) ∧ (crosses src A = some (p, g)) ∧ (space = .bar0)) State.reset (.host 1) 0x8FFFFF 1 7 .bar0 ∧
    (fun (s : State) (src : Src) (addr : BitVec 24) (be : BitVec 8) (p : PortNo) =>
      let A := addr.toNat
      (src = .host p) ∧ (s.srcLive src = true) ∧ (A < 0x200) ∧ (A % 4 = 0) ∧ (be = 0x0F)) State.reset (.host 1) 0x1FC 0x0F 1 ∧
    (fun (s : State) (src : Src) (val : W32) (p : PortNo) (space : HostSpace) (g : CfgField) =>
      (src = .host p) ∧ (s.srcLive src = true) ∧ (space = .config g) ∧ (g = .timeout) ∧ (val.toNat < 16)) State.reset (.host 1) 15 1 (.config .timeout) .timeout ∧
    (fun (s : State) (src : Src) (val : W32) (p : PortNo) (space : HostSpace) (g : CfgField) =>
      (src = .host p) ∧ (s.srcLive src = true) ∧ (space = .config g) ∧ (g = .maxReadRequest) ∧ (val.toNat < 6)) State.reset (.host 1) 5 1 (.config .maxReadRequest) .maxReadRequest ∧
    (fun (s : State) (src : Src) (p : PortNo) (space : HostSpace) (g : CfgField) =>
      (src = .host p) ∧ (s.srcLive src = true) ∧ (space = .config g) ∧ (g = .classCode)) State.reset (.host 1) 1 (.config .classCode) .classCode ∧
    (fun (s : State) (src : Src) (r : RegName) (d : DieNo) (idx : List Nat) (p : PortNo) (g : Nat) =>
      (s.admitted src r d.val idx = true) ∧ (crosses src (r.addr d.val idx) = some (p, g))) (State.reset.setF F.PKG_AUTH.OWNER 0 [] 1) (.host 0) .KEN_CTL 7 [] 0 7 ∧
    (fun (s : State) (src : Src) (r : RegName) (d : DieNo) (idx : List Nat) =>
      (s.writable src r d.val idx = true) ∧ (r ∉ specialRegs) ∧ (r.banked = false)) State.reset (.eng 7 63) .KEN_CTL 7 [] ∧
    (fun (s : State) (src : Src) (r : RegName) (d : DieNo) (idx : List Nat) =>
      (s.writable src r d.val idx = true) ∧ (r ∉ specialRegs) ∧ (r.banked = true)) State.reset (.eng 7 63) .ENG_FLA 7 [63, 15] ∧
    (fun (s : State) (src : Src) (r : RegName) (d : DieNo) (idx : List Nat) =>
      let aimed := s.admitted src r d.val idx && (crosses src (r.addr d.val idx)).isNone
      (aimed = true) ∧ (r.banked = true) ∧ (r ≠ .DIE_SWAP) ∧ (r ≠ .DIE_EV) ∧ (s.writable src r d.val idx = false)) (State.reset.setF F.PKG_SWAP.ARMED 0 [] 1) (.eng 7 63) .ENG_FLA 7 [63, 15] := by decide +kernel

theorem witness_dieRegisterCommands_1 :
    (fun (s : State) (src : Src) (die : DieNo) =>
      let d := die.val
      let w (r : RegName) (idx : List Nat) : Prop := s.writable src r d idx = true
      (w .SPN_CTL [])) State.reset (.eng 7 63) 7 ∧
    (fun (s : State) (src : Src) (die : DieNo) =>
      let d := die.val
      let w (r : RegName) (idx : List Nat) : Prop := s.writable src r d idx = true
      (w .TCK_CTL [])) State.reset (.eng 7 63) 7 ∧
    (fun (s : State) (src : Src) (die : DieNo) (e : EngNo) =>
      let d := die.val
      let w (r : RegName) (idx : List Nat) : Prop := s.writable src r d idx = true
      (w .ENG_CTL [e.val])) State.reset (.eng 7 63) 7 63 ∧
    (fun (s : State) (src : Src) (die : DieNo) =>
      let d := die.val
      let w (r : RegName) (idx : List Nat) : Prop := s.writable src r d idx = true
      (w .SHM_CTL [])) State.reset (.eng 7 63) 7 ∧
    (fun (s : State) (src : Src) (die : DieNo) =>
      let d := die.val
      let w (r : RegName) (idx : List Nat) : Prop := s.writable src r d idx = true
      (w .KEN_CTL [])) State.reset (.eng 7 63) 7 ∧
    (fun (s : State) (src : Src) (die : DieNo) =>
      let d := die.val
      let w (r : RegName) (idx : List Nat) : Prop := s.writable src r d idx = true
      (w .DIE_RELEASE [])) State.reset (.eng 7 63) 7 ∧
    (fun (s : State) (src : Src) (die : DieNo) (b : Fin 64) =>
      let d := die.val
      let w (r : RegName) (idx : List Nat) : Prop := s.writable src r d idx = true
      (w .SHM_OWN [b.val])) State.reset (.eng 7 63) 7 63 ∧
    (fun (s : State) (src : Src) (die : DieNo) (b : Fin 64) (val : W32) =>
      let d := die.val
      let w (r : RegName) (idx : List Nat) : Prop := s.writable src r d idx = true
      (w .SHM_PWR [b.val]) ∧ (val.toNat % 4 ≠ 3)) State.reset (.eng 7 63) 7 63 0 ∧
    (fun (s : State) (src : Src) (die : DieNo) (b : Fin 64) =>
      let d := die.val
      let w (r : RegName) (idx : List Nat) : Prop := s.writable src r d idx = true
      (w .SHM_TWIN [b.val])) State.reset (.eng 7 63) 7 63 := by decide +kernel

theorem witness_dieRegisterCommands_2 :
    (fun (s : State) (src : Src) (die : DieNo) =>
      let d := die.val
      let w (r : RegName) (idx : List Nat) : Prop := s.writable src r d idx = true
      (w .KEN_AUD [])) State.reset (.eng 7 63) 7 := by decide +kernel

theorem witness_portRegisterCommands_1 :
    (fun (s : State) (src : Src) =>
      let w (x : RegName) (i : Nat) (idx : List Nat) : Prop := s.writable src x i idx = true
      (w .PKG_SWAPCTL 0 [])) State.reset (.eng 7 63) ∧
    (fun (s : State) (src : Src) (p : PortNo) (r : Fin 64) =>
      let w (x : RegName) (i : Nat) (idx : List Nat) : Prop := s.writable src x i idx = true
      let rcfg := s.reg .HPT_RCFG p.val [r.val]
      let on := rcfg.getLsbD 31
      (w .HPT_RCFG p.val [r.val]) ∧ (on = true)) (State.reset.setReg .HPT_RCFG 1 [63] 0x8F000000) (.host 1) 1 63 ∧
    (fun (s : State) (src : Src) (p : PortNo) (r : Fin 64) =>
      let w (x : RegName) (i : Nat) (idx : List Nat) : Prop := s.writable src x i idx = true
      let rcfg := s.reg .HPT_RCFG p.val [r.val]
      let on := rcfg.getLsbD 31
      (w .HPT_RCFG p.val [r.val]) ∧ (on = false)) State.reset (.host 1) 1 63 ∧
    (fun (s : State) (src : Src) (p : PortNo) (val : W32) =>
      let w (x : RegName) (i : Nat) (idx : List Nat) : Prop := s.writable src x i idx = true
      (src = .host p) ∧ (w .PKG_AUTH 0 []) ∧ (val.getLsbD 9 = false)) State.reset (.host 1) 1 0 ∧
    (fun (s : State) (src : Src) (p : PortNo) (val : W32) =>
      let w (x : RegName) (i : Nat) (idx : List Nat) : Prop := s.writable src x i idx = true
      (src = .host p) ∧ (w .PKG_AUTH 0 []) ∧ (val.getLsbD 9 = true)) State.reset (.host 1) 1 0x200 ∧
    (fun (s : State) (src : Src) =>
      let w (x : RegName) (i : Nat) (idx : List Nat) : Prop := s.writable src x i idx = true
      (src ≠ .host 0) ∧ (src ≠ .host 1) ∧ (w .PKG_AUTH 0 [])) State.reset (.eng 7 63) ∧
    (fun (s : State) (src : Src) (p : PortNo) (die : DieNo) =>
      let d := die.val
      let w (x : RegName) (i : Nat) (idx : List Nat) : Prop := s.writable src x i idx = true
      (w .LNK_CTL d [p.val])) State.reset (.eng 7 63) 1 7 := by decide +kernel

theorem witness_portRegisterCommands_2 :
    (fun (s : State) (src : Src) (p : PortNo) (die : DieNo) =>
      let d := die.val
      let w (x : RegName) (i : Nat) (idx : List Nat) : Prop := s.writable src x i idx = true
      (w .LNK_PTPGM0 d [p.val]) ∧ (w .LNK_PTPGM1 d [p.val]) ∧ (w .LNK_PTPGM2 d [p.val])) State.reset (.eng 7 63) 1 7 ∧
    (fun (s : State) (src : Src) (die : DieNo) =>
      let d := die.val
      let w (x : RegName) (i : Nat) (idx : List Nat) : Prop := s.writable src x i idx = true
      (w .FIN_CTL d [])) State.reset (.eng 7 63) 7 ∧
    (fun (s : State) (src : Src) (die : DieNo) =>
      let d := die.val
      let w (x : RegName) (i : Nat) (idx : List Nat) : Prop := s.writable src x i idx = true
      (w .FIN_ADMIT d [])) State.reset (.eng 7 63) 7 ∧
    (fun (s : State) (src : Src) (die : DieNo) (k : Fin 4) =>
      let d := die.val
      let w (x : RegName) (i : Nat) (idx : List Nat) : Prop := s.writable src x i idx = true
      (w .TDM_CTL d [k.val])) State.reset (.eng 7 63) 7 3 ∧
    (fun (s : State) (src : Src) =>
      let w (x : RegName) (i : Nat) (idx : List Nat) : Prop := s.writable src x i idx = true
      (w .PKG_SVNUP 0 [])) State.reset (.eng 7 63) := by decide +kernel

theorem witness_timerCommands :
    (fun (s : State) (src : Src) (die : DieNo) (c : Fin 16) =>
      let d := die.val
      let i := [c.val]
      let w (x : RegName) : Prop := s.writable src x d i = true
      (w .TMU_CTL)) State.reset (.eng 7 63) 7 15 ∧
    (fun (s : State) (src : Src) (die : DieNo) (c : Fin 16) (which : Fin 3) =>
      let d := die.val
      let i := [c.val]
      let w (x : RegName) : Prop := s.writable src x d i = true
      (w .TMU_PERHI) ∧ (which = 0)) State.reset (.eng 7 63) 7 15 0 ∧
    (fun (s : State) (src : Src) (die : DieNo) (c : Fin 16) (which : Fin 3) =>
      let d := die.val
      let i := [c.val]
      let w (x : RegName) : Prop := s.writable src x d i = true
      (w .TMU_CMPHI) ∧ (which = 1)) State.reset (.eng 7 63) 7 15 1 ∧
    (fun (s : State) (src : Src) (die : DieNo) (c : Fin 16) (which : Fin 3) =>
      let d := die.val
      let i := [c.val]
      let w (x : RegName) : Prop := s.writable src x d i = true
      (w .TMU_LDHI) ∧ (which = 2)) State.reset (.eng 7 63) 7 15 2 := by decide +kernel

theorem witness_bankEvents :
    (fun (s : State) (die : DieNo) (bank : Fin 64) =>
      let d := die.val
      let b := bank.val
      let old := s.draining d b
      (s.live d = true) ∧ (s.f F.SHM_OWN.PEND d [b] = 1) ∧ (old = [])) (State.reset.setF F.SHM_OWN.PEND 1 [63] 1) 1 63 ∧
    (fun (s : State) (die : DieNo) (bank : Fin 64) =>
      let d := die.val
      let b := bank.val
      (s.live d = true) ∧ (s.f F.SHM_PWR.PSTAT d [b] = 3)) (State.reset.setF F.SHM_PWR.PSTAT 1 [63] 3) 1 63 ∧
    (fun (s : State) (die : DieNo) (bank : Fin 64) =>
      let d := die.val
      let b := bank.val
      let tw := s.twinOf d b
      (s.live d = true) ∧ (s.formed d b = true) ∧ (s.f F.SHM_TWIN.SYNC d [b] = 0) ∧ (tw.1 ≠ d) ∧ (s.bankOn d b = true) ∧ (s.bankOn tw.1 tw.2 = true)) ((State.reset.setF F.SHM_TWIN.EN 1 [63] 1).setF F.SHM_TWIN.FORMED 1 [63] 1) 1 63 ∧
    (fun (s : State) (die : DieNo) (bank : Fin 64) (word : BitVec 20) =>
      let d := die.val
      let b := bank.val
      let here := bankPa d b word.toNat
      (s.live d = true) ∧ (s.f F.SHM_TWIN.EN d [b] = 1) ∧ (ok18 (s.word here) = false)) (State.reset.setF F.SHM_TWIN.EN 1 [63] 1 |>.setWord (bankPa 1 63 1048575) 1) 1 63 1048575 := by decide +kernel

theorem witness_kennelMoves_1 :
    (fun (s : State) (die : DieNo) (dst : DieNo) (h : BitVec 16) (fn : Nat) =>
      let d := die.val
      let x := s.die d
      let cred := F.KEN_CRED.CREDIT
      (s.live d = true) ∧ (x.outbound.find? (fun p => decide ((s.blk d p.1.toNat).dst / 131072 = dst.val) && !(s.blk d p.1.toNat).sent) = some (h, fn)) ∧ (s.live dst.val = true) ∧ (0 < s.f cred d [dst.val]) ∧ (s.f F.KEN_CRED.FROZEN d [dst.val] = 0)) (((State.reset.setDie 1 { outbound := [(65535, 9)] }).setBlk 1 65535 { Block.free with dst := 917504 }).setF F.KEN_CRED.CREDIT 1 [7] 1) 1 7 65535 9 ∧
    (fun (s : State) (die : DieNo) (dst : DieNo) (h : BitVec 16) (fn : Nat) (q : Nat) (n : Nat) (rest : List Msg) (ws : List W18) =>
      let d := die.val
      let x := s.die d
      let late : Bool := decide (fn < x.ticks)
      let ws' := if late then markLate ws else ws
      (s.live d = true) ∧ (takeMsg (fun y => match y with | .block .. => true | _ => false) x.inbox = some (⟨dst.val, d, n, .block q h ws fn⟩, rest)) ∧ (s.loanOf d dst.val = none)) (State.reset.setDie 1 { inbox := [⟨7, 1, 0, .block 131081 65535 [] 9⟩] }) 1 7 65535 9 131081 0 [] [] ∧
    (fun (s : State) (die : DieNo) (dst : DieNo) (h : BitVec 16) (fn : Nat) (q : Nat) (lb : Nat) (n : Nat) (rest : List Msg) (ws : List W18) =>
      let d := die.val
      let x := s.die d
      let late : Bool := decide (fn < x.ticks)
      let ws' := if late then markLate ws else ws
      (s.live d = true) ∧ (takeMsg (fun y => match y with | .block .. => true | _ => false) x.inbox = some (⟨dst.val, d, n, .block q h ws fn⟩, rest)) ∧ (s.loanOf d dst.val = some lb) ∧ ((∀ f, s.flowOf q = some f → fn < (s.flowState f).opened))) ({ (State.reset.setDie 1 { inbox := [⟨7, 1, 0, .block 131081 65535 (List.replicate 128 5) 9⟩] }) with blks := [(65540, ⟨.loaned, 7, false, 0, false, false, false⟩)] }) 1 7 65535 9 131081 4 0 [] (List.replicate 128 5) ∧
    (fun (s : State) (die : DieNo) (dst : DieNo) (h : BitVec 16) (fn : Nat) (q : Nat) (lb : Nat) (g : Nat) (n : Nat) (rest : List Msg) (ws : List W18) =>
      let d := die.val
      let x := s.die d
      let late : Bool := decide (fn < x.ticks)
      let ws' := if late then markLate ws else ws
      (s.live d = true) ∧ (takeMsg (fun y => match y with | .block .. => true | _ => false) x.inbox = some (⟨dst.val, d, n, .block q h ws fn⟩, rest)) ∧ (s.loanOf d dst.val = some lb) ∧ (s.flowOf q = some g) ∧ ((s.flowState g).opened ≤ fn) ∧ (((s.flow g).cmax = 0 ∨ 1 ≤ (s.flowState g).tokens)) ∧ (ws.length = 128)) ({ (State.reset.setDie 1 { inbox := [⟨7, 1, 0, .block 131081 65535 (List.replicate 128 5) 9⟩] }) with blks := [(65540, ⟨.loaned, 7, false, 0, false, false, false⟩)], flA := [(8192, ⟨0x80100009, 0, 0, 0⟩)] }.setFa F.KEN_POOL.NBANK 1 [] 1) 1 7 65535 9 131081 4 8192 0 [] (List.replicate 128 5) ∧
    (fun (s : State) (die : DieNo) (dst : DieNo) (h : BitVec 16) (n : Nat) (rest : List Msg) =>
      let d := die.val
      let x := s.die d
      (s.live d = true) ∧ (takeMsg (fun y => match y with | .ack _ => true | _ => false) x.inbox = some (⟨dst.val, d, n, .ack h⟩, rest))) (State.reset.setDie 1 { inbox := [⟨7, 1, 0, .ack 65535⟩] }) 1 7 65535 0 [] := by decide +kernel

theorem witness_kennelMoves_2 :
    (fun (s : State) (die : DieNo) (m : Msg) (rest : List Msg) =>
      let d := die.val
      let x := s.die d
      (s.live d = true) ∧ (takeMsg (fun y => match y with | .credit => true | _ => false) x.inbox = some (m, rest))) (State.reset.setDie 1 { inbox := [⟨7, 1, 0, .credit⟩] }) 1 ⟨7, 1, 0, .credit⟩ [] ∧
    (fun (s : State) (die : DieNo) =>
      let d := die.val
      let x := s.die d
      (s.live d = true) ∧ (x.audit.running = true) ∧ (64 ≤ x.audit.frame) ∧ (x.audit.settled = false)) (State.reset.setDie 1 { audit := { running := true, frame := 64 } }) 1 ∧
    (fun (s : State) (die : DieNo) (h : BitVec 16) (k : Holder) =>
      let d := die.val
      let x := s.die d
      (s.live d = true) ∧ (x.audit.running = true) ∧ (64 ≤ x.audit.frame) ∧ (x.audit.settled = false) ∧ (s.validH d h.toNat = true) ∧
      ((s.holders d).filter (fun p => decide (p.1 = h.toNat)) = [(h.toNat, k)])) ((State.reset.setDie 1 { audit := { running := true, frame := 64 } }).setQue 131073 { Queue.zero with com := [⟨5, 0, false, false⟩] } |>.setFa F.KEN_POOL.NBANK 1 [] 1) 1 5 (.queue 131073) ∧
    (fun (s : State) (die : DieNo) (h : BitVec 16) =>
      let d := die.val
      let x := s.die d
      (s.live d = true) ∧ (x.audit.running = true) ∧ (64 ≤ x.audit.frame) ∧ (x.audit.settled = false) ∧ (s.validH d h.toNat = true) ∧
      ((s.holders d).all (fun p => decide (p.1 ≠ h.toNat)) = true)) ((State.reset.setDie 1 { audit := { running := true, frame := 64 } }).setFa F.KEN_POOL.NBANK 1 [] 1) 1 5 ∧
    (fun (s : State) (die : DieNo) (h : BitVec 16) (k : Holder) (l : List (BitVec 16 × Holder)) =>
      let d := die.val
      let x := s.die d
      (s.live d = true) ∧ (x.audit.copies = (h, k) :: l) ∧ (k ≠ .loan) ∧ ((h.toNat, k) ∉ s.holders d)) (State.reset.setDie 1 { audit := { copies := [(5, .queue 131073)] } }) 1 5 (.queue 131073) [] := by decide +kernel

theorem witness_spineEvents :
    (fun (s : State) (die : DieNo) (dir : Dir) =>
      let d := die.val
      let st : Dir → Fld := fun r => match r with | .up => F.SPN_STAT.UP_STATE | .dn => F.SPN_STAT.DN_STATE
      let flip : Dir := match dir with | .up => .dn | .dn => .up
      let nb := s.next d flip
      let out (t : State) (i : Nat) (r : Dir) : Segment := match r with | .up => (t.die i).up | .dn => (t.die i).dn
      let g := out s nb dir
      let sent : Option (Msg × Bool × Segment) := match g.cur with
        | some (y, b) => some (y, b, g)
        | none => match g.through, g.queue with
        | y :: ys, [] => some (y, true, { g with through := ys, turn := false })
        | [], z :: zs => some (z, false, { g with queue := zs, turn := false })
        | y :: ys, z :: zs => if g.turn then some (z, false, { g with queue := zs, turn := false }) else some (y, true, { g with through := ys, turn := true })
        | [], [] => match g.tests with
        | [] => none
        | y :: ys => some (y, false, { g with tests := ys, turn := false })
      (s.live d = false ∨ 1 < s.f (st dir) nb [] ∨ sent = none)) State.reset 1 .up ∧
    (fun (s : State) (die : DieNo) (dir : Dir) (m : Msg) (thr : Bool) (g1 : Segment) =>
      let d := die.val
      let st : Dir → Fld := fun r => match r with | .up => F.SPN_STAT.UP_STATE | .dn => F.SPN_STAT.DN_STATE
      let flip : Dir := match dir with | .up => .dn | .dn => .up
      let nb := s.next d flip
      let out (t : State) (i : Nat) (r : Dir) : Segment := match r with | .up => (t.die i).up | .dn => (t.die i).dn
      let g := out s nb dir
      let sent : Option (Msg × Bool × Segment) := match g.cur with
        | some (y, b) => some (y, b, g)
        | none => match g.through, g.queue with
        | y :: ys, [] => some (y, true, { g with through := ys, turn := false })
        | [], z :: zs => some (z, false, { g with queue := zs, turn := false })
        | y :: ys, z :: zs => if g.turn then some (z, false, { g with queue := zs, turn := false }) else some (y, true, { g with through := ys, turn := true })
        | [], [] => match g.tests with
        | [] => none
        | y :: ys => some (y, false, { g with tests := ys, turn := false })
      let quiet : Bool := s.dies.all (fun q => q.2.due.isEmpty) && s.pkg.waits.all (fun w => match w.kind with | .writes .. => false | _ => true)
      let calm : Bool := match m.body with
        | .flood _ _ (.host ..) => false
        | .flood .. => (s.die d).early.isEmpty
        | .host .. => decide (m.dst ≠ d)
        | _ => decide (m.dst ≠ d) || (s.die d).early.isEmpty
      let plain : Prop := m.body ≠ .test ∧ (match m.body with | .flood .. => false | _ => true) = true
      (s.live d = true) ∧ (s.f (st dir) nb [] ≤ 1) ∧ (sent = some (m, thr, g1)) ∧ (nb ≠ d) ∧ (quiet = true) ∧ (calm = true) ∧ plain ∧
      (s.dies.all (fun q => q.2.early.isEmpty) = true) ∧ (m.dst ≠ d → s.live m.dst = true)) (State.reset.setDie 0 { up := { queue := [⟨0, 1, 0, .presence⟩] } }) 1 .up ⟨0, 1, 0, .presence⟩ false ({}) :=
  by decide +kernel

/-- The premises of the clauses on a delivered write, read and answer, a message passed on, one whose die is dead and the heel's flood. -/
theorem witness_spineDeliveries :
    (fun (s : State) (m : Msg) (p : PortNo) (r : RegName) (idx : List Nat) (v : W32) =>
      (s.live 1 = true) ∧ ((s.die 0).up.queue = [m]) ∧ (m.body = .host p (.write (r.addr 1 idx) v)) ∧ (m.dst = 1) ∧ (m.seq = (s.die 1).seqRx.get 0 m.src) ∧ ((s.die 1).early = []) ∧
      (s.target (r.addr 1 idx) = some ⟨r, 1, idx, false⟩) ∧ (r ∉ specialRegs) ∧ (r.banked = false))
      (State.reset.setDie 0 { up := { queue := [⟨0, 1, 0, .host 0 (.write (RegName.KEN_CTL.addr 1 []) 2)⟩] } }) ⟨0, 1, 0, .host 0 (.write (RegName.KEN_CTL.addr 1 []) 2)⟩ 0 .KEN_CTL [] 2 ∧
    (fun (s : State) (m : Msg) (p : PortNo) (r : RegName) (idx : List Nat) (A : Nat) (be : BitVec 8) =>
      (s.live 1 = true) ∧ ((s.die 0).up.queue = [m]) ∧ (m.body = .host p (.read A be)) ∧ (m.dst = 1) ∧ (m.seq = (s.die 1).seqRx.get 0 m.src) ∧ ((s.die 1).early = []) ∧
      (p.val ≠ 1) ∧ (s.target (A / 4 * 4) = some ⟨r, 1, idx, false⟩))
      (State.reset.setDie 0 { up := { queue := [⟨0, 1, 0, .host 0 (.read (RegName.KEN_CTL.addr 1 [] + 2) 0x0C)⟩] } }) ⟨0, 1, 0, .host 0 (.read (RegName.KEN_CTL.addr 1 [] + 2) 0x0C)⟩ 0 .KEN_CTL []
        (RegName.KEN_CTL.addr 1 [] + 2) 0x0C ∧
    (fun (s : State) (m : Msg) (p : PortNo) (A : Nat) (l : List Byte) =>
      (s.live 1 = true) ∧ ((s.die 0).up.queue = [m]) ∧ (m.body = .host p (.reply A l)) ∧ (m.dst = 1) ∧ (m.seq = (s.die 1).seqRx.get 0 m.src) ∧ ((s.die 1).early = []))
      (State.reset.setDie 0 { up := { queue := [⟨0, 1, 0, .host 1 (.reply 0x100000 [1, 2, 3, 4])⟩] } }) ⟨0, 1, 0, .host 1 (.reply 0x100000 [1, 2, 3, 4])⟩ 1 0x100000 [1, 2, 3, 4] ∧
    (fun (s : State) (m : Msg) => (s.live 1 = true) ∧ ((s.die 0).up.queue = [m]) ∧ (m.body ≠ .test) ∧ (m.dst ≠ 1) ∧ (s.live m.dst = true))
      (State.reset.setDie 0 { up := { queue := [⟨0, 2, 0, .presence⟩] } }) ⟨0, 2, 0, .presence⟩ ∧
    (fun (s : State) (m : Msg) => (s.live 1 = true) ∧ ((s.die 0).up.queue = [m]) ∧ (m.body ≠ .test) ∧ (m.dst ≠ 1) ∧ (s.live m.dst = false))
      ((State.reset.setDie 0 { up := { queue := [⟨0, 2, 0, .presence⟩] } }).setDie 2 { stopped := true }) ⟨0, 2, 0, .presence⟩ ∧
    (fun (s : State) (m : Msg) (seqs : List (Nat × Nat)) (n : Nat) (f : Dir) => (s.live 1 = true) ∧ ((s.die 0).up.queue = [m]) ∧ (m.body = .flood f seqs .presence) ∧
      (seqs.find? (fun p => decide (p.1 = 1)) = some (1, n)) ∧ (n = (s.die 1).seqRx.get 0 m.src) ∧ ((s.die 1).early = []))
      (State.reset.setDie 0 { up := { queue := [⟨0, 1, 0, .flood .up [(1, 0), (2, 0)] .presence⟩] } }) ⟨0, 1, 0, .flood .up [(1, 0), (2, 0)] .presence⟩ [(1, 0), (2, 0)] 0 .up ∧
    (fun (s : State) => (s.f F.SPN_STAT.UP_STATE 1 [] = 3) ∧ ((s.die 1).up.trained = false)) (State.reset.setF F.SPN_STAT.UP_STATE 1 [] 3) := by decide +kernel

theorem witness_folioEvents_1 :
    (fun (s : State) (die : DieNo) (e : EngNo) =>
      let d := die.val
      let x := s.engOf ⟨die, e, 0, none, true, none⟩
      (s.canStart d e.val = true) ∧ (x.redo = none) ∧ (x.next < 16) ∧ (x.listDone = false) ∧ (s.fa F.ENG_FLA.V d [e.val, x.next] = 1)) ((((State.reset.setDie 7 { phase := .work }).setF F.ENG_STAT.PWR 7 [63] 1).setFa F.ENG_FLA.V 7 [63, 15] 1).setEng 7 63 { next := 15 }) 7 63 ∧
    (fun (s : State) (die : DieNo) (e : EngNo) (i : Nat) =>
      let d := die.val
      let x := s.engOf ⟨die, e, 0, none, true, none⟩
      (s.canStart d e.val = true) ∧ (x.redo = some i) ∧ (i < 16)) (((State.reset.setDie 7 { phase := .work }).setF F.ENG_STAT.PWR 7 [63] 1).setEng 7 63 { redo := some 15 }) 7 63 15 ∧
    (fun (s : State) (die : DieNo) (e : EngNo) =>
      let d := die.val
      let x := s.engOf ⟨die, e, 0, none, true, none⟩
      (s.canStart d e.val = true) ∧ (x.redo = none) ∧ (x.listDone = false) ∧ ((16 ≤ x.next ∨ s.fa F.ENG_FLA.V d [e.val, x.next] = 0)) ∧ (s.fa F.ENG_IDLE.EN d [e.val] = 1)) ((((State.reset.setDie 7 { phase := .work }).setF F.ENG_STAT.PWR 7 [63] 1).setFa F.ENG_IDLE.EN 7 [63] 1).setEng 7 63 { next := 16 }) 7 63 ∧
    (fun (s : State) (die : DieNo) (e : EngNo) (i : Nat) (again : Bool) =>
      let d := die.val
      let x := s.engOf ⟨die, e, 0, none, true, none⟩
      (x.run = .folio i again) ∧ (s.fa F.ENG_FLA.BUDGET d [e.val, i] ≠ 0) ∧ (x.budgetHit = false)) (State.reset.setEng 7 63 { run := .folio 15 false } |>.setFa F.ENG_FLA.BUDGET 7 [63, 15] 1) 7 63 15 false ∧
    (fun (s : State) (die : DieNo) (e : EngNo) (j : Fin 8) =>
      let d := die.val
      let x := s.engOf ⟨die, e, 0, none, true, none⟩
      let len := s.fa F.ENG_CMA.LLEN d [e.val, j.val]
      let src := bankPa d 0 (s.fa F.ENG_CMB.SRC d [e.val, j.val])
      (s.live d = true) ∧ ((s.die d).phase = .work) ∧ (x.consts.contains j.val = true) ∧ (x.run = .none) ∧ ((∀ n < len, ok18 (s.word (src + n)) = true ∧ s.mustWait d e.val (src + n) = false ∧ s.constOpen d e.val (src + n) = true))) ((((State.reset.setDie 7 { phase := .work }).setFa F.ENG_CMA.LLEN 7 [63, 7] 8).setF F.SHM_OWN.OWNER 7 [0] 7).setEng 7 63 { consts := [7] }) 7 63 7 := by decide +kernel

theorem witness_folioEvents_2 :
    (fun (s : State) (die : DieNo) (e : EngNo) (j : Fin 8) =>
      let d := die.val
      let x := s.engOf ⟨die, e, 0, none, true, none⟩
      let len := s.fa F.ENG_CMA.LLEN d [e.val, j.val]
      let src := bankPa d 0 (s.fa F.ENG_CMB.SRC d [e.val, j.val])
      (s.live d = true) ∧ ((s.die d).phase = .work) ∧ (x.consts.contains j.val = true) ∧ (x.run = .none) ∧ (len ≠ 0) ∧ (src % 1048576 + len ≤ 1048576) ∧ (s.mustWait d e.val src = false) ∧ (s.constOpen d e.val src = false)) (((State.reset.setDie 7 { phase := .work }).setFa F.ENG_CMA.LLEN 7 [63, 7] 8).setEng 7 63 { consts := [7] }) 7 63 7 ∧
    (fun (s : State) (die : DieNo) (e : EngNo) (i : Nat) (again : Bool) =>
      let d := die.val
      let x := s.engOf ⟨die, e, 0, none, true, none⟩
      (x.run = .folio i again) ∧ (x.fend = true) ∧ (x.landed = true) ∧ (s.live d = true) ∧ (x.work = ⟨[], [], [], []⟩)) (State.reset.setEng 7 63 { run := .folio 15 false, fend := true }) 7 63 15 false ∧
    (fun (s : State) (die : DieNo) (e : EngNo) (i : Nat) (q : Nat) (again : Bool) (h : BitVec 16) =>
      let d := die.val
      let x := s.engOf ⟨die, e, 0, none, true, none⟩
      let g := 131072 * d + q
      (x.run = .folio i again) ∧ (x.fend = true) ∧ (x.landed = true) ∧ (s.live d = true) ∧ (x.work = ⟨[], [h], [(h, g)], []⟩) ∧ (q < 131072) ∧ (s.queOpen g = true)) ({ (State.reset.setEng 7 63 { run := .folio 15 false, fend := true, work := ⟨[], [9], [(9, 1048575)], []⟩ }) with flA := [(57344, ⟨0x8011FFFF, 0, 0, 0⟩)] }) 7 63 15 131071 false 9 ∧
    (fun (s : State) (die : DieNo) (e : EngNo) (i : Nat) (q : Nat) (again : Bool) (h : BitVec 16) =>
      let d := die.val
      let x := s.engOf ⟨die, e, 0, none, true, none⟩
      let g := 131072 * d + q
      (x.run = .folio i again) ∧ (x.fend = true) ∧ (x.landed = true) ∧ (s.live d = true) ∧ (x.work = ⟨[(h, g)], [], [], [h]⟩)) (State.reset.setEng 7 63 { run := .folio 15 false, fend := true, work := ⟨[(9, 917505)], [], [], [9]⟩ }) 7 63 15 1 false 9 := by decide +kernel

theorem witness_farLandings_1 :
    (fun (s : State) (die : DieNo) (e : EngNo) (i : Nat) (w : FarWait) (rest : List FarWait) =>
      let d := die.val
      let x := s.engOf ⟨die, e, 0, none, true, none⟩
      let pa := s.landPa w.pa
      let mem := decide (w.pa < 68719476736)
      let good (n : Nat) : Bool := ok18 (s.word (pa + n))
      let hot (n : Nat) : Bool := s.hotWord (pa + n)
      (s.live d = true) ∧ (x.farOld = []) ∧ (x.far = w :: rest) ∧ (s.farReady d e.val w = true) ∧ (w.kind = .word i) ∧ (w.fwd = none) ∧ (mem = true) ∧ (hot 0 = false) ∧ (good 0 = true)) (State.reset.setEng 7 63 { far := [⟨.word 3, 67108863, false, none, false, 0, 0, [], [], 0, none, 0⟩] }) 7 63 3 ⟨.word 3, 67108863, false, none, false, 0, 0, [], [], 0, none, 0⟩ [] ∧
    (fun (s : State) (die : DieNo) (e : EngNo) (i : Nat) (w : FarWait) (rest : List FarWait) =>
      let d := die.val
      let x := s.engOf ⟨die, e, 0, none, true, none⟩
      let pa := s.landPa w.pa
      let mem := decide (w.pa < 68719476736)
      let hot (n : Nat) : Bool := s.hotWord (pa + n)
      (s.live d = true) ∧ (x.farOld = []) ∧ (x.far = w :: rest) ∧ (s.farReady d e.val w = true) ∧ (w.kind = .word i) ∧ (w.fwd = none) ∧ (mem = true) ∧ (hot 0 = true)) ((State.reset.setDie 1 { panel := { hot := [4095] } }).setEng 7 63 { far := [⟨.word 3, 8657047551, false, none, false, 0, 0, [], [], 0, none, 0⟩] }) 7 63 3 ⟨.word 3, 8657047551, false, none, false, 0, 0, [], [], 0, none, 0⟩ [] ∧
    (fun (s : State) (die : DieNo) (e : EngNo) (i : Nat) (w : FarWait) (rest : List FarWait) (u : W18) =>
      let d := die.val
      let x := s.engOf ⟨die, e, 0, none, true, none⟩
      (s.live d = true) ∧ (x.farOld = []) ∧ (x.far = w :: rest) ∧ (s.farReady d e.val w = true) ∧ (w.kind = .word i) ∧ (w.fwd = some [u])) (State.reset.setEng 7 63 { far := [⟨.word 3, 5, false, some [8], false, 0, 0, [], [], 0, none, 0⟩] }) 7 63 3 ⟨.word 3, 5, false, some [8], false, 0, 0, [], [], 0, none, 0⟩ [] 8 := by decide +kernel

theorem witness_farLandings_2 :
    (fun (s : State) (die : DieNo) (e : EngNo) (i : Nat) (w : FarWait) (rest : List FarWait) =>
      let d := die.val
      let x := s.engOf ⟨die, e, 0, none, true, none⟩
      let pa := s.landPa w.pa
      let mem := decide (w.pa < 68719476736)
      let good (n : Nat) : Bool := ok18 (s.word (pa + n))
      let hot (n : Nat) : Bool := s.hotWord (pa + n)
      (s.live d = true) ∧ (x.farOld = []) ∧ (x.far = w :: rest) ∧ (s.farReady d e.val w = true) ∧ (w.kind = .double i) ∧ (w.fwd = none) ∧ (mem = true) ∧ (hot 0 = false) ∧ (hot 1 = false) ∧ (good 0 = true) ∧ (good 1 = true)) (State.reset.setEng 7 63 { far := [⟨.double 3, 67108862, false, none, false, 0, 0, [], [], 0, none, 0⟩] }) 7 63 3 ⟨.double 3, 67108862, false, none, false, 0, 0, [], [], 0, none, 0⟩ [] ∧
    (fun (s : State) (die : DieNo) (e : EngNo) (data : W36) (dat : Option W36) (i : Nat) (w : FarWait) (rest : List FarWait) =>
      let d := die.val
      let x := s.engOf ⟨die, e, 0, none, true, none⟩
      let aper := decide (137438953472 ≤ w.pa) && s.live (aperPort w.pa) && !(s.port (aperPort w.pa)).inReset
      (s.live d = true) ∧ (x.farOld = []) ∧ (x.far = w :: rest) ∧ (s.farReady d e.val w = true) ∧ (w.kind = .double i) ∧ (w.fwd = none) ∧ (aper = true) ∧ (dat = some data)) (State.reset.setEng 7 63 { far := [⟨.double 3, 171798691839, false, none, false, 0, 0, [], [], 0, none, 0⟩] }) 7 63 5 (some 5) 3 ⟨.double 3, 171798691839, false, none, false, 0, 0, [], [], 0, none, 0⟩ [] ∧
    (fun (s : State) (die : DieNo) (e : EngNo) (dat : Option W36) (i : Nat) (w : FarWait) (rest : List FarWait) =>
      let d := die.val
      let x := s.engOf ⟨die, e, 0, none, true, none⟩
      let aper := decide (137438953472 ≤ w.pa) && s.live (aperPort w.pa) && !(s.port (aperPort w.pa)).inReset
      (s.live d = true) ∧ (x.farOld = []) ∧ (x.far = w :: rest) ∧ (s.farReady d e.val w = true) ∧ (w.kind = .double i) ∧ (w.fwd = none) ∧ (137438953472 ≤ w.pa) ∧ ((aper = false ∨ dat = none))) (State.reset.setEng 7 63 { far := [⟨.double 3, 171798691839, false, none, false, 0, 0, [], [], 0, none, 0⟩] }) 7 63 none 3 ⟨.double 3, 171798691839, false, none, false, 0, 0, [], [], 0, none, 0⟩ [] := by decide +kernel

theorem witness_farLandings_3 :
    (fun (s : State) (die : DieNo) (e : EngNo) (w : FarWait) (rest : List FarWait) =>
      let d := die.val
      let x := s.engOf ⟨die, e, 0, none, true, none⟩
      let pa := s.landPa w.pa
      let mem := decide (w.pa < 68719476736)
      let good (n : Nat) : Bool := ok18 (s.word (pa + n))
      let hot (n : Nat) : Bool := s.hotWord (pa + n)
      (s.live d = true) ∧ (x.farOld = []) ∧ (x.far = w :: rest) ∧ (s.farReady d e.val w = true) ∧ (w.kind = .walk 8 9 10 11) ∧ (w.fwd = none) ∧ (mem = true) ∧ (hot 0 = false) ∧ (hot 1 = false) ∧ (good 0 = true) ∧ (good 1 = true)) (State.reset.setEng 7 63 { far := [⟨.walk 8 9 10 11, 67108862, false, none, false, 0, 0, [], [], 0, none, 0⟩] }) 7 63 ⟨.walk 8 9 10 11, 67108862, false, none, false, 0, 0, [], [], 0, none, 0⟩ [] ∧
    (fun (s : State) (die : DieNo) (e : EngNo) (i : Nat) (w : FarWait) (rest : List FarWait) =>
      let d := die.val
      let x := s.engOf ⟨die, e, 0, none, true, none⟩
      (s.live d = true) ∧ (x.farOld = []) ∧ (x.far = w :: rest) ∧ (w.kind = .sbit i (some true) true) ∧ ((let gr := s.sbits.get .zero (4096 * d + i % 65536 / 16); ok16 gr.c0 = true ∧ gr.c1 = gr.c0))) (State.reset.setEng 7 63 { far := [⟨.sbit 65535 (some true) true, 0, false, none, false, 0, 0, [], [], 0, none, 0⟩] }) 7 63 65535 ⟨.sbit 65535 (some true) true, 0, false, none, false, 0, 0, [], [], 0, none, 0⟩ [] ∧
    (fun (s : State) (die : DieNo) (e : EngNo) (i : Nat) (w : FarWait) (rest : List FarWait) =>
      let d := die.val
      let x := s.engOf ⟨die, e, 0, none, true, none⟩
      let pa := s.landPa w.pa
      let mem := decide (w.pa < 68719476736)
      let good (n : Nat) : Bool := ok18 (s.word (pa + n))
      let hot (n : Nat) : Bool := s.hotWord (pa + n)
      (s.live d = true) ∧ (x.farOld = w :: rest) ∧ (s.farReady d e.val w = true) ∧ (w.kind = .word i) ∧ (w.fwd = none) ∧ (mem = true) ∧ (hot 0 = false) ∧ (good 0 = true)) (State.reset.setEng 7 63 { farOld := [⟨.word 3, 67108863, false, none, false, 0, 0, [], [], 0, none, 0⟩] }) 7 63 3 ⟨.word 3, 67108863, false, none, false, 0, 0, [], [], 0, none, 0⟩ [] := by decide +kernel

theorem witness_farLandings_4 :
    (fun (s : State) (die : DieNo) (e : EngNo) (b : Nat) (slot : Fin 8) (v : SbEnt) =>
      let d := die.val
      let x := s.engOf ⟨die, e, 0, none, true, none⟩
      let sp := s.landPa v.pa
      (s.live d = true) ∧ (x.sbuf[slot.val]? = some v) ∧ ((x.sbuf.take slot.val).all (fun o => decide (v.pa < 137438953472 ∧ s.farDie o.pa ≠ s.farDie v.pa)) = true) ∧ (x.out (s.live (s.farDie v.pa)) v.toks = false) ∧ (s.inTurn d e.val v.toks = true) ∧ (x.waitsFor v.epoch x.xfers = false) ∧ (v.pa < 68719476736) ∧ (s.mustWait d e.val sp = false) ∧ (v.bad = false) ∧ (paShared sp = true) ∧ ((s.formed (paDie sp) (paBank sp) = false ∨ b = 1)) ∧ (v.words.length = b) ∧ (sp % 1048576 + b ≤ 1048576)) (State.reset.setEng 7 63 { sbuf := [⟨67108862, [1, 2], false, 0, 0, [], 0⟩] }) 7 63 2 0 ⟨67108862, [1, 2], false, 0, 0, [], 0⟩ ∧
    (fun (s : State) (die : DieNo) (e : EngNo) (slot : Fin 8) (v : SbEnt) =>
      let d := die.val
      let x := s.engOf ⟨die, e, 0, none, true, none⟩
      let sp := s.landPa v.pa
      (s.live d = true) ∧ (x.sbuf[slot.val]? = some v) ∧ ((x.sbuf.take slot.val).all (fun o => decide (v.pa < 137438953472 ∧ s.farDie o.pa ≠ s.farDie v.pa)) = true) ∧ (x.out (s.live (s.farDie v.pa)) v.toks = false) ∧ (s.inTurn d e.val v.toks = true) ∧ (x.waitsFor v.epoch x.xfers = false) ∧ (v.pa < 68719476736) ∧ (v.bad = false) ∧ (paMailbox sp = true) ∧ (s.hotWord sp = true) ∧ (v.words.length = 1)) ((State.reset.setDie 0 { panel := { hot := [2047] } }).setEng 7 63 { sbuf := [⟨67110911, [1], false, 0, 0, [], 0⟩] }) 7 63 0 ⟨67110911, [1], false, 0, 0, [], 0⟩ := by decide +kernel

theorem witness_farLandings_5 :
    (fun (s : State) (die : DieNo) (e : EngNo) (slot : Fin 8) (v : SbEnt) =>
      let d := die.val
      let x := s.engOf ⟨die, e, 0, none, true, none⟩
      let sp := s.landPa v.pa
      (s.live d = true) ∧ (x.sbuf[slot.val]? = some v) ∧ ((x.sbuf.take slot.val).all (fun o => decide (v.pa < 137438953472 ∧ s.farDie o.pa ≠ s.farDie v.pa)) = true) ∧ (x.out (s.live (s.farDie v.pa)) v.toks = false) ∧ (s.inTurn d e.val v.toks = true) ∧ (x.waitsFor v.epoch x.xfers = false) ∧ (v.pa < 68719476736) ∧ (v.bad = false) ∧ (paMailbox sp = true) ∧ (s.hotWord sp = false) ∧ (v.words.length = 1)) (State.reset.setEng 7 63 { sbuf := [⟨67110911, [1], false, 0, 0, [], 0⟩] }) 7 63 0 ⟨67110911, [1], false, 0, 0, [], 0⟩ ∧
    (fun (s : State) (die : DieNo) (e : EngNo) (data : W36) (slot : Fin 8) (v : SbEnt) =>
      let d := die.val
      let x := s.engOf ⟨die, e, 0, none, true, none⟩
      let words := v.words
      (s.live d = true) ∧ (x.sbuf[slot.val]? = some v) ∧ ((x.sbuf.take slot.val).all (fun o => decide (v.pa < 137438953472 ∧ s.farDie o.pa ≠ s.farDie v.pa)) = true) ∧ (x.out (s.live (s.farDie v.pa)) v.toks = false) ∧ (s.inTurn d e.val v.toks = true) ∧ (x.waitsFor v.epoch x.xfers = false) ∧ (68719476736 ≤ v.pa) ∧ (v.pa < 137438953472) ∧ (v.bad = false) ∧ (words = [BitVec.ofNat 18 data.toNat, BitVec.ofNat 18 (data.toNat / 262144)]) ∧ (2 * (v.pa % 68719476736) < 16777216)) (State.reset.setEng 7 63 { sbuf := [⟨68719476736, [5, 0], false, 0, 0, [], 0⟩] }) 7 63 5 0 ⟨68719476736, [5, 0], false, 0, 0, [], 0⟩ := by decide +kernel

theorem witness_farLandings_6 :
    (fun (s : State) (die : DieNo) (e : EngNo) (slot : Fin 8) (v : SbEnt) =>
      let d := die.val
      let x := s.engOf ⟨die, e, 0, none, true, none⟩
      let port := aperPort v.pa
      (s.live d = true) ∧ (x.sbuf[slot.val]? = some v) ∧ ((x.sbuf.take slot.val).all (fun o => decide (v.pa < 137438953472 ∧ s.farDie o.pa ≠ s.farDie v.pa)) = true) ∧ (x.out (s.live (s.farDie v.pa)) v.toks = false) ∧ (s.inTurn d e.val v.toks = true) ∧ (x.waitsFor v.epoch x.xfers = false) ∧ (137438953472 ≤ v.pa) ∧ (v.bad = false) ∧ (s.live port = true) ∧ ((s.port port).inReset = false)) (State.reset.setEng 7 63 { sbuf := [⟨137438953472, [5], false, 0, 0, [], 0⟩] }) 7 63 0 ⟨137438953472, [5], false, 0, 0, [], 0⟩ ∧
    (fun (s : State) (die : DieNo) (e : EngNo) (slot : Fin 8) (v : SbEnt) =>
      let d := die.val
      let x := s.engOf ⟨die, e, 0, none, true, none⟩
      let port := aperPort v.pa
      (s.live d = true) ∧ (x.sbuf[slot.val]? = some v) ∧ ((x.sbuf.take slot.val).all (fun o => decide (v.pa < 137438953472 ∧ s.farDie o.pa ≠ s.farDie v.pa)) = true) ∧ (x.out (s.live (s.farDie v.pa)) v.toks = false) ∧ (s.inTurn d e.val v.toks = true) ∧ (x.waitsFor v.epoch x.xfers = false) ∧ (137438953472 ≤ v.pa) ∧ (v.bad = false) ∧ ((s.live port = false ∨ (s.port port).inReset = true))) ((State.reset.setEng 7 63 { sbuf := [⟨137438953472, [5], false, 0, 0, [], 0⟩] }).setDie 0 { stopped := true }) 7 63 0 ⟨137438953472, [5], false, 0, 0, [], 0⟩ ∧
    (fun (s : State) (die : DieNo) (e : EngNo) (slot : Fin 8) (v : SbEnt) =>
      let d := die.val
      let x := s.engOf ⟨die, e, 0, none, true, none⟩
      let sp := s.landPa v.pa
      (s.live d = true) ∧ (x.sbuf[slot.val]? = some v) ∧ ((x.sbuf.take slot.val).all (fun o => decide (v.pa < 137438953472 ∧ s.farDie o.pa ≠ s.farDie v.pa)) = true) ∧ (x.out (s.live (s.farDie v.pa)) v.toks = false) ∧ (s.inTurn d e.val v.toks = true) ∧ (x.waitsFor v.epoch x.xfers = false) ∧ (v.pa < 68719476736) ∧ (s.mustWait d e.val sp = false) ∧ (v.bad = true) ∧ (x.run = .none)) (State.reset.setEng 7 63 { sbuf := [⟨67108863, [1], true, 0, 0, [], 0⟩] }) 7 63 0 ⟨67108863, [1], true, 0, 0, [], 0⟩ := by decide +kernel

theorem witness_farLandings_7 :
    (fun (s : State) (die : DieNo) (e : EngNo) (tag : Fin 8) (f : Xfer) =>
      let d := die.val
      let x := s.engOf ⟨die, e, 0, none, true, none⟩
      (s.live d = true) ∧ (x.xfers.filter (fun t => decide (t.tag = tag.val)) = [f]) ∧ (s.xferReady d e.val f = true) ∧ (f.dirty = []) ∧ (f.len ≤ 512) ∧ (f.kind = .fetch) ∧ (x.xfers.all (fun z => !z.moved) = true) ∧ ((List.range f.len).all (fun n => ok18 (s.word (f.pa + n))) = true)) (State.reset.setEng 7 63 { xfers := [⟨0, .fetch, 67108352, 65535, 512, [], 0, [], [], false⟩] }) 7 63 0 ⟨0, .fetch, 67108352, 65535, 512, [], 0, [], [], false⟩ ∧
    (fun (s : State) (die : DieNo) (e : EngNo) (tag : Fin 8) (f : Xfer) (h : BitVec 16) =>
      let d := die.val
      let x := s.engOf ⟨die, e, 0, none, true, none⟩
      (s.live d = true) ∧ (x.xfers.filter (fun t => decide (t.tag = tag.val)) = [f]) ∧ (s.xferReady d e.val f = true) ∧ (f.dirty = []) ∧ (f.len ≤ 512) ∧ (f.kind = .fetchB h) ∧ (x.xfers.all (fun z => !z.moved) = true) ∧ ((s.blockView d h.toNat).2.1 = 0) ∧ ((s.blockView d h.toNat).2.2 = false) ∧ (f.len = 128)) (State.reset.setEng 7 63 { xfers := [⟨0, .fetchB 9, 0, 65535, 128, [], 0, [], [], false⟩] }) 7 63 0 ⟨0, .fetchB 9, 0, 65535, 128, [], 0, [], [], false⟩ 9 ∧
    (fun (s : State) (die : DieNo) (e : EngNo) (tag : Fin 8) (f : Xfer) =>
      let d := die.val
      let x := s.engOf ⟨die, e, 0, none, true, none⟩
      let others := { x with xfers := x.xfers.erase f }
      let gives : Bool := (List.range f.len).all (fun n => ok18 (x.lmem.get 0 ((f.loc.toNat + n) % 65536)) && !others.fetching ((f.loc.toNat + n) % 65536))
      (s.live d = true) ∧ (x.xfers.filter (fun t => decide (t.tag = tag.val)) = [f]) ∧ (s.xferReady d e.val f = true) ∧ (f.dirty = []) ∧ (f.len ≤ 512) ∧ (f.kind = .stow) ∧ (gives = true)) (State.reset.setEng 7 63 { xfers := [⟨0, .stow, 67108352, 65535, 512, [], 0, [], [], false⟩] }) 7 63 0 ⟨0, .stow, 67108352, 65535, 512, [], 0, [], [], false⟩ := by decide +kernel

theorem witness_farLandings_8 :
    (fun (s : State) (die : DieNo) (e : EngNo) (tag : Fin 8) (f : Xfer) (h : BitVec 16) =>
      let d := die.val
      let x := s.engOf ⟨die, e, 0, none, true, none⟩
      let others := { x with xfers := x.xfers.erase f }
      let gives : Bool := (List.range f.len).all (fun n => ok18 (x.lmem.get 0 ((f.loc.toNat + n) % 65536)) && !others.fetching ((f.loc.toNat + n) % 65536))
      (s.live d = true) ∧ (x.xfers.filter (fun t => decide (t.tag = tag.val)) = [f]) ∧ (s.xferReady d e.val f = true) ∧ (f.dirty = []) ∧ (f.len ≤ 512) ∧ (f.kind = .stowB h) ∧ (gives = true) ∧ (f.len = 128)) (State.reset.setEng 7 63 { xfers := [⟨0, .stowB 9, 0, 65535, 128, [], 0, [], [], false⟩] }) 7 63 0 ⟨0, .stowB 9, 0, 65535, 128, [], 0, [], [], false⟩ 9 ∧
    (fun (s : State) (die : DieNo) (e : EngNo) (b : Nat) (tag : Fin 8) (f : Xfer) =>
      let d := die.val
      let x := s.engOf ⟨die, e, 0, none, true, none⟩
      (s.live d = true) ∧ (x.xfers.filter (fun t => decide (t.tag = tag.val)) = [f]) ∧ (s.xferReady d e.val f = true) ∧ (f.dirty = []) ∧ (f.len ≤ 512) ∧ (f.kind = .gather b) ∧ (f.elems.all (fun q => ok18 (s.word q.2) && !s.hotWord q.2) = true) ∧ ((f.elems.map Prod.fst).Nodup) ∧ (f.elems.all (fun q => decide (q.1 < 64)) = true)) (State.reset.setEng 7 63 { xfers := [⟨0, .gather 0, 0, 0, 2, [(0, 9), (15, 67108863)], 0, [], [], false⟩] }) 7 63 0 0 ⟨0, .gather 0, 0, 0, 2, [(0, 9), (15, 67108863)], 0, [], [], false⟩ ∧
    (fun (s : State) (die : DieNo) (e : EngNo) (tag : Fin 8) (f : Xfer) =>
      let d := die.val
      let x := s.engOf ⟨die, e, 0, none, true, none⟩
      (s.live d = true) ∧ (x.xfers.filter (fun t => decide (t.tag = tag.val)) = [f]) ∧ (s.xferReady d e.val f = true) ∧ (f.dirty = []) ∧ (f.len ≤ 512) ∧ (f.kind = .scatter) ∧ ((f.elems.map Prod.fst).Nodup) ∧ (f.elems.all (fun q => (paShared q.1 && !s.formed (paDie q.1) (paBank q.1)) || (paMailbox q.1 && !s.hotWord q.1 && decide (q.1 % 4096 ≠ 0x7FF ∧ q.1 % 4096 ≠ 0x803))) = true)) (State.reset.setEng 7 63 { xfers := [⟨0, .scatter, 0, 0, 2, [(9, 4), (67108863, 5)], 0, [], [], false⟩] }) 7 63 0 ⟨0, .scatter, 0, 0, 2, [(9, 4), (67108863, 5)], 0, [], [], false⟩ := by decide +kernel

theorem witness_farLandings_9 :
    (fun (s : State) (die : DieNo) (e : EngNo) (p : PmwEnt) (l : List PmwEnt) =>
      let x := s.engOf ⟨die, e, 0, none, true, none⟩
      (x.pmws = p :: l)) (State.reset.setEng 7 63 { pmws := [⟨true, 4095, 8, 0, 8⟩] }) 7 63 ⟨true, 4095, 8, 0, 8⟩ [] := by decide +kernel

theorem witness_tickEvents_1 :
    (fun (s : State) (die : DieNo) =>
      let d := die.val
      let x := s.die d
      let sig (t : State) (f : Fld) : Nat := t.f f d []
      (s.live d = true) ∧ (sig s F.TCK_STAT.MASTER = d) ∧ (x.phase = .guard) ∧ (x.heel = none)) (State.reset.setF F.TCK_STAT.MASTER 7 [] 7) 7 ∧
    (fun (s : State) (die : DieNo) (dir : Dir) (h : Heel) (hops : Nat) (rest : List (Heel × Nat)) =>
      let d := die.val
      let out (t : State) (n : Nat) (r : Dir) : Segment := match r with | .up => (t.die n).up | .dn => (t.die n).dn
      let flip : Dir := match dir with | .up => .dn | .dn => .up
      let nb := s.next d flip
      (s.live d = true) ∧ ((out s nb dir).heels = (h, hops) :: rest) ∧ (nb ≠ d)) (State.reset.setDie 6 { up := { heels := [(⟨0, 7, none⟩, 1)] } }) 7 .up ⟨0, 7, none⟩ 1 [] ∧
    (fun (s : State) (die : DieNo) (inp : TickIn) (h : Heel) =>
      let d := die.val
      let x := s.die d
      (s.tickReady d = true) ∧ (x.heel = some h) ∧ (inp.temp.toInt < 1840)) (State.reset.setDie 7 { heel := some ⟨0, 7, none⟩ }) 7 ⟨400, 0, 0, 2, 0, 0, 0⟩ ⟨0, 7, none⟩ ∧
    (fun (s : State) (die : DieNo) (inp : TickIn) =>
      let d := die.val
      let x := s.die d
      (s.tickReady d = true) ∧ (x.heel = none) ∧ (inp.temp.toInt < 1840)) State.reset 7 ⟨400, 0, 0, 2, 0, 0, 0⟩ ∧
    (fun (s : State) (die : DieNo) =>
      let d := die.val
      let x := s.die d
      (s.live d = true) ∧ (x.phase = .work)) (State.reset.setDie 7 { phase := .work }) 7 ∧
    (fun (s : State) =>
      (s.pkg.src ≠ 0)) ({ State.reset with pkg := { State.reset.pkg with src := 1 } }) := by decide +kernel

theorem witness_tickEvents_2 :
    (fun (s : State) (die : DieNo) =>
      let d := die.val
      let sig (t : State) (f : Fld) : Nat := t.f f d []
      (s.live d = true) ∧ (sig s F.TCK_STAT.HOLDOVER = 1)) (State.reset.setF F.TCK_STAT.HOLDOVER 7 [] 1) 7 := by decide +kernel

theorem witness_recoveryEvents_1 :
    (fun (s : State) (die : DieNo) (n : Fin 16) =>
      let d := die.val
      let x := s.die d
      let su := s.f F.DIE_TAKE.SUSP d [n.val]
      let sp := s.f F.DIE_TAKE.SPARE d [n.val]
      (s.live d = true) ∧ (x.phase = .guard) ∧ (s.takeDue d n.val = true) ∧ (2 ≤ x.takeAge.get 0 n.val) ∧ (su ≠ sp) ∧ ((s.eng d su).pmem.all (fun p => okBundle p.2) = true)) ((((State.reset.setF F.DIE_TAKE.V 7 [15] 1).setF F.DIE_TAKE.SUSP 7 [15] 62).setF F.DIE_TAKE.SPARE 7 [15] 63).setDie 7 { takeAge := [(15, 2)] }) 7 15 ∧
    (fun (s : State) (die : DieNo) =>
      let d := die.val
      let x := s.die d
      let quiet : Bool := s.dies.all (fun p => p.2.due.isEmpty) && s.pkg.waits.all (fun w => match w.kind with | .writes .. => false | _ => true)
      (s.populated d = true) ∧ (x.stopped = false) ∧ (quiet = true)) State.reset 7 ∧
    (fun (s : State) (die : DieNo) (lost : DieNo) =>
      let d := die.val
      let x := s.die d
      let g := lost.val
      (s.populated g = true) ∧ ((s.reg .DIE_LOST d []).getLsbD g = false) ∧ (x.phase = .work) ∧ (d ≠ g) ∧ (s.live d = true) ∧ (s.misses d g = true) ∧ (s.apart d g = false)) (State.reset.setDie 7 { phase := .work, missed := [(0, 2)] }) 7 0 ∧
    (fun (s : State) (die : DieNo) (b : Fin 64) =>
      let d := die.val
      let scrubs : Bool := s.live d && decide (s.f F.DIE_SCRUB.EN d [] = 1)
      (scrubs = true) ∧ (s.f F.SHM_PWR.PSTAT d [b.val] = 0)) (State.reset.setF F.DIE_SCRUB.EN 7 [] 1) 7 63 ∧
    (fun (s : State) (die : DieNo) (i : Nat) =>
      let d := die.val
      let scrubs : Bool := s.live d && decide (s.f F.DIE_SCRUB.EN d [] = 1)
      (scrubs = true) ∧ (i < 32)) (State.reset.setF F.DIE_SCRUB.EN 7 [] 1) 7 31 ∧
    (fun (s : State) (die : DieNo) (e : EngNo) =>
      let d := die.val
      let x := s.die d
      let scrubs : Bool := s.live d && decide (s.f F.DIE_SCRUB.EN d [] = 1)
      (scrubs = true) ∧ (x.phase = .guard) ∧ (s.f F.ENG_STAT.PWR d [e.val] = 1)) ((State.reset.setF F.DIE_SCRUB.EN 7 [] 1).setF F.ENG_STAT.PWR 7 [63] 1) 7 63 := by decide +kernel

theorem witness_recoveryEvents_2 :
    (fun (s : State) (die : DieNo) (i : Nat) (j : Nat) (soft : W32) =>
      let d := die.val
      let x := s.die d
      (s.live d = true) ∧ (x.progEntry = some (i, soft)) ∧ (j < 16) ∧ ((∀ m < j, s.f F.REP_FIELD.V d [m] = 1 ∨ 16 * d + m ∈ s.pkg.badFuse)) ∧ (s.f F.REP_FIELD.V d [j] = 0) ∧ (16 * d + j ∉ s.pkg.badFuse)) ((State.reset.setF F.REP_FIELD.V 7 [0] 1).setDie 7 { progEntry := some (15, 0x80000005) }) 7 15 1 0x80000005 ∧
    (fun (s : State) (die : DieNo) (e : EngNo) =>
      let d := die.val
      let y := s.eng d e.val
      (s.live d = true) ∧ (y.waking = true)) (State.reset.setEng 7 63 { waking := true }) 7 63 := by decide +kernel

theorem witness_swapEvents :
    (fun (s : State) (die : DieNo) (a : Arm) (t0 : Nat) =>
      let d := die.val
      let x := s.die d
      (s.pkg.arm = some a) ∧ (x.armT = some t0) ∧ (s.live d = true) ∧ (x.phase = .work) ∧ ((s.fn d + 1) % 281474976710656 = t0) ∧ (x.voted = false)) ({ (State.reset.setDie 7 { phase := .work, armT := some 1 }) with pkg := { State.reset.pkg with arm := some ⟨1, false, []⟩ } }) 7 ⟨1, false, []⟩ 1 ∧
    (fun (s : State) (die : DieNo) (src : Nat) (n : Nat) (c : Decision) (dir : Dir) (rest : List Msg) =>
      let d := die.val
      let x := s.die d
      (s.live d = true) ∧ (takeMsg (fun b => match b with | .decision .. => true | _ => false) x.inbox = some (⟨src, d, n, .decision c dir⟩, rest))) (State.reset.setDie 7 { inbox := [⟨0, 7, 0, .decision ⟨true, 0, 0, 0⟩ .up⟩], armT := some 1 }) 7 0 0 ⟨true, 0, 0, 0⟩ .up [] ∧
    (fun (s : State) (e : Early) =>
      let age (m : Nat) : Nat := (s.fn m + 281474976710656 - e.t) % 281474976710656
      let half := 140737488355328
      let len := s.f F.PKG_XF.DELAY 0 [] + s.f F.PKG_XF.FRAMES 0 []
      let due (m : Nat) : Bool := decide (m < 2) && s.live m && !e.exchanged.contains m && decide (len ≤ age m + 1 ∧ age m < half)
      (s.pkg.early = some e) ∧ (due 0 = true) ∧ (due 1 = false)) ({ State.reset with pkg := { State.reset.pkg with early := some ⟨281474976709656, 0, [1]⟩ } }) ⟨281474976709656, 0, [1]⟩ ∧
    (fun (s : State) (e : Early) =>
      let age (m : Nat) : Nat := (s.fn m + 281474976710656 - e.t) % 281474976710656
      let half := 140737488355328
      let len := s.f F.PKG_XF.DELAY 0 [] + s.f F.PKG_XF.FRAMES 0 []
      (s.pkg.early = some e) ∧ (let m := age (s.liveDies.headD 0); len ≤ m ∧ m < half)) ({ State.reset with pkg := { State.reset.pkg with early := some ⟨281474976709656, 0, [1, 0]⟩ } }) ⟨281474976709656, 0, [1, 0]⟩ ∧
    (fun (s : State) (die : DieNo) (t0 : Nat) => (s.live die.val = true) ∧ ((s.die die.val).armT = some t0)) (State.reset.setDie 7 { armT := some 1 }) 7 1 := by decide +kernel

theorem witness_hostPortEvents :
    (fun (s : State) (port : PortNo) => (s.live port.val = true) ∧ ((s.port port.val).reading = true) ∧ ((s.die port.val).phase = .work)) ((State.reset.setDie 1 { phase := .work }).setPort 1 { reading := true }) 1 ∧
    (fun (s : State) (port : PortNo) => (s.live port.val = true) ∧ ((s.port port.val).reading = true) ∧ ((s.die port.val).phase = .guard)) (State.reset.setPort 1 { reading := true }) 1 ∧
    (fun (s : State) (port : PortNo) (r : Fin 64) (gr : Group) =>
      let x := s.port port.val
      (s.live port.val = true) ∧ (x.groups.find? (fun y => decide (y.ring = r.val)) = some gr)) (State.reset.setPort 1 { groups := [⟨63, 5, 1⟩] }) 1 63 ⟨63, 5, 1⟩ ∧
    (fun (s : State) =>
      let own := s.f F.PKG_AUTH.OWNER 0 []
      let lease := s.f F.PKG_AUTHLEASE.LEASE 0 []
      let holder := s.port (own - 1)
      (own ≠ 0) ∧ (lease ≠ 0) ∧ (lease ≤ holder.heartAge)) (((State.reset.setF F.PKG_AUTH.OWNER 0 [] 2).setF F.PKG_AUTHLEASE.LEASE 0 [] 5).setPort 1 { heartAge := 5 }) ∧
    (fun (s : State) (port : PortNo) (r : Fin 64) =>
      let k := port.val
      let cq := s.f F.HPT_RCFG.CQ k [r.val]
      (s.live k = true) ∧ (s.takesPart k r.val = true) ∧ (s.ringType k r.val = 6) ∧ (s.waiting k r.val ≠ 0) ∧ (s.takesPart k cq = true) ∧ ((s.ring k cq).reserved < s.freeEnt k cq) ∧ (cq ≠ r.val) ∧
      ((s.ring k r.val).sending = false)) (((State.reset.setReg .HPT_RCFG 1 [63] 0xE4000000).setReg .HPT_RCFG 1 [0] 0x94000000).setF F.HPT_RSTAT.HOST 1 [63] 1) 1 63 := by decide +kernel

theorem witness_hostConfigCommands_1 :
    (fun (s : State) (x : Desc) (tk : Taken) (r : RegName) (d0 : Nat) (idx : List Nat) (v : W32) =>
      let k := x.port.val
      let d := x.die.toNat
      let all : Bool := decide (x.die = 0xFF#8)
      let fit (op : Nat) (each : Bool) : Prop := s.headCmd x = some tk ∧ tk.quiet = false ∧ x.readOk = true ∧ x.zeroOk = true ∧ x.opcode.toNat = op ∧ x.flags.toNat < 16 ∧
        (s.pkgState = 2 ∨ s.pkgState = 3 ∨ s.pkgState = 4) ∧ s.f F.PKG_AUTH.OWNER 0 [] = k + 1 ∧ each = all ∧ (all = false → s.live d = true)
      let clear : Bool := decide (s.f F.PKG_SWAP.ARMED 0 [] = 0)
      (fit 1 true) ∧ (clear = true) ∧ (s.writable (.host x.port) r d0 idx = true) ∧ (v.toNat = r.addr d0 idx) ∧ (r ∉ specialRegs) ∧ (r ≠ .HPT_RSTAT) ∧ (r ≠ .HPT_CMDCNT)) ((State.reset.setF F.PKG_STATE.STATE 0 [] 3).setF F.PKG_AUTH.OWNER 0 [] 2 |>.setPort 1 { taken := [⟨1, 63, 0, 0, false⟩] }) ⟨1, 63, 1, 0, 0xFF, 5, 0x1000, 4096, true, true⟩ ⟨1, 63, 0, 0, false⟩ .KEN_CTL 1 [] (BitVec.ofNat 32 (RegName.addr .KEN_CTL 1 [])) ∧
    (fun (s : State) (x : Desc) (tk : Taken) (r : RegName) (d0 : Nat) (idx : List Nat) (v : W32) (g : Nat) =>
      let k := x.port.val
      let d := x.die.toNat
      let all : Bool := decide (x.die = 0xFF#8)
      let fit (op : Nat) (each : Bool) : Prop := s.headCmd x = some tk ∧ tk.quiet = false ∧ x.readOk = true ∧ x.zeroOk = true ∧ x.opcode.toNat = op ∧ x.flags.toNat < 16 ∧
        (s.pkgState = 2 ∨ s.pkgState = 3 ∨ s.pkgState = 4) ∧ s.f F.PKG_AUTH.OWNER 0 [] = k + 1 ∧ each = all ∧ (all = false → s.live d = true)
      let clear : Bool := decide (s.f F.PKG_SWAP.ARMED 0 [] = 0)
      (fit 1 true) ∧ (clear = true) ∧ (s.admitted (.host x.port) r d0 idx = true) ∧ (v.toNat = r.addr d0 idx) ∧ (crosses (.host x.port) v.toNat = some (x.port, g)) ∧ (s.live g = true) ∧
      ((s.die g).seqRx.get 0 k ≤ (s.die k).seqTx.get 0 g)) ((State.reset.setF F.PKG_STATE.STATE 0 [] 3).setF F.PKG_AUTH.OWNER 0 [] 2 |>.setPort 1 { taken := [⟨1, 63, 0, 0, false⟩] }) ⟨1, 63, 1, 0, 0xFF, 5, 0x1000, 4096, true, true⟩ ⟨1, 63, 0, 0, false⟩ .KEN_CTL 7 [] (BitVec.ofNat 32 (RegName.addr .KEN_CTL 7 [])) 7 := by decide +kernel

theorem witness_hostConfigCommands_1b :
    (fun (s : State) (x : Desc) (tk : Taken) (eng : BitVec 8) (pc : BitVec 16) =>
      let k := x.port.val
      let d := x.die.toNat
      let all : Bool := decide (x.die = 0xFF#8)
      let fit (op : Nat) (each : Bool) : Prop := s.headCmd x = some tk ∧ tk.quiet = false ∧ x.readOk = true ∧ x.zeroOk = true ∧ x.opcode.toNat = op ∧ x.flags.toNat < 16 ∧
        (s.pkgState = 2 ∨ s.pkgState = 3 ∨ s.pkgState = 4) ∧ s.f F.PKG_AUTH.OWNER 0 [] = k + 1 ∧ each = all ∧ (all = false → s.live d = true)
      let rec_ := x.flags.getLsbD 3
      let clear : Bool := decide (s.f F.PKG_SWAP.ARMED 0 [] = 0)
      (fit 2 false) ∧ (clear = true) ∧ (eng.toNat < 64) ∧ (pc.toNat + 2 ≤ 4096) ∧ (s.f F.ENG_STAT.PWR d [eng.toNat] = 1) ∧ ((rec_ = true → s.f F.DIE_PMSRC.V d [eng.toNat] = 1))) ((State.reset.setF F.PKG_STATE.STATE 0 [] 3).setF F.PKG_AUTH.OWNER 0 [] 2 |>.setF F.ENG_STAT.PWR 7 [63] 1 |>.setF F.DIE_PMSRC.V 7 [63] 1 |>.setPort 1 { taken := [⟨1, 63, 0, 0, false⟩] }) ⟨1, 63, 2, 8, 7, 5, 0x1000, 4096, true, true⟩ ⟨1, 63, 0, 0, false⟩ 63 4094 := by decide +kernel

theorem witness_hostConfigCommands_2 :
    (fun (s : State) (x : Desc) (tk : Taken) (eng : BitVec 8) (entry : BitVec 8) (leaf : BitVec 16) (recto : W32) (verso : W32) (len : W32) (a : Arm) =>
      let k := x.port.val
      let d := x.die.toNat
      let all : Bool := decide (x.die = 0xFF#8)
      let fit (op : Nat) (each : Bool) : Prop := s.headCmd x = some tk ∧ tk.quiet = false ∧ x.readOk = true ∧ x.zeroOk = true ∧ x.opcode.toNat = op ∧ x.flags.toNat < 16 ∧
        (s.pkgState = 2 ∨ s.pkgState = 3 ∨ s.pkgState = 4) ∧ s.f F.PKG_AUTH.OWNER 0 [] = k + 1 ∧ each = all ∧ (all = false → s.live d = true)
      let side (a : Nat) : Bool := decide (a + len.toNat ≤ 67108864) && decide (a / 1048576 = (a + len.toNat - 1) / 1048576) &&
        (decide (s.f F.SHM_OWN.OWNER d [a / 1048576] = eng.toNat / 8) || decide (s.f F.SHM_OWN.OWNER d [a / 1048576] = 11))
      (fit 3 false) ∧ (leaf.toNat < 16384) ∧ (eng.toNat < 64) ∧ (entry.toNat < 16) ∧ ((len ≠ 0 → side recto.toNat = true ∧ side verso.toNat = true ∧ (recto.toNat + len.toNat ≤ verso.toNat ∨ verso.toNat + len.toNat ≤ recto.toNat)))) ((State.reset.setF F.PKG_STATE.STATE 0 [] 3).setF F.PKG_AUTH.OWNER 0 [] 2 |>.setF F.SHM_OWN.OWNER 7 [0] 11 |>.setPort 1 { taken := [⟨1, 63, 0, 0, false⟩] }) ⟨1, 63, 3, 0, 7, 5, 0x1000, 4096, true, true⟩ ⟨1, 63, 0, 0, false⟩ 63 15 16383 0 1048572 4 ⟨0, false, []⟩ ∧
    (fun (s : State) (x : Desc) (tk : Taken) (i : Nat) (p : FlowP) (qp : QParam) =>
      let k := x.port.val
      let d := x.die.toNat
      let all : Bool := decide (x.die = 0xFF#8)
      let fit (op : Nat) (each : Bool) : Prop := s.headCmd x = some tk ∧ tk.quiet = false ∧ x.readOk = true ∧ x.zeroOk = true ∧ x.opcode.toNat = op ∧ x.flags.toNat < 16 ∧
        (s.pkgState = 2 ∨ s.pkgState = 3 ∨ s.pkgState = 4) ∧ s.f F.PKG_AUTH.OWNER 0 [] = k + 1 ∧ each = all ∧ (all = false → s.live d = true)
      let opened : FlowP := { p with c0 := p.c0 ||| 0x80000000#32 }
      let clear : Bool := decide (s.f F.PKG_SWAP.ARMED 0 [] = 0)
      (fit 4 false) ∧ (clear = true) ∧ (opened.refused = false) ∧ (qp.policy.toNat ≠ 3) ∧ (s.freeFid d = some i) ∧ ((s.rangesUsed d).any (fun o => o.overlaps opened) = false)) ((State.reset.setF F.PKG_STATE.STATE 0 [] 3).setF F.PKG_AUTH.OWNER 0 [] 2 |>.setPort 1 { taken := [⟨1, 63, 0, 0, false⟩] }) ⟨1, 63, 4, 0, 7, 5, 0x1000, 4096, true, true⟩ ⟨1, 63, 0, 0, false⟩ 0 ⟨0x80000000 ||| 67108864 ||| 262144 ||| 10, 4194304 ||| 3, 0x00040002, 0⟩ ⟨2, 3, 4⟩ := by decide +kernel

theorem witness_hostConfigCommands_3 :
    (fun (s : State) (x : Desc) (tk : Taken) (i : Nat) (p : FlowP) (qp : QParam) =>
      let k := x.port.val
      let d := x.die.toNat
      let all : Bool := decide (x.die = 0xFF#8)
      let fit (op : Nat) (each : Bool) : Prop := s.headCmd x = some tk ∧ tk.quiet = false ∧ x.readOk = true ∧ x.zeroOk = true ∧ x.opcode.toNat = op ∧ x.flags.toNat < 16 ∧
        (s.pkgState = 2 ∨ s.pkgState = 3 ∨ s.pkgState = 4) ∧ s.f F.PKG_AUTH.OWNER 0 [] = k + 1 ∧ each = all ∧ (all = false → s.live d = true)
      let opened : FlowP := { p with c0 := p.c0 ||| 0x80000000#32 }
      let clear : Bool := decide (s.f F.PKG_SWAP.ARMED 0 [] = 0)
      (fit 4 false) ∧ (clear = true) ∧ (opened.refused = false) ∧ (qp.policy.toNat ≠ 3) ∧ (s.freeFid d = some i) ∧ ((s.rangesUsed d).any (fun o => o.overlaps opened) = true)) ({ ((State.reset.setF F.PKG_STATE.STATE 0 [] 3).setF F.PKG_AUTH.OWNER 0 [] 2 |>.setPort 1 { taken := [⟨1, 63, 0, 0, false⟩] }) with flA := [(57345, ⟨0x8002000A, 0, 0, 0⟩)] }) ⟨1, 63, 4, 0, 7, 5, 0x1000, 4096, true, true⟩ ⟨1, 63, 0, 0, false⟩ 0 ⟨0x80000000 ||| 67108864 ||| 262144 ||| 10, 4194304 ||| 3, 0x00040002, 0⟩ ⟨2, 3, 4⟩ ∧
    (fun (s : State) (x : Desc) (tk : Taken) (fid : BitVec 16) =>
      let k := x.port.val
      let d := x.die.toNat
      let all : Bool := decide (x.die = 0xFF#8)
      let fit (op : Nat) (each : Bool) : Prop := s.headCmd x = some tk ∧ tk.quiet = false ∧ x.readOk = true ∧ x.zeroOk = true ∧ x.opcode.toNat = op ∧ x.flags.toNat < 16 ∧
        (s.pkgState = 2 ∨ s.pkgState = 3 ∨ s.pkgState = 4) ∧ s.f F.PKG_AUTH.OWNER 0 [] = k + 1 ∧ each = all ∧ (all = false → s.live d = true)
      let old := s.flowCopy fid.toNat (x.flags.getLsbD 0)
      let named : Bool := decide (fid.toNat / 8192 = d) && decide (fid.toNat % 8192 < 5120) && old.isOpen
      let clear : Bool := decide (s.f F.PKG_SWAP.ARMED 0 [] = 0)
      (fit 5 false) ∧ (clear = true) ∧ (named = true)) ({ ((State.reset.setF F.PKG_STATE.STATE 0 [] 3).setF F.PKG_AUTH.OWNER 0 [] 2 |>.setPort 1 { taken := [⟨1, 63, 0, 0, false⟩] }) with flA := [(62463, ⟨0x8002000A, 0, 0, 0⟩)] }) ⟨1, 63, 5, 0, 7, 5, 0x1000, 4096, true, true⟩ ⟨1, 63, 0, 0, false⟩ 62463 := by decide +kernel

theorem witness_hostConfigCommands_4 :
    (fun (s : State) (x : Desc) (tk : Taken) (fid : BitVec 16) (m : FlowP) =>
      let k := x.port.val
      let d := x.die.toNat
      let all : Bool := decide (x.die = 0xFF#8)
      let fit (op : Nat) (each : Bool) : Prop := s.headCmd x = some tk ∧ tk.quiet = false ∧ x.readOk = true ∧ x.zeroOk = true ∧ x.opcode.toNat = op ∧ x.flags.toNat < 16 ∧
        (s.pkgState = 2 ∨ s.pkgState = 3 ∨ s.pkgState = 4) ∧ s.f F.PKG_AUTH.OWNER 0 [] = k + 1 ∧ each = all ∧ (all = false → s.live d = true)
      let old := s.flowCopy fid.toNat (x.flags.getLsbD 0)
      let named : Bool := decide (fid.toNat / 8192 = d) && decide (fid.toNat % 8192 < 5120) && old.isOpen
      let clear : Bool := decide (s.f F.PKG_SWAP.ARMED 0 [] = 0)
      (fit 6 false) ∧ (clear = true) ∧ (named = true) ∧ (m.qbase = old.qbase) ∧ (m.qcnt = old.qcnt) ∧ ((old.merge m).refused = false) ∧ (FlowP.refused { m with c3 := old.c3 } = false)) ({ ((State.reset.setF F.PKG_STATE.STATE 0 [] 3).setF F.PKG_AUTH.OWNER 0 [] 2 |>.setPort 1 { taken := [⟨1, 63, 0, 0, false⟩] }) with flA := [(62463, ⟨0x80000000 ||| 67108864 ||| 262144 ||| 10, 4194304 ||| 3, 0x00040002, 0⟩)] }) ⟨1, 63, 6, 0, 7, 5, 0x1000, 4096, true, true⟩ ⟨1, 63, 0, 0, false⟩ 62463 ⟨0x80000000 ||| 67108864 ||| 262144 ||| 10, 4194304 ||| 3, 0x00040002, 0⟩ ∧
    (fun (s : State) (x : Desc) (tk : Taken) (eng : BitVec 8) (fid : BitVec 16) (m : FlowP) (qp : QParam) =>
      let k := x.port.val
      let d := x.die.toNat
      let all : Bool := decide (x.die = 0xFF#8)
      let fit (op : Nat) (each : Bool) : Prop := s.headCmd x = some tk ∧ tk.quiet = false ∧ x.readOk = true ∧ x.zeroOk = true ∧ x.opcode.toNat = op ∧ x.flags.toNat < 16 ∧
        (s.pkgState = 2 ∨ s.pkgState = 3 ∨ s.pkgState = 4) ∧ s.f F.PKG_AUTH.OWNER 0 [] = k + 1 ∧ each = all ∧ (all = false → s.live d = true)
      let old := s.flowCopy fid.toNat (x.flags.getLsbD 0)
      let named : Bool := decide (fid.toNat / 8192 = d) && decide (fid.toNat % 8192 < 5120) && old.isOpen
      let clear : Bool := decide (s.f F.PKG_SWAP.ARMED 0 [] = 0)
      (fit 6 false) ∧ (clear = true) ∧ (named = true) ∧ (m.qbase = old.qbase) ∧ (m.qcnt = old.qcnt) ∧ (eng.toNat < old.qcnt) ∧ (qp.policy.toNat ≠ 3)) ({ ((State.reset.setF F.PKG_STATE.STATE 0 [] 3).setF F.PKG_AUTH.OWNER 0 [] 2 |>.setPort 1 { taken := [⟨1, 63, 0, 0, false⟩] }) with flA := [(62463, ⟨0x8080000A, 0, 0, 0⟩)] }) ⟨1, 63, 6, 0, 7, 5, 0x1000, 4096, true, true⟩ ⟨1, 63, 0, 0, false⟩ 63 62463 ⟨0x8080000A, 0, 0, 0⟩ ⟨2, 3, 4⟩ := by decide +kernel

theorem witness_hostConfigCommands_5 :
    (fun (s : State) (x : Desc) (tk : Taken) (fid : BitVec 16) =>
      let k := x.port.val
      let d := x.die.toNat
      let all : Bool := decide (x.die = 0xFF#8)
      let fit (op : Nat) (each : Bool) : Prop := s.headCmd x = some tk ∧ tk.quiet = false ∧ x.readOk = true ∧ x.zeroOk = true ∧ x.opcode.toNat = op ∧ x.flags.toNat < 16 ∧
        (s.pkgState = 2 ∨ s.pkgState = 3 ∨ s.pkgState = 4) ∧ s.f F.PKG_AUTH.OWNER 0 [] = k + 1 ∧ each = all ∧ (all = false → s.live d = true)
      let old := s.flowCopy fid.toNat (x.flags.getLsbD 0)
      let named : Bool := decide (fid.toNat / 8192 = d) && decide (fid.toNat % 8192 < 5120) && old.isOpen
      let clear : Bool := decide (s.f F.PKG_SWAP.ARMED 0 [] = 0)
      (fit 6 false) ∧ (clear = true) ∧ (named = false)) ((State.reset.setF F.PKG_STATE.STATE 0 [] 3).setF F.PKG_AUTH.OWNER 0 [] 2 |>.setPort 1 { taken := [⟨1, 63, 0, 0, false⟩] }) ⟨1, 63, 6, 0, 7, 5, 0x1000, 4096, true, true⟩ ⟨1, 63, 0, 0, false⟩ 62463 ∧
    (fun (s : State) (x : Desc) (tk : Taken) (T : BitVec 48) =>
      let k := x.port.val
      let d := x.die.toNat
      let all : Bool := decide (x.die = 0xFF#8)
      let n := s.fn k
      let rb := x.flags.getLsbD 1
      let fit (op : Nat) (each : Bool) : Prop := s.headCmd x = some tk ∧ tk.quiet = false ∧ x.readOk = true ∧ x.zeroOk = true ∧ x.opcode.toNat = op ∧ x.flags.toNat < 16 ∧
        (s.pkgState = 2 ∨ s.pkgState = 3 ∨ s.pkgState = 4) ∧ s.f F.PKG_AUTH.OWNER 0 [] = k + 1 ∧ each = all ∧ (all = false → s.live d = true)
      let clear : Bool := decide (s.f F.PKG_SWAP.ARMED 0 [] = 0)
      (fit 7 true) ∧ ((if rb then n + 2 else n + 4) ≤ T.toNat) ∧ (T.toNat ≤ n + 65536) ∧ (clear = true)) ((State.reset.setF F.PKG_STATE.STATE 0 [] 3).setF F.PKG_AUTH.OWNER 0 [] 2 |>.setPort 1 { taken := [⟨1, 63, 0, 0, false⟩] }) ⟨1, 63, 7, 0, 0xFF, 5, 0x1000, 4096, true, true⟩ ⟨1, 63, 0, 0, false⟩ 65536 := by decide +kernel

theorem witness_hostConfigCommands_6 :
    (fun (s : State) (x : Desc) (tk : Taken) (T : BitVec 48) =>
      let k := x.port.val
      let d := x.die.toNat
      let all : Bool := decide (x.die = 0xFF#8)
      let n := s.fn k
      let rb := x.flags.getLsbD 1
      let fit (op : Nat) (each : Bool) : Prop := s.headCmd x = some tk ∧ tk.quiet = false ∧ x.readOk = true ∧ x.zeroOk = true ∧ x.opcode.toNat = op ∧ x.flags.toNat < 16 ∧
        (s.pkgState = 2 ∨ s.pkgState = 3 ∨ s.pkgState = 4) ∧ s.f F.PKG_AUTH.OWNER 0 [] = k + 1 ∧ each = all ∧ (all = false → s.live d = true)
      (fit 7 true) ∧ (T.toNat < (if rb then n + 2 else n + 4))) ((State.reset.setF F.PKG_STATE.STATE 0 [] 3).setF F.PKG_AUTH.OWNER 0 [] 2 |>.setPort 1 { taken := [⟨1, 63, 0, 0, false⟩] }) ⟨1, 63, 7, 0, 0xFF, 5, 0x1000, 4096, true, true⟩ ⟨1, 63, 0, 0, false⟩ 3 ∧
    (fun (s : State) (x : Desc) (tk : Taken) (a : Arm) =>
      let k := x.port.val
      let d := x.die.toNat
      let all : Bool := decide (x.die = 0xFF#8)
      let n := s.fn k
      let fit (op : Nat) (each : Bool) : Prop := s.headCmd x = some tk ∧ tk.quiet = false ∧ x.readOk = true ∧ x.zeroOk = true ∧ x.opcode.toNat = op ∧ x.flags.toNat < 16 ∧
        (s.pkgState = 2 ∨ s.pkgState = 3 ∨ s.pkgState = 4) ∧ s.f F.PKG_AUTH.OWNER 0 [] = k + 1 ∧ each = all ∧ (all = false → s.live d = true)
      (fit 8 true) ∧ (s.pkg.arm = some a) ∧ (n + 2 ≤ a.t) ∧ (s.pkg.waits.all (fun w => decide (w.kind ≠ .swap)) = true)) ({ ((State.reset.setF F.PKG_STATE.STATE 0 [] 3).setF F.PKG_AUTH.OWNER 0 [] 2 |>.setPort 1 { taken := [⟨1, 63, 0, 0, false⟩] }) with pkg := { ((State.reset.setF F.PKG_STATE.STATE 0 [] 3).setF F.PKG_AUTH.OWNER 0 [] 2 |>.setPort 1 { taken := [⟨1, 63, 0, 0, false⟩] }).pkg with arm := some ⟨2, false, []⟩ } }) ⟨1, 63, 8, 0, 0xFF, 5, 0x1000, 4096, true, true⟩ ⟨1, 63, 0, 0, false⟩ ⟨2, false, []⟩ := by decide +kernel

theorem witness_hostConfigCommands_7 :
    (fun (s : State) (x : Desc) (tk : Taken) (a : Arm) =>
      let k := x.port.val
      let d := x.die.toNat
      let all : Bool := decide (x.die = 0xFF#8)
      let n := s.fn k
      let fit (op : Nat) (each : Bool) : Prop := s.headCmd x = some tk ∧ tk.quiet = false ∧ x.readOk = true ∧ x.zeroOk = true ∧ x.opcode.toNat = op ∧ x.flags.toNat < 16 ∧
        (s.pkgState = 2 ∨ s.pkgState = 3 ∨ s.pkgState = 4) ∧ s.f F.PKG_AUTH.OWNER 0 [] = k + 1 ∧ each = all ∧ (all = false → s.live d = true)
      (fit 8 true) ∧ (s.pkg.arm = some a) ∧ (a.t < n + 2)) ({ ((State.reset.setF F.PKG_STATE.STATE 0 [] 3).setF F.PKG_AUTH.OWNER 0 [] 2 |>.setPort 1 { taken := [⟨1, 63, 0, 0, false⟩] }) with pkg := { ((State.reset.setF F.PKG_STATE.STATE 0 [] 3).setF F.PKG_AUTH.OWNER 0 [] 2 |>.setPort 1 { taken := [⟨1, 63, 0, 0, false⟩] }).pkg with arm := some ⟨1, false, []⟩ } }) ⟨1, 63, 8, 0, 0xFF, 5, 0x1000, 4096, true, true⟩ ⟨1, 63, 0, 0, false⟩ ⟨1, false, []⟩ ∧
    (fun (s : State) (x : Desc) (tk : Taken) (r : RegName) (d0 : Nat) (idx : List Nat) (v : W32) =>
      let k := x.port.val
      let d := x.die.toNat
      let all : Bool := decide (x.die = 0xFF#8)
      let fit (op : Nat) (each : Bool) : Prop := s.headCmd x = some tk ∧ tk.quiet = false ∧ x.readOk = true ∧ x.zeroOk = true ∧ x.opcode.toNat = op ∧ x.flags.toNat < 16 ∧
        (s.pkgState = 2 ∨ s.pkgState = 3 ∨ s.pkgState = 4) ∧ s.f F.PKG_AUTH.OWNER 0 [] = k + 1 ∧ each = all ∧ (all = false → s.live d = true)
      let clear : Bool := decide (s.f F.PKG_SWAP.ARMED 0 [] = 0)
      (fit 1 true) ∧ (clear = false) ∧ (s.f F.PKG_SWAP.ARMED 0 [] = 1) ∧ (s.target v.toNat = some ⟨r, d0, idx, false⟩) ∧ (r.banked = true) ∧ (v.toNat % 4 = 0) ∧ (v.toNat < 16777216)) ((State.reset.setF F.PKG_STATE.STATE 0 [] 3).setF F.PKG_AUTH.OWNER 0 [] 2 |>.setF F.PKG_SWAP.ARMED 0 [] 1 |>.setPort 1 { taken := [⟨1, 63, 0, 0, false⟩] }) ⟨1, 63, 1, 0, 0xFF, 5, 0x1000, 4096, true, true⟩ ⟨1, 63, 0, 0, false⟩ .ENG_FLA 7 [63, 15] (BitVec.ofNat 32 (RegName.addr .ENG_FLA 7 [63, 15])) := by decide +kernel

theorem witness_hostConfigCommands_8 :
    (fun (s : State) (x : Desc) (tk : Taken) (v : W32) (len : W32) =>
      let k := x.port.val
      let d := x.die.toNat
      let all : Bool := decide (x.die = 0xFF#8)
      let fit (op : Nat) (each : Bool) : Prop := s.headCmd x = some tk ∧ tk.quiet = false ∧ x.readOk = true ∧ x.zeroOk = true ∧ x.opcode.toNat = op ∧ x.flags.toNat < 16 ∧
        (s.pkgState = 2 ∨ s.pkgState = 3 ∨ s.pkgState = 4) ∧ s.f F.PKG_AUTH.OWNER 0 [] = k + 1 ∧ each = all ∧ (all = false → s.live d = true)
      (fit 1 true) ∧ (s.f F.PKG_SWAP.ARMED 0 [] = 1) ∧ (v.toNat = RegName.addr .PKG_SWAPCTL 0 []) ∧ (len.getLsbD 0 = true)) ((State.reset.setF F.PKG_STATE.STATE 0 [] 3).setF F.PKG_AUTH.OWNER 0 [] 2 |>.setF F.PKG_SWAP.ARMED 0 [] 1 |>.setPort 1 { taken := [⟨1, 63, 0, 0, false⟩] }) ⟨1, 63, 1, 0, 0xFF, 5, 0x1000, 4096, true, true⟩ ⟨1, 63, 0, 0, false⟩ (BitVec.ofNat 32 (RegName.addr .PKG_SWAPCTL 0 [])) 1 := by decide +kernel

theorem witness_hostServiceCommands_1 :
    (fun (s : State) (x : Desc) (tk : Taken) (addr : W32) (count : BitVec 16) =>
      let k := x.port.val
      let d := x.die.toNat
      let all : Bool := decide (x.die = 0xFF#8)
      let c := count.toNat
      let shape (op : Nat) : Prop := s.headCmd x = some tk ∧ tk.quiet = false ∧ x.readOk = true ∧ x.zeroOk = true ∧ x.opcode.toNat = op ∧ x.flags.toNat < 16 ∧
        (s.pkgState = 2 ∨ s.pkgState = 3 ∨ s.pkgState = 4) ∧ (all = false → s.live d = true)
      let fit (op : Nat) (each : Bool) : Prop := shape op ∧ (op = 9 ∨ s.f F.PKG_AUTH.OWNER 0 [] = k + 1) ∧ each = all
      let room (b : Nat) : Bool := decide (x.rbuf ≠ 0) && decide (b ≤ x.rlen.toNat)
      ((fit 9 true ∨ fit 9 false)) ∧ (1 ≤ c) ∧ (c ≤ 1024) ∧ (addr.toNat % 4 = 0) ∧ (addr.toNat + 4 * c ≤ 16777216) ∧ (room (4 * c) = true) ∧ ((∀ j < c, s.unpop (addr.toNat + 4 * j) = false))) ((State.reset.setF F.PKG_STATE.STATE 0 [] 3).setF F.PKG_AUTH.OWNER 0 [] 2 |>.setPort 1 { taken := [⟨1, 63, 0, 0, false⟩] }) ⟨1, 63, 9, 0, 7, 5, 0x1000, 4096, true, true⟩ ⟨1, 63, 0, 0, false⟩ (BitVec.ofNat 32 (RegName.addr .KEN_TALLY 7 [0])) 1024 ∧
    (fun (s : State) (x : Desc) (tk : Taken) (addr : W32) =>
      let k := x.port.val
      let d := x.die.toNat
      let all : Bool := decide (x.die = 0xFF#8)
      let shape (op : Nat) : Prop := s.headCmd x = some tk ∧ tk.quiet = false ∧ x.readOk = true ∧ x.zeroOk = true ∧ x.opcode.toNat = op ∧ x.flags.toNat < 16 ∧
        (s.pkgState = 2 ∨ s.pkgState = 3 ∨ s.pkgState = 4) ∧ (all = false → s.live d = true)
      let fit (op : Nat) (each : Bool) : Prop := shape op ∧ (op = 9 ∨ s.f F.PKG_AUTH.OWNER 0 [] = k + 1) ∧ each = all
      let room (b : Nat) : Bool := decide (x.rbuf ≠ 0) && decide (b ≤ x.rlen.toNat)
      (fit 9 false) ∧ (addr.toNat = RegName.addr .DIE_ERRCNT d [6]) ∧ (room 8 = true)) ((State.reset.setF F.PKG_STATE.STATE 0 [] 3).setF F.PKG_AUTH.OWNER 0 [] 2 |>.setPort 1 { taken := [⟨1, 63, 0, 0, false⟩] }) ⟨1, 63, 9, 0, 7, 5, 0x1000, 4096, true, true⟩ ⟨1, 63, 0, 0, false⟩ (BitVec.ofNat 32 (RegName.addr .DIE_ERRCNT 7 [6])) := by decide +kernel

theorem witness_hostServiceCommands_2 :
    (fun (s : State) (x : Desc) (tk : Taken) (fid : BitVec 16) =>
      let k := x.port.val
      let d := x.die.toNat
      let all : Bool := decide (x.die = 0xFF#8)
      let shape (op : Nat) : Prop := s.headCmd x = some tk ∧ tk.quiet = false ∧ x.readOk = true ∧ x.zeroOk = true ∧ x.opcode.toNat = op ∧ x.flags.toNat < 16 ∧
        (s.pkgState = 2 ∨ s.pkgState = 3 ∨ s.pkgState = 4) ∧ (all = false → s.live d = true)
      let fit (op : Nat) (each : Bool) : Prop := shape op ∧ (op = 9 ∨ s.f F.PKG_AUTH.OWNER 0 [] = k + 1) ∧ each = all
      let room (b : Nat) : Bool := decide (x.rbuf ≠ 0) && decide (b ≤ x.rlen.toNat)
      (fit 9 false) ∧ (fid.toNat / 8192 = d) ∧ (fid.toNat % 8192 < 5120) ∧ (room 32 = true)) ((State.reset.setF F.PKG_STATE.STATE 0 [] 3).setF F.PKG_AUTH.OWNER 0 [] 2 |>.setPort 1 { taken := [⟨1, 63, 0, 0, false⟩] }) ⟨1, 63, 9, 0, 7, 5, 0x1000, 4096, true, true⟩ ⟨1, 63, 0, 0, false⟩ 62463 ∧
    (fun (s : State) (x : Desc) (tk : Taken) (queue : W32) =>
      let k := x.port.val
      let d := x.die.toNat
      let all : Bool := decide (x.die = 0xFF#8)
      let shape (op : Nat) : Prop := s.headCmd x = some tk ∧ tk.quiet = false ∧ x.readOk = true ∧ x.zeroOk = true ∧ x.opcode.toNat = op ∧ x.flags.toNat < 16 ∧
        (s.pkgState = 2 ∨ s.pkgState = 3 ∨ s.pkgState = 4) ∧ (all = false → s.live d = true)
      let fit (op : Nat) (each : Bool) : Prop := shape op ∧ (op = 9 ∨ s.f F.PKG_AUTH.OWNER 0 [] = k + 1) ∧ each = all
      let room (b : Nat) : Bool := decide (x.rbuf ≠ 0) && decide (b ≤ x.rlen.toNat)
      (fit 9 false) ∧ (queue.toNat / 131072 = d) ∧ (room 16 = true)) ((State.reset.setF F.PKG_STATE.STATE 0 [] 3).setF F.PKG_AUTH.OWNER 0 [] 2 |>.setPort 1 { taken := [⟨1, 63, 0, 0, false⟩] }) ⟨1, 63, 9, 0, 7, 5, 0x1000, 4096, true, true⟩ ⟨1, 63, 0, 0, false⟩ 1048575 := by decide +kernel

theorem witness_hostServiceCommands_3 :
    (fun (s : State) (x : Desc) (tk : Taken) =>
      let k := x.port.val
      let d := x.die.toNat
      let all : Bool := decide (x.die = 0xFF#8)
      let shape (op : Nat) : Prop := s.headCmd x = some tk ∧ tk.quiet = false ∧ x.readOk = true ∧ x.zeroOk = true ∧ x.opcode.toNat = op ∧ x.flags.toNat < 16 ∧
        (s.pkgState = 2 ∨ s.pkgState = 3 ∨ s.pkgState = 4) ∧ (all = false → s.live d = true)
      let fit (op : Nat) (each : Bool) : Prop := shape op ∧ (op = 9 ∨ s.f F.PKG_AUTH.OWNER 0 [] = k + 1) ∧ each = all
      let room (b : Nat) : Bool := decide (x.rbuf ≠ 0) && decide (b ≤ x.rlen.toNat)
      (fit 9 false) ∧ (room 32 = false)) ((State.reset.setF F.PKG_STATE.STATE 0 [] 3).setF F.PKG_AUTH.OWNER 0 [] 2 |>.setPort 1 { taken := [⟨1, 63, 0, 0, false⟩] }) ⟨1, 63, 9, 0, 7, 5, 0x1000, 31, true, true⟩ ⟨1, 63, 0, 0, false⟩ ∧
    (fun (s : State) (x : Desc) (tk : Taken) (entry : BitVec 8) =>
      let k := x.port.val
      let d := x.die.toNat
      let all : Bool := decide (x.die = 0xFF#8)
      let shape (op : Nat) : Prop := s.headCmd x = some tk ∧ tk.quiet = false ∧ x.readOk = true ∧ x.zeroOk = true ∧ x.opcode.toNat = op ∧ x.flags.toNat < 16 ∧
        (s.pkgState = 2 ∨ s.pkgState = 3 ∨ s.pkgState = 4) ∧ (all = false → s.live d = true)
      let fit (op : Nat) (each : Bool) : Prop := shape op ∧ (op = 9 ∨ s.f F.PKG_AUTH.OWNER 0 [] = k + 1) ∧ each = all
      let i := entry.toNat
      (fit 10 false) ∧ (i < 16) ∧ (s.f F.REP_SOFT.V d [i] = 1) ∧ (s.f F.REP_STAT.FREE d [] ≠ 0) ∧ (s.f F.REP_STAT.PROG d [] = 0)) ((State.reset.setF F.PKG_STATE.STATE 0 [] 3).setF F.PKG_AUTH.OWNER 0 [] 2 |>.setF F.REP_SOFT.V 7 [15] 1 |>.setF F.REP_STAT.FREE 7 [] 1 |>.setPort 1 { taken := [⟨1, 63, 0, 0, false⟩] }) ⟨1, 63, 10, 0, 7, 5, 0x1000, 4096, true, true⟩ ⟨1, 63, 0, 0, false⟩ 15 := by decide +kernel

theorem witness_hostServiceCommands_4 :
    (fun (s : State) (x : Desc) (tk : Taken) (entry : BitVec 8) =>
      let k := x.port.val
      let d := x.die.toNat
      let all : Bool := decide (x.die = 0xFF#8)
      let shape (op : Nat) : Prop := s.headCmd x = some tk ∧ tk.quiet = false ∧ x.readOk = true ∧ x.zeroOk = true ∧ x.opcode.toNat = op ∧ x.flags.toNat < 16 ∧
        (s.pkgState = 2 ∨ s.pkgState = 3 ∨ s.pkgState = 4) ∧ (all = false → s.live d = true)
      let fit (op : Nat) (each : Bool) : Prop := shape op ∧ (op = 9 ∨ s.f F.PKG_AUTH.OWNER 0 [] = k + 1) ∧ each = all
      let i := entry.toNat
      (fit 10 false) ∧ (i < 16) ∧ (s.f F.REP_SOFT.V d [i] = 1) ∧ (s.f F.REP_STAT.FREE d [] = 0)) ((State.reset.setF F.PKG_STATE.STATE 0 [] 3).setF F.PKG_AUTH.OWNER 0 [] 2 |>.setF F.REP_SOFT.V 7 [15] 1 |>.setF F.REP_STAT.FREE 7 [] 0 |>.setPort 1 { taken := [⟨1, 63, 0, 0, false⟩] }) ⟨1, 63, 10, 0, 7, 5, 0x1000, 4096, true, true⟩ ⟨1, 63, 0, 0, false⟩ 15 ∧
    (fun (s : State) (x : Desc) (tk : Taken) (n : W32) (pa : BitVec 48) =>
      let k := x.port.val
      let d := x.die.toNat
      let all : Bool := decide (x.die = 0xFF#8)
      let shape (op : Nat) : Prop := s.headCmd x = some tk ∧ tk.quiet = false ∧ x.readOk = true ∧ x.zeroOk = true ∧ x.opcode.toNat = op ∧ x.flags.toNat < 16 ∧
        (s.pkgState = 2 ∨ s.pkgState = 3 ∨ s.pkgState = 4) ∧ (all = false → s.live d = true)
      let fit (op : Nat) (each : Bool) : Prop := shape op ∧ (op = 9 ∨ s.f F.PKG_AUTH.OWNER 0 [] = k + 1) ∧ each = all
      let inRange : Bool := decide (pa.toNat / 8589934592 = d) && decide (pa.toNat % 8589934592 + n.toNat ≤ 67108864)
      (fit 11 false) ∧ (inRange = true) ∧ ((∀ j < n.toNat, ok18 (s.word (pa.toNat + j)) = true))) ((State.reset.setF F.PKG_STATE.STATE 0 [] 3).setF F.PKG_AUTH.OWNER 0 [] 2 |>.setPort 1 { taken := [⟨1, 63, 0, 0, false⟩] }) ⟨1, 63, 11, 0, 7, 5, 0x1000, 4096, true, true⟩ ⟨1, 63, 0, 0, false⟩ 2 (60129542144 + 67108862) := by decide +kernel

theorem witness_hostServiceCommands_5 :
    (fun (s : State) (x : Desc) (tk : Taken) (n : W32) (pa : BitVec 48) =>
      let k := x.port.val
      let d := x.die.toNat
      let all : Bool := decide (x.die = 0xFF#8)
      let shape (op : Nat) : Prop := s.headCmd x = some tk ∧ tk.quiet = false ∧ x.readOk = true ∧ x.zeroOk = true ∧ x.opcode.toNat = op ∧ x.flags.toNat < 16 ∧
        (s.pkgState = 2 ∨ s.pkgState = 3 ∨ s.pkgState = 4) ∧ (all = false → s.live d = true)
      let fit (op : Nat) (each : Bool) : Prop := shape op ∧ (op = 9 ∨ s.f F.PKG_AUTH.OWNER 0 [] = k + 1) ∧ each = all
      let inRange : Bool := decide (pa.toNat / 8589934592 = d) && decide (pa.toNat % 8589934592 + n.toNat ≤ 67108864)
      (fit 11 false) ∧ (inRange = true) ∧ (n = 1) ∧ (Memory.wf s.shm = true) ∧ (ok18 (s.word pa.toNat) = false) ∧ (s.f F.SHM_PWR.PSTAT d [paBank pa.toNat] = 0)) ((State.reset.setF F.PKG_STATE.STATE 0 [] 3).setF F.PKG_AUTH.OWNER 0 [] 2 |>.setWord (60129542144 + 67108863) 1 |>.setF F.SHM_PWR.PSTAT 7 [63] 0 |>.setPort 1 { taken := [⟨1, 63, 0, 0, false⟩] }) ⟨1, 63, 11, 0, 7, 5, 0x1000, 4096, true, true⟩ ⟨1, 63, 0, 0, false⟩ 1 (60129542144 + 67108863) ∧
    (fun (s : State) (x : Desc) (tk : Taken) (mask : W32) (dur : W32) =>
      let k := x.port.val
      let d := x.die.toNat
      let all : Bool := decide (x.die = 0xFF#8)
      let shape (op : Nat) : Prop := s.headCmd x = some tk ∧ tk.quiet = false ∧ x.readOk = true ∧ x.zeroOk = true ∧ x.opcode.toNat = op ∧ x.flags.toNat < 16 ∧
        (s.pkgState = 2 ∨ s.pkgState = 3 ∨ s.pkgState = 4) ∧ (all = false → s.live d = true)
      let fit (op : Nat) (each : Bool) : Prop := shape op ∧ (op = 9 ∨ s.f F.PKG_AUTH.OWNER 0 [] = k + 1) ∧ each = all
      (fit 12 true) ∧ (s.pkgState = 3) ∧ (s.pkg.test = none) ∧ (0 < mask.toNat) ∧ (mask.toNat < 64) ∧ (dur ≠ 0)) ((State.reset.setF F.PKG_STATE.STATE 0 [] 3).setF F.PKG_AUTH.OWNER 0 [] 2 |>.setPort 1 { taken := [⟨1, 63, 0, 0, false⟩] }) ⟨1, 63, 12, 0, 0xFF, 5, 0x1000, 4096, true, true⟩ ⟨1, 63, 0, 0, false⟩ 63 1 := by decide +kernel

theorem witness_hostServiceCommands_6 :
    (fun (s : State) (x : Desc) (tk : Taken) (slot : BitVec 8) (ty : BitVec 8) (len : BitVec 16) =>
      let k := x.port.val
      let d := x.die.toNat
      let all : Bool := decide (x.die = 0xFF#8)
      let shape (op : Nat) : Prop := s.headCmd x = some tk ∧ tk.quiet = false ∧ x.readOk = true ∧ x.zeroOk = true ∧ x.opcode.toNat = op ∧ x.flags.toNat < 16 ∧
        (s.pkgState = 2 ∨ s.pkgState = 3 ∨ s.pkgState = 4) ∧ (all = false → s.live d = true)
      let fit (op : Nat) (each : Bool) : Prop := shape op ∧ (op = 9 ∨ s.f F.PKG_AUTH.OWNER 0 [] = k + 1) ∧ each = all
      (fit 13 false) ∧ (slot.toNat < 32) ∧ (1 ≤ ty.toNat) ∧ (ty.toNat ≤ 3) ∧ (len.toNat = (if ty.toNat = 2 then 24 else 40)) ∧ (s.f F.SEC_STAT.KEKOK d [] = 0)) ((State.reset.setF F.PKG_STATE.STATE 0 [] 3).setF F.PKG_AUTH.OWNER 0 [] 2 |>.setPort 1 { taken := [⟨1, 63, 0, 0, false⟩] }) ⟨1, 63, 13, 0, 7, 5, 0x1000, 4096, true, true⟩ ⟨1, 63, 0, 0, false⟩ 31 2 24 ∧
    (fun (s : State) (x : Desc) (tk : Taken) (slot : BitVec 8) (ty : BitVec 8) (len : BitVec 16) =>
      let k := x.port.val
      let d := x.die.toNat
      let all : Bool := decide (x.die = 0xFF#8)
      let shape (op : Nat) : Prop := s.headCmd x = some tk ∧ tk.quiet = false ∧ x.readOk = true ∧ x.zeroOk = true ∧ x.opcode.toNat = op ∧ x.flags.toNat < 16 ∧
        (s.pkgState = 2 ∨ s.pkgState = 3 ∨ s.pkgState = 4) ∧ (all = false → s.live d = true)
      let fit (op : Nat) (each : Bool) : Prop := shape op ∧ (op = 9 ∨ s.f F.PKG_AUTH.OWNER 0 [] = k + 1) ∧ each = all
      (fit 13 false) ∧ (slot.toNat < 32) ∧ (1 ≤ ty.toNat) ∧ (ty.toNat ≤ 3) ∧ (len.toNat = (if ty.toNat = 2 then 24 else 40)) ∧ (s.f F.SEC_STAT.KEKOK d [] = 1)) ((State.reset.setF F.PKG_STATE.STATE 0 [] 3).setF F.PKG_AUTH.OWNER 0 [] 2 |>.setF F.SEC_STAT.KEKOK 7 [] 1 |>.setPort 1 { taken := [⟨1, 63, 0, 0, false⟩] }) ⟨1, 63, 13, 0, 7, 5, 0x1000, 4096, true, true⟩ ⟨1, 63, 0, 0, false⟩ 31 3 40 := by decide +kernel

theorem witness_hostServiceCommands_7 :
    (fun (s : State) (x : Desc) (tk : Taken) =>
      let k := x.port.val
      let d := x.die.toNat
      let all : Bool := decide (x.die = 0xFF#8)
      let shape (op : Nat) : Prop := s.headCmd x = some tk ∧ tk.quiet = false ∧ x.readOk = true ∧ x.zeroOk = true ∧ x.opcode.toNat = op ∧ x.flags.toNat < 16 ∧
        (s.pkgState = 2 ∨ s.pkgState = 3 ∨ s.pkgState = 4) ∧ (all = false → s.live d = true)
      let fit (op : Nat) (each : Bool) : Prop := shape op ∧ (op = 9 ∨ s.f F.PKG_AUTH.OWNER 0 [] = k + 1) ∧ each = all
      (fit 14 false) ∧ ((s.die d).audit.running = false)) ((State.reset.setF F.PKG_STATE.STATE 0 [] 3).setF F.PKG_AUTH.OWNER 0 [] 2 |>.setPort 1 { taken := [⟨1, 63, 0, 0, false⟩] }) ⟨1, 63, 14, 0, 7, 5, 0x1000, 4096, true, true⟩ ⟨1, 63, 0, 0, false⟩ ∧
    (fun (s : State) (x : Desc) (tk : Taken) =>
      let k := x.port.val
      let d := x.die.toNat
      let all : Bool := decide (x.die = 0xFF#8)
      let shape (op : Nat) : Prop := s.headCmd x = some tk ∧ tk.quiet = false ∧ x.readOk = true ∧ x.zeroOk = true ∧ x.opcode.toNat = op ∧ x.flags.toNat < 16 ∧
        (s.pkgState = 2 ∨ s.pkgState = 3 ∨ s.pkgState = 4) ∧ (all = false → s.live d = true)
      let fit (op : Nat) (each : Bool) : Prop := shape op ∧ (op = 9 ∨ s.f F.PKG_AUTH.OWNER 0 [] = k + 1) ∧ each = all
      (fit 14 false) ∧ ((s.die d).audit.running = true)) ((State.reset.setF F.PKG_STATE.STATE 0 [] 3).setF F.PKG_AUTH.OWNER 0 [] 2 |>.setDie 7 { audit := { running := true } } |>.setPort 1 { taken := [⟨1, 63, 0, 0, false⟩] }) ⟨1, 63, 14, 0, 7, 5, 0x1000, 4096, true, true⟩ ⟨1, 63, 0, 0, false⟩ := by decide +kernel

theorem witness_hostServiceCommands_8 :
    (fun (s : State) (x : Desc) (tk : Taken) =>
      let k := x.port.val
      let d := x.die.toNat
      let all : Bool := decide (x.die = 0xFF#8)
      let shape (op : Nat) : Prop := s.headCmd x = some tk ∧ tk.quiet = false ∧ x.readOk = true ∧ x.zeroOk = true ∧ x.opcode.toNat = op ∧ x.flags.toNat < 16 ∧
        (s.pkgState = 2 ∨ s.pkgState = 3 ∨ s.pkgState = 4) ∧ (all = false → s.live d = true)
      (shape 14) ∧ (s.f F.PKG_AUTH.OWNER 0 [] ≠ k + 1)) ((State.reset.setF F.PKG_STATE.STATE 0 [] 3).setF F.PKG_AUTH.OWNER 0 [] 1 |>.setPort 1 { taken := [⟨1, 63, 0, 0, false⟩] }) ⟨1, 63, 14, 0, 7, 5, 0x1000, 4096, true, true⟩ ⟨1, 63, 0, 0, false⟩ := by decide +kernel

theorem witness_linkPortEvents_1 :
    (fun (s : State) (die : DieNo) (kp : PortNo) =>
      let d := die.val
      let k := kp.val
      let live := s.live d
      (live = true) ∧ (s.f F.LNK_CTL.EN d [k] = 1)) (State.reset.setF F.LNK_CTL.EN 7 [1] 1) 7 1 ∧
    (fun (s : State) (die : DieNo) (kp : PortNo) (fr : EthFrame) =>
      let d := die.val
      let k := kp.val
      let live := s.live d
      let up := s.linkUp d k
      let eth := s.isEth d k
      (live = true) ∧ (eth = true) ∧ (up = true) ∧ (fr.fcsOk = false)) ((State.reset.setF F.LNK_CTL.EN 7 [1] 1).setF F.LNK_STAT.UP 7 [1] 1) 7 1 ⟨95, 2000, 64, false, 0xFFFFFFFFFFFF, none, 0x0800, none, none, none, none⟩ ∧
    (fun (s : State) (die : DieNo) (kp : PortNo) (fr : EthFrame) =>
      let d := die.val
      let k := kp.val
      let live := s.live d
      let up := s.linkUp d k
      let eth := s.isEth d k
      let ty := fr.etherType
      (live = true) ∧ (eth = true) ∧ (up = true) ∧ (fr.fcsOk = true) ∧ ((fr.len < 64 ∨ 1522 < fr.len ∨ ty = 0x8808#16))) ((State.reset.setF F.LNK_CTL.EN 7 [1] 1).setF F.LNK_STAT.UP 7 [1] 1) 7 1 ⟨95, 2000, 1523, true, 0xFFFFFFFFFFFF, none, 0x0800, none, none, none, none⟩ ∧
    (fun (s : State) (die : DieNo) (kp : PortNo) (fr : EthFrame) =>
      let d := die.val
      let k := kp.val
      let live := s.live d
      let up := s.linkUp d k
      let eth := s.isEth d k
      let open_ : Bool := decide (s.f F.LNK_MSCTL.EN d [k] = 0)
      let ty := fr.etherType
      let got : Bool := live && eth && up && fr.fcsOk && decide (64 ≤ fr.len) && decide (fr.len ≤ 1522) && decide (ty ≠ 0x8808#16)
      (got = true) ∧ (open_ = false) ∧ (ty ≠ 0x888E#16) ∧ (fr.sec = none)) (((State.reset.setF F.LNK_CTL.EN 7 [1] 1).setF F.LNK_STAT.UP 7 [1] 1).setF F.LNK_MSCTL.EN 7 [1] 1) 7 1 ⟨95, 2000, 64, true, 0xFFFFFFFFFFFF, none, 0x0800, none, none, none, none⟩ ∧
    (fun (s : State) (die : DieNo) (kp : PortNo) (fr : EthFrame) =>
      let d := die.val
      let k := kp.val
      let live := s.live d
      let up := s.linkUp d k
      let eth := s.isEth d k
      let ty := fr.etherType
      let got : Bool := live && eth && up && fr.fcsOk && decide (64 ≤ fr.len) && decide (fr.len ≤ 1522) && decide (ty ≠ 0x8808#16)
      (got = true) ∧ (ty = 0x888E#16)) ((State.reset.setF F.LNK_CTL.EN 7 [1] 1).setF F.LNK_STAT.UP 7 [1] 1) 7 1 ⟨95, 2000, 64, true, 0xFFFFFFFFFFFF, none, 0x888E, none, none, none, none⟩ := by decide +kernel

theorem witness_linkPortEvents_2 :
    (fun (s : State) (die : DieNo) (kp : PortNo) (fr : EthFrame) =>
      let d := die.val
      let k := kp.val
      let live := s.live d
      let up := s.linkUp d k
      let eth := s.isEth d k
      let open_ : Bool := decide (s.f F.LNK_MSCTL.EN d [k] = 0)
      let ty := fr.etherType
      let got : Bool := live && eth && up && fr.fcsOk && decide (64 ≤ fr.len) && decide (fr.len ≤ 1522) && decide (ty ≠ 0x8808#16)
      (got = true) ∧ (open_ = true) ∧ (ty ≠ 0x888E#16) ∧ (ty ≠ 0x88F7#16) ∧ (fr.udp = none)) ((State.reset.setF F.LNK_CTL.EN 7 [1] 1).setF F.LNK_STAT.UP 7 [1] 1) 7 1 ⟨95, 2000, 64, true, 0xFFFFFFFFFFFF, none, 0x0800, none, none, none, none⟩ ∧
    (fun (s : State) (die : DieNo) (kp : PortNo) (fr : EthFrame) (m : Ptp) =>
      let d := die.val
      let k := kp.val
      let x := s.link d k
      let live := s.live d
      let up := s.linkUp d k
      let eth := s.isEth d k
      let open_ : Bool := decide (s.f F.LNK_MSCTL.EN d [k] = 0)
      let ty := fr.etherType
      let got : Bool := live && eth && up && fr.fcsOk && decide (64 ≤ fr.len) && decide (fr.len ≤ 1522) && decide (ty ≠ 0x8808#16)
      (got = true) ∧ (open_ = true) ∧ (ty = 0x88F7#16) ∧ (fr.ptp = some m) ∧ (s.servoOn d k = true) ∧ (m.domain.toNat = s.f F.LNK_PTPCFG.DOMAIN d [k]) ∧ (m.kind = .sync) ∧ (m.twoStep = false) ∧ (m.source = x.gm) ∧ (x.lostMaster = false)) ({ (((((State.reset.setF F.LNK_CTL.EN 7 [1] 1).setF F.LNK_STAT.UP 7 [1] 1).setF F.TCK_CTL.SRC 0 [] 2).setF F.TCK_CTL.PTPD 0 [] 7).setF F.TCK_CTL.PTPK 0 [] 1).setF F.LNK_PTPCFG.EN 7 [1] 1 with pkg := { State.reset.pkg with src := 2 } }) 7 1 ⟨95, 2000, 64, true, 0xFFFFFFFFFFFF, none, 0x88F7, none, none, none, some ⟨.sync, 0, 0, 9, 0, false, 1000, 1250⟩⟩ ⟨.sync, 0, 0, 9, 0, false, 1000, 1250⟩ ∧
    (fun (s : State) (die : DieNo) (kp : PortNo) (fr : EthFrame) (p : Rtp) (e : Entry) =>
      let d := die.val
      let k := kp.val
      let live := s.live d
      let up := s.linkUp d k
      let eth := s.isEth d k
      let open_ : Bool := decide (s.f F.LNK_MSCTL.EN d [k] = 0)
      let ty := fr.etherType
      let got : Bool := live && eth && up && fr.fcsOk && decide (64 ≤ fr.len) && decide (fr.len ≤ 1522) && decide (ty ≠ 0x8808#16)
      (got = true) ∧ (open_ = true) ∧ (ty = 0x800#16) ∧ (fr.udp = some (e.addr, BitVec.ofNat 16 e.udp, true)) ∧ (e.udp < 65536) ∧ (e.udp ≠ 319) ∧ (e.udp ≠ 320) ∧ (fr.rtp = some p) ∧ (p.odd = false) ∧ (s.pkg.early = none) ∧ (s.matching false d k e.addr e.udp fr.vlan = [e]) ∧ (s.rxOk false d k e = true) ∧ (s.pairOf false d k e = none)) ({ ((((State.reset.setF F.LNK_CTL.EN 7 [1] 1).setF F.LNK_STAT.UP 7 [1] 1).setAct .LNK_SA 7 [1, 1023] 0xEFFFFFFF).setAct .LNK_SB 7 [1, 1023] 0xFFFF8000).setAct .LNK_SC 7 [1, 1023] 0x00400000 with flA := [(57344, ⟨0x8102000A, 0x10400000 + 2047, 0, 0⟩)] }) 7 1 ⟨95, 2000, 64, true, 0xFFFFFFFFFFFF, none, 0x0800, none, some (0xEFFFFFFF, 65535, true), some ⟨false, 65535, 0, [1, 2, 3]⟩, none⟩ ⟨false, 65535, 0, [1, 2, 3]⟩ ⟨1023, 0xEFFFFFFF, 65535, false, false, 0, 0, 0, 1, 0⟩ := by decide +kernel

theorem witness_linkPortEvents_3 :
    (fun (s : State) (die : DieNo) (kp : PortNo) =>
      let d := die.val
      let k := kp.val
      let live := s.live d
      let up := s.linkUp d k
      let eth := s.isEth d k
      let open_ : Bool := decide (s.f F.LNK_MSCTL.EN d [k] = 0)
      let servo (prof : Nat) : Bool := live && s.servoOn d k && decide (s.f F.LNK_PTPCFG.PROF d [k] = prof)
      (servo 0 = true) ∧ (up = true) ∧ (eth = true) ∧ (open_ = true)) ({ (((((State.reset.setF F.LNK_CTL.EN 7 [1] 1).setF F.LNK_STAT.UP 7 [1] 1).setF F.TCK_CTL.SRC 0 [] 2).setF F.TCK_CTL.PTPD 0 [] 7).setF F.TCK_CTL.PTPK 0 [] 1).setF F.LNK_PTPCFG.EN 7 [1] 1 with pkg := { State.reset.pkg with src := 2 } }) 7 1 ∧
    (fun (s : State) (die : DieNo) (kp : PortNo) =>
      let d := die.val
      let k := kp.val
      let live := s.live d
      let up := s.linkUp d k
      let eth := s.isEth d k
      let open_ : Bool := decide (s.f F.LNK_MSCTL.EN d [k] = 0)
      let servo (prof : Nat) : Bool := live && s.servoOn d k && decide (s.f F.LNK_PTPCFG.PROF d [k] = prof)
      (servo 1 = true) ∧ (up = true) ∧ (eth = true) ∧ (open_ = true)) ({ ((((((State.reset.setF F.LNK_CTL.EN 7 [1] 1).setF F.LNK_STAT.UP 7 [1] 1).setF F.TCK_CTL.SRC 0 [] 2).setF F.TCK_CTL.PTPD 0 [] 7).setF F.TCK_CTL.PTPK 0 [] 1).setF F.LNK_PTPCFG.EN 7 [1] 1).setF F.LNK_PTPCFG.PROF 7 [1] 1 with pkg := { State.reset.pkg with src := 2 } }) 7 1 ∧
    (fun (s : State) (die : DieNo) (kp : PortNo) =>
      let d := die.val
      let k := kp.val
      let x := s.link d k
      let live := s.live d
      (live = true) ∧ (s.servoOn d k = true) ∧ (x.lostMaster = false)) ({ (((((State.reset.setF F.LNK_CTL.EN 7 [1] 1).setF F.LNK_STAT.UP 7 [1] 1).setF F.TCK_CTL.SRC 0 [] 2).setF F.TCK_CTL.PTPD 0 [] 7).setF F.TCK_CTL.PTPK 0 [] 1).setF F.LNK_PTPCFG.EN 7 [1] 1 with pkg := { State.reset.pkg with src := 2 } }) 7 1 ∧
    (fun (s : State) (die : DieNo) (kp : PortNo) (i : Fin 1024) (early : Bool) (fs : List Entry) (es : List Entry) (l : List Entry) =>
      let d := die.val
      let k := kp.val
      let x := s.link d k
      let live := s.live d
      let up := s.linkUp d k
      let eth := s.isEth d k
      let open_ : Bool := decide (s.f F.LNK_MSCTL.EN d [k] = 0)
      let st := s.streamOf d k i.val early
      let msc := (s.die d).msc
      let q := s.packetLen (l.headD ⟨0, 0, 0, false, false, 0, 0, 0, 0, 0⟩).ptime
      let hd := l.headD ⟨0, 0, 0, false, false, 0, 0, 0, 0, 0⟩
      let t0 := x.next.get (msc / q * q) (hd.addr.toNat * 65536 + hd.udp)
      (st = (fs, es)) ∧ (l = (if fs.isEmpty then es else fs)) ∧ (l ≠ []) ∧ (live = true) ∧ (eth = true) ∧ (up = true) ∧ (t0 + q ≤ msc + s.perFrame) ∧ (s.packetFirst d k hd = true) ∧ (open_ = true)) ({ ((((State.reset.setF F.LNK_CTL.EN 7 [1] 1).setF F.LNK_STAT.UP 7 [1] 1).setAct .LNK_SA 7 [1, 1023] 0xEFFFFFFF).setAct .LNK_SB 7 [1, 1023] 0xFFFFC000).setAct .LNK_SC 7 [1, 1023] 0x00400000 with flA := [(57344, ⟨0x8002000A, 0x30400000, 0, 0⟩)] }) 7 1 1023 false [⟨1023, 0xEFFFFFFF, 65535, true, false, 0, 0, 0, 1, 0⟩] [] [⟨1023, 0xEFFFFFFF, 65535, true, false, 0, 0, 0, 1, 0⟩] := by decide +kernel

theorem witness_finolrusAndTdm_1 :
    (fun (s : State) (die : DieNo) (dirB : Bool) =>
      let d := die.val
      let live := s.live d
      let r := (s.die d).ring
      let runs : Bool := live && decide (s.f F.FIN_STAT.RUN d [] = 1)
      (runs = true) ∧ (s.fa F.FIN_CFG.S d [] ≠ 0) ∧ ((if dirB then r.startedB else r.startedA) = false)) ((State.reset.setF F.FIN_STAT.RUN 7 [] 1).setFa F.FIN_CFG.S 7 [] 80) 7 true ∧
    (fun (s : State) (die : DieNo) (x : FinSlot) =>
      let d := die.val
      let live := s.live d
      let runs : Bool := live && decide (s.f F.FIN_STAT.RUN d [] = 1)
      (runs = true) ∧ (s.slotOwner d x.slot.toNat = none)) (State.reset.setF F.FIN_STAT.RUN 7 [] 1) 7 ⟨true, 9, 63, 5, 2, 0xFFFF, 1, 0, .empty, 2000⟩ ∧
    (fun (s : State) (die : DieNo) (x : FinSlot) (n : Nat) =>
      let d := die.val
      let live := s.live d
      let runs : Bool := live && decide (s.f F.FIN_STAT.RUN d [] = 1)
      let hop := s.f (if x.dirB then F.FIN_NST.HOPB else F.FIN_NST.HOPA) d [n]
      let own : Bool := decide (s.slotOwner d x.slot.toNat = some n)
      let fits : Bool := decide (x.node.val = n) && (decide (hop = 127) || decide (hop = x.hop.toNat))
      (runs = true) ∧ (own = true) ∧ (x.body ≠ .empty) ∧ (fits = false)) (State.reset.setF F.FIN_STAT.RUN 7 [] 1) 7 ⟨true, 9, 62, 5, 66, 0xFFFF, 1, 0, .nctl ⟨7, 2, 0, []⟩, 2000⟩ 63 ∧
    (fun (s : State) (die : DieNo) (x : FinSlot) (n : Nat) (b : Nctl) (old : Bool) =>
      let d := die.val
      let live := s.live d
      let r := (s.die d).ring
      let runs : Bool := live && decide (s.f F.FIN_STAT.RUN d [] = 1)
      let cycle := (s.fn d + 281474976710656 - ((if r.startedA || r.startedB then 0 else 1) + old.toNat)) % 281474976710656
      let hop := s.f (if x.dirB then F.FIN_NST.HOPB else F.FIN_NST.HOPA) d [n]
      let own : Bool := decide (s.slotOwner d x.slot.toNat = some n)
      let fits : Bool := decide (x.node.val = n) && (decide (hop = 127) || decide (hop = x.hop.toNat))
      let nd := s.node d n
      (runs = true) ∧ (own = true) ∧ (x.body = .nctl b) ∧ (x.slot.toNat < 67) ∧ (fits = true) ∧ (s.nodeState d n = 3) ∧ (x.fnlo.toNat = cycle % 65536) ∧ ((if old then nd.leashOld else nd.leash) = none) ∧ (b.kind = 0#8)) (((State.reset.setF F.FIN_STAT.RUN 7 [] 1).setF F.FIN_NST.STATE 7 [63] 3).setF F.FIN_NST.HOPB 7 [63] 127) 7 ⟨true, 9, 63, 5, 66, 0xFFFF, 1, 0, .nctl ⟨7, 2, 0, []⟩, 2000⟩ 63 ⟨7, 2, 0, []⟩ false := by decide +kernel

theorem witness_finolrusAndTdm_2 :
    (fun (s : State) (die : DieNo) (x : FinSlot) (n : Nat) (b : Nctl) (old : Bool) =>
      let d := die.val
      let live := s.live d
      let r := (s.die d).ring
      let runs : Bool := live && decide (s.f F.FIN_STAT.RUN d [] = 1)
      let cycle := (s.fn d + 281474976710656 - ((if r.startedA || r.startedB then 0 else 1) + old.toNat)) % 281474976710656
      let hop := s.f (if x.dirB then F.FIN_NST.HOPB else F.FIN_NST.HOPA) d [n]
      let own : Bool := decide (s.slotOwner d x.slot.toNat = some n)
      let fits : Bool := decide (x.node.val = n) && (decide (hop = 127) || decide (hop = x.hop.toNat))
      let nd := s.node d n
      (runs = true) ∧ (own = true) ∧ (x.body = .nctl b) ∧ (x.slot.toNat < 67) ∧ (fits = true) ∧ (s.nodeState d n = 3) ∧ (x.fnlo.toNat ≠ cycle % 65536) ∧ (nd.hostile = 0)) (((State.reset.setF F.FIN_STAT.RUN 7 [] 1).setF F.FIN_NST.STATE 7 [63] 3).setF F.FIN_NST.HOPB 7 [63] 127) 7 ⟨true, 9, 63, 5, 66, 5, 1, 0, .nctl ⟨7, 2, 0, []⟩, 2000⟩ 63 ⟨7, 2, 0, []⟩ true ∧
    (fun (s : State) (die : DieNo) (x : FinSlot) (n : Nat) (lb : Nat) (g : Nat) (ws : List W18) (old : Bool) =>
      let d := die.val
      let live := s.live d
      let r := (s.die d).ring
      let runs : Bool := live && decide (s.f F.FIN_STAT.RUN d [] = 1)
      let cycle := (s.fn d + 281474976710656 - ((if r.startedA || r.startedB then 0 else 1) + old.toNat)) % 281474976710656
      let hop := s.f (if x.dirB then F.FIN_NST.HOPB else F.FIN_NST.HOPA) d [n]
      let own : Bool := decide (s.slotOwner d x.slot.toNat = some n)
      let fits : Bool := decide (x.node.val = n) && (decide (hop = 127) || decide (hop = x.hop.toNat))
      let nd := s.node d n
      let f := s.perFrame
      let emin := (BitVec.ofNat 6 (s.fa F.FIN_NCFG.EMIN d [n])).toInt
      let emax := (BitVec.ofNat 6 (s.fa F.FIN_NCFG.EMAX d [n])).toInt
      let fl := s.flow g
      (runs = true) ∧ (own = true) ∧ (x.body = .carrier ws) ∧ (67 ≤ x.slot.toNat) ∧ (fits = true) ∧ (s.finActive d n = true) ∧ ((if old then r.keptOld else r.kept).contains x.slot.toNat = false) ∧ (x.fnlo.toNat = cycle % 65536) ∧ (newer 16 x.sent.toNat (if old then nd.sentOld else nd.sentHi) = true) ∧ (((if old then r.grantsOld else r.grants).get 0 n + 65536 - x.sent.toNat) % 65536 < 32768) ∧ (s.finFlow d n x.strm.toNat = some g) ∧ (blkCount ws = f / segsOf f) ∧ (emin ≤ blkE ws) ∧ (blkE ws ≤ emax) ∧ (blkChan ws < fl.nchan) ∧ (blkSeg ws < segsOf f) ∧ ((fl.cmax = 0 ∨ 1 ≤ (s.flowState g).tokens)) ∧ (s.loanOf d (16 + n) = some lb)) ({ ((((State.reset.setF F.FIN_STAT.RUN 7 [] 1).setF F.FIN_NST.STATE 7 [63] 3).setF F.FIN_NST.HOPB 7 [63] 127).setFa F.FIN_NSLOT.SBASE 7 [63] 67 |>.setFa F.FIN_NSLOT.NSLOT 7 [63] 1) with blks := [(7 * 65536 + 9, ⟨.loaned, 79, false, 0, false, false, false⟩)], flA := [(57344, ⟨0x8202000A, 0x30400000 + 1013, 0, 0⟩)] }.setDie 7 { ring := { grants := [(63, 1)] } }) 7 ⟨true, 9, 63, 5, 67, 0xFFFF, 1, 0, .carrier [48, 0, 0, 0, 5, 6], 2000⟩ 63 9 57344 [48, 0, 0, 0, 5, 6] false := by decide +kernel

theorem witness_finolrusAndTdm_3 :
    (fun (s : State) (die : DieNo) =>
      let d := die.val
      let live := s.live d
      let r := (s.die d).ring
      (live = true) ∧ ((s.die d).phase = .guard) ∧ ((s.fn d + 1) % 1000 = 0) ∧ (r.degDone = false)) ((State.reset.setDie 7 { phase := .guard }).setReg .TCK_FN_LO 7 [] 999) 7 ∧
    (fun (s : State) (die : DieNo) (kp : Fin 4) (slot : Fin 16) (pos : Fin 192) =>
      let d := die.val
      let k := kp.val
      let live := s.live d
      let tdmLive : Bool := live && decide (s.f F.TDM_CTL.EN d [k] = 1) && decide (slot.val < (if s.f F.TDM_CTL.MODE d [k] = 0 then 2 else s.f F.TDM_CTL.SLOTS d [k]))
      let z := s.tdm d k
      let first : Bool := decide (pos.val = 0) && !z.seen
      let slave : Bool := decide (s.f F.TDM_CTL.MASTER d [k] = 0)
      let locks : Bool := first && slave && decide (s.f F.TDM_STAT.RUN d [k] = 1) && decide (1 ≤ z.edges)
      let on : Bool := s.tdmOn d k || locks
      (tdmLive = true) ∧ (on = false)) ((State.reset.setF F.TDM_CTL.EN 7 [3] 1).setF F.TDM_CTL.SLOTS 7 [3] 16 |>.setF F.TDM_CTL.MODE 7 [3] 1) 7 3 15 0 ∧
    (fun (s : State) (die : DieNo) (kp : Fin 4) (slot : Fin 16) (pos : Fin 192) (fid : Nat) (ch : Nat) (out : Bool) =>
      let d := die.val
      let k := kp.val
      let live := s.live d
      let tdmLive : Bool := live && decide (s.f F.TDM_CTL.EN d [k] = 1) && decide (slot.val < (if s.f F.TDM_CTL.MODE d [k] = 0 then 2 else s.f F.TDM_CTL.SLOTS d [k]))
      let z := s.tdm d k
      let first : Bool := decide (pos.val = 0) && !z.seen
      let slave : Bool := decide (s.f F.TDM_CTL.MASTER d [k] = 0)
      let locks : Bool := first && slave && decide (s.f F.TDM_STAT.RUN d [k] = 1) && decide (1 ≤ z.edges)
      let on : Bool := s.tdmOn d k || locks
      (tdmLive = true) ∧ (on = true) ∧ (s.pkg.early = none) ∧ ((s.slotMap false d k slot.val = none ∨ s.slotMap false d k slot.val = some ⟨out, ch, fid⟩))) ((((State.reset.setF F.TDM_CTL.EN 7 [3] 1).setF F.TDM_CTL.SLOTS 7 [3] 16 |>.setF F.TDM_CTL.MODE 7 [3] 1).setF F.TDM_STAT.RUN 7 [3] 1).setF F.TDM_CTL.MASTER 7 [3] 1) 7 3 15 191 9 1 true ∧
    (fun (s : State) (die : DieNo) (kp : Fin 4) =>
      let d := die.val
      let k := kp.val
      let live := s.live d
      (live = true) ∧ (s.f F.TDM_CTL.EN d [k] = 1) ∧ (s.f F.TDM_CTL.MASTER d [k] = 0)) (State.reset.setF F.TDM_CTL.EN 7 [3] 1) 7 3 := by decide +kernel

theorem witness_bootAndTest_1 :
    (fun (s : State) =>
      let b := s.pkg.boot
      (b.stage = .selftest) ∧ (s.pkgState = 1) ∧ ((s.dies.all (fun p => p.2.due.isEmpty)) = true)) (State.reset.setF F.PKG_STATE.STATE 0 [] 1) ∧
    (fun (s : State) (h : List Byte) (n : Nat) =>
      let b := s.pkg.boot
      let live := s.live b.die
      let magic : Bool := decide (h.length < 256) || decide (h.take 6 ≠ [0x44, 0x58, 0x45, 0x50, 0x01, 0x00])
      (live = true) ∧ (b.stage = .header n) ∧ (magic = true)) ({ State.reset with pkg := { State.reset.pkg with boot := ⟨.header 0, 0, false, []⟩ } }) [0x44] 0 ∧
    (fun (s : State) (p : List Byte) (n : Nat) =>
      let b := s.pkg.boot
      let live := s.live b.die
      (live = true) ∧ (b.stage = .payload n) ∧ (p.length ≠ fieldAt b.header 12 4)) ({ State.reset with pkg := { State.reset.pkg with boot := ⟨.payload 1, 1, false, [0, 0, 0, 0, 0, 0, 0, 0, 0, 0, 0, 0, 1]⟩ } }) [] 1 ∧
    (fun (s : State) (p : List Byte) (n : Nat) =>
      let b := s.pkg.boot
      let live := s.live b.die
      (live = true) ∧ (b.stage = .payload n) ∧ (p.length = fieldAt b.header 12 4)) ({ State.reset with pkg := { State.reset.pkg with boot := ⟨.payload 1, 1, false, [0, 0, 0, 0, 0, 0, 0, 0, 0, 0, 0, 0, 1]⟩ } }) [7] 1 ∧
    (fun (s : State) (src : Src) =>
      let b := s.pkg.boot
      let live := s.live b.die
      (s.srcLive src = true) ∧ (s.f F.PKG_RECOVLEN.GO 0 [] = 1) ∧ (live = true)) (State.reset.setF F.PKG_RECOVLEN.GO 0 [] 1) (.host 1) ∧
    (fun (s : State) (src : Src) (h : List Byte) =>
      let len := s.f F.PKG_RECOVLEN.LEN 0 []
      (s.srcLive src = true) ∧ (s.f F.PKG_RECOVLEN.GO 0 [] = 1) ∧ (s.live s.pkg.boot.die = true) ∧ (h.length < len)) ((State.reset.setF F.PKG_RECOVLEN.GO 0 [] 1).setF F.PKG_RECOVLEN.LEN 0 [] 2) (.host 1) [7] ∧
    (fun (s : State) (src : Src) (h : List Byte) =>
      let len := s.f F.PKG_RECOVLEN.LEN 0 []
      (s.srcLive src = true) ∧ (s.f F.PKG_RECOVLEN.GO 0 [] = 1) ∧ (s.live s.pkg.boot.die = true) ∧ (len ≤ h.length)) ((State.reset.setF F.PKG_RECOVLEN.GO 0 [] 1).setF F.PKG_RECOVLEN.LEN 0 [] 2) (.host 1) [7, 8] ∧
    (fun (s : State) (x : Test) =>
      let past := (s.fn (s.liveDies.headD 0) + 281474976710656 - x.endFn) % 281474976710656
      (s.pkg.test = some x) ∧ (x.started = true) ∧ (past < 140737488355328) ∧ (s.liveDies.all (fun m => (List.range 8).all (fun q => ((s.die m).selfSlot.get none q).isNone)) = true)) ({ State.reset with pkg := { State.reset.pkg with test := some ⟨63, 140737488355329, true, false, 0, 0, 0, [], false⟩ } }) ⟨63, 140737488355329, true, false, 0, 0, 0, [], false⟩ := by decide +kernel

theorem witness_bootAndTest_2 :
    (fun (s : State) (r : Nat) (e : EngNo) (die : DieNo) =>
      let d := die.val
      (s.live d = true) ∧ ((s.die d).selfSlot.get none (e.val / 8) = some (e.val, r)) ∧ (65 ≤ r)) (State.reset.setDie 7 { selfSlot := [(7, some (63, 65))] }) 65 63 7 := by decide +kernel

theorem witness_panelCommands_1 :
    (fun (s : State) (kp : PortNo) =>
      let k := kp.val
      let on : Bool := s.panelOn k
      (on = false)) State.reset 1 ∧
    (fun (s : State) (kp : PortNo) (frame : List (BitVec 24)) (hd : W18) (ws : List W18) (addr : Nat) =>
      let k := kp.val
      let on : Bool := s.panelOn k
      let head (c : Nat) : Prop := on = true ∧ goodXfers 0 frame = (hd :: ws, false) ∧ hd.toNat = c * 16384 + addr ∧ addr < 4096
      (head 0)) ((State.reset.setF F.PKG_STATE.STATE 0 [] 3).setF F.PNL_CTL.EN 1 [] 1) 1 [4095] 4095 [] 4095 ∧
    (fun (s : State) (kp : PortNo) (frame : List (BitVec 24)) =>
      let k := kp.val
      let on : Bool := s.panelOn k
      (on = true) ∧ (frame ≠ []) ∧ ((goodXfers 0 frame).1 = [])) ((State.reset.setF F.PKG_STATE.STATE 0 [] 3).setF F.PNL_CTL.EN 1 [] 1) 1 [0xFFFFFF] ∧
    (fun (s : State) (kp : PortNo) (frame : List (BitVec 24)) (hd : W18) (ws : List W18) (addr : Nat) =>
      let k := kp.val
      let on : Bool := s.panelOn k
      let head (c : Nat) : Prop := on = true ∧ goodXfers 0 frame = (hd :: ws, false) ∧ hd.toNat = c * 16384 + addr ∧ addr < 4096
      (head 1)) ((State.reset.setF F.PKG_STATE.STATE 0 [] 3).setF F.PNL_CTL.EN 1 [] 1) 1 [1069055, 3407877] 20479 [5] 4095 ∧
    (fun (s : State) (kp : PortNo) (frame : List (BitVec 24)) (hd : W18) (ws : List W18) (addr : Nat) =>
      let k := kp.val
      let on : Bool := s.panelOn k
      let head (c : Nat) : Prop := on = true ∧ goodXfers 0 frame = (hd :: ws, false) ∧ hd.toNat = c * 16384 + addr ∧ addr < 4096
      (head 2) ∧ (ws.length ≤ 4096)) ((State.reset.setF F.PKG_STATE.STATE 0 [] 3).setF F.PNL_CTL.EN 1 [] 1) 1 [299007, 3407877, 5767174] 36863 [5, 6] 4095 := by decide +kernel

theorem witness_panelCommands_2 :
    (fun (s : State) (kp : PortNo) (frame : List (BitVec 24)) (hd : W18) (ws : List W18) (addr : Nat) =>
      let k := kp.val
      let on : Bool := s.panelOn k
      let head (c : Nat) : Prop := on = true ∧ goodXfers 0 frame = (hd :: ws, false) ∧ hd.toNat = c * 16384 + addr ∧ addr < 4096
      (head 4)) ((State.reset.setF F.PKG_STATE.STATE 0 [] 3).setF F.PNL_CTL.EN 1 [] 1) 1 [593919] 69631 [] 4095 ∧
    (fun (s : State) (kp : PortNo) (frame : List (BitVec 24)) (hd : W18) (ws : List W18) (addr : Nat) =>
      let k := kp.val
      let on : Bool := s.panelOn k
      let head (c : Nat) : Prop := on = true ∧ goodXfers 0 frame = (hd :: ws, false) ∧ hd.toNat = c * 16384 + addr ∧ addr < 4096
      (head 5)) ((State.reset.setF F.PKG_STATE.STATE 0 [] 3).setF F.PNL_CTL.EN 1 [] 1) 1 [1658879] 86015 [] 4095 ∧
    (fun (s : State) (kp : PortNo) (frame : List (BitVec 24)) (hd : W18) (w : W18) (ws : List W18) (addr : Nat) =>
      let k := kp.val
      let on : Bool := s.panelOn k
      let head (c : Nat) : Prop := on = true ∧ goodXfers 0 frame = (hd :: ws, false) ∧ hd.toNat = c * 16384 + addr ∧ addr < 4096
      (head 3) ∧ (ws = [w])) ((State.reset.setF F.PKG_STATE.STATE 0 [] 3).setF F.PNL_CTL.EN 1 [] 1) 1 [1363967, 2727935] 53247 106495 [106495] 4095 ∧
    (fun (s : State) (kp : PortNo) =>
      let k := kp.val
      let x := s.panel k
      (s.live k = true) ∧ (s.f F.PNL_CTL.WDT k [] ≠ 0) ∧ (s.f F.PNL_STAT.WDEXP k [] = 0) ∧ (s.f F.PNL_CTL.WDT k [] ≤ x.sinceKick)) (State.reset.setF F.PNL_CTL.WDT 1 [] 65535 |>.updPanel 1 (fun y => { y with sinceKick := 65535 })) 1 ∧
    (fun (s : State) (kp : PortNo) (die : DieNo) (word : W36) =>
      let k := kp.val
      let d := die.val
      let z := s.die d
      let tr := Trig.mk k (word.setWidth 18) ((word >>> 18).setWidth 18)
      let act := tr.word.toNat / 32768
      let due (a : Nat) : Prop := s.live d = true ∧ act = a ∧ z.acts.contains tr = true
      (due 1)) (State.reset.setDie 7 { acts := [⟨1, 34807, 0x2AAAA⟩] }) 1 7 45812844535 := by decide +kernel

theorem witness_panelCommands_3 :
    (fun (s : State) (kp : PortNo) (die : DieNo) (word : W36) =>
      let k := kp.val
      let d := die.val
      let z := s.die d
      let tr := Trig.mk k (word.setWidth 18) ((word >>> 18).setWidth 18)
      let act := tr.word.toNat / 32768
      let due (a : Nat) : Prop := s.live d = true ∧ act = a ∧ z.acts.contains tr = true
      (due 2)) (State.reset.setDie 7 { acts := [⟨1, 67583, 0x2AAAA⟩] }) 1 7 45812877311 ∧
    (fun (s : State) (kp : PortNo) (die : DieNo) (word : W36) =>
      let k := kp.val
      let d := die.val
      let z := s.die d
      let tr := Trig.mk k (word.setWidth 18) ((word >>> 18).setWidth 18)
      let act := tr.word.toNat / 32768
      let due (a : Nat) : Prop := s.live d = true ∧ act = a ∧ z.acts.contains tr = true
      (due 3)) (State.reset.setDie 7 { acts := [⟨1, 100343, 0x2AAAA⟩] }) 1 7 45812910071 ∧
    (fun (s : State) (kp : PortNo) (die : DieNo) (word : W36) =>
      let k := kp.val
      let d := die.val
      let z := s.die d
      let tr := Trig.mk k (word.setWidth 18) ((word >>> 18).setWidth 18)
      let act := tr.word.toNat / 32768
      let due (a : Nat) : Prop := s.live d = true ∧ act = a ∧ z.acts.contains tr = true
      (due 4)) (State.reset.setDie 7 { acts := [⟨1, 133111, 0x2AAAA⟩] }) 1 7 45812942839 ∧
    (fun (s : State) (kp : PortNo) (die : DieNo) (word : W36) =>
      let k := kp.val
      let d := die.val
      let z := s.die d
      let tr := Trig.mk k (word.setWidth 18) ((word >>> 18).setWidth 18)
      let act := tr.word.toNat / 32768
      let due (a : Nat) : Prop := s.live d = true ∧ act = a ∧ z.acts.contains tr = true
      (due 5)) (State.reset.setDie 7 { acts := [⟨1, 165887, 0x2AAAA⟩] }) 1 7 45812975615 ∧
    (fun (s : State) (kp : PortNo) (die : DieNo) (word : W36) =>
      let k := kp.val
      let d := die.val
      let z := s.die d
      let tr := Trig.mk k (word.setWidth 18) ((word >>> 18).setWidth 18)
      let act := tr.word.toNat / 32768
      let due (a : Nat) : Prop := s.live d = true ∧ act = a ∧ z.acts.contains tr = true
      (due 6)) (State.reset.setDie 7 { acts := [⟨1, 198647, 0x2AAAA⟩] }) 1 7 45813008375 := by decide +kernel

end Sys2Proof.Tests
end

/-! # A lone syllable of the X class

The facts that the statements on single operations share: what `State.solo` says, what an operation sees, and how its flag effects and
register writes become `Retires`. -/

namespace Sys2Proof.Machine

/-! ### An engine that can issue a lone syllable -/

/-- What `State.solo` says of the engine and the syllable, part by part; the loops and the lookup stay with `State.solo`. -/
structure SoloParts (s : State) (a : At) : Prop where
  issues : s.issues a.die.val a.eng.val = true
  bundle : (s.engOf a).bundle = []
  div : (s.engOf a).div = none
  popU : (s.engOf a).popU = false
  popS : (s.engOf a).popS = false
  br : (s.engOf a).br = none
  rpt : (s.engOf a).rpt = none
  pw : (s.engOf a).pw = []
  still : (s.engOf a).still = true
  xfers : (s.engOf a).xfers = []
  last : a.last = true
  err : a.err = none
  good : okBundle ((s.engOf a).pmAt 1 (s.engOf a).half (s.engOf a).pc.toNat) = true

/-- No loop of `old` ends at the PC of `x`. -/
def Eng.midLoop (x : Eng) (old : List LoopEnt) : Prop :=
  (match old with | [] => true | l :: _ => decide (l.stop ≠ x.pc)) = true

variable {s : State} {a : At}

theorem solo_parts (h : s.solo a = true) : SoloParts s a := by
  simp only [State.solo, Bool.and_eq_true, List.isEmpty_iff, Option.isNone_iff_eq_none, Bool.not_eq_true'] at h
  obtain ⟨⟨⟨⟨⟨⟨⟨⟨⟨⟨⟨⟨⟨⟨hi, hb⟩, hd⟩, hu⟩, hs⟩, hbr⟩, hr⟩, hpw⟩, hst⟩, hx⟩, -⟩, hl⟩, he⟩, hg⟩, -⟩ := h
  exact ⟨hi, hb, hd, hu, hs, hbr, hr, hpw, hst, hx, hl, he, hg⟩

theorem solo_midLoop (h : s.solo a = true) : (s.engOf a).midLoop (s.engOf a).loops := by
  simp only [State.solo, Bool.and_eq_true] at h
  obtain ⟨⟨⟨⟨⟨-, hl⟩, -⟩, -⟩, -⟩, -⟩ := h
  exact hl

theorem solo_fence (h : s.solo a = true) : (s.engOf a).fence = false := by
  have hi := (solo_parts h).issues
  simp only [State.issues, Bool.and_eq_true, Bool.not_eq_true'] at hi
  exact hi.2

/-- A lone syllable without traps takes none, in any state that has the engine of `s` but for its bundle. -/
theorem pickTrap_solo (h : s.solo a = true) (t : State) (l : List Syl) (y : Syl)
    (ht : t.eng a.die.val a.eng.val = (s.engOf a).gather l) (hy : y.traps = []) :
    t.pickTrap a.die.val a.eng.val [y] = (none, []) := by
  have hb := (solo_parts h).br
  simp only [State.solo, Bool.and_eq_true] at h
  obtain ⟨⟨⟨⟨⟨-, hl⟩, -⟩, -⟩, -⟩, hu⟩ := h
  exact pick_solo t _ _ _ y ht hb hl hy hu

/-! ### What an operation sees -/

/-- What a lone operation sees: the state, settled already, and its engine. -/
def State.ctxOf (s : State) (a : At) : Ctx := ⟨s.setEng a.die.val a.eng.val (s.engOf a), a.die.val, a.eng.val, s.engOf a, a⟩

@[simp] theorem ctxOf_x (s : State) (a : At) : (s.ctxOf a).x = s.engOf a := rfl
@[simp] theorem ctxOf_rd (s : State) (a : At) (i : BitVec 4) : (s.ctxOf a).rd i = (s.engOf a).rd i.toNat := rfl
@[simp] theorem ctxOf_wd (s : State) (a : At) (l i : Nat) (v : W18) : (s.ctxOf a).wd l i v = .wr l ((s.engOf a).toD i v) := rfl

/-! ### Flags -/

theorem foldl_flagBits_bit (l : List (Nat × Bool)) (m v : BitVec 7) :
    let r := l.foldl (fun (m, v) (i, b) => (m ||| BitVec.twoPow 7 i, if b then v ||| BitVec.twoPow 7 i else v)) (m, v)
    (r.2.getLsbD 3 = (v.getLsbD 3 || l.contains (3, true))) ∧ ((m.getLsbD 3 = true ∨ (3, true) ∈ l) → r.1.getLsbD 3 = true) := by
  induction l generalizing m v with
  | nil => simp
  | cons p l ih =>
    obtain ⟨i, b⟩ := p
    obtain ⟨hv, hm⟩ := ih (m ||| BitVec.twoPow 7 i) (if b then v ||| BitVec.twoPow 7 i else v)
    refine ⟨?_, fun hor => hm ?_⟩
    · simp only [List.foldl_cons, hv]
      cases b
      · simp
      · simp only [if_true, BitVec.getLsbD_or, BitVec.getLsbD_twoPow, List.contains_cons]
        grind
    · simp only [BitVec.getLsbD_or, BitVec.getLsbD_twoPow]
      grind

/-- V is written as 1 exactly where the list raises it. -/
theorem flagBits_v (l : List (Nat × Bool)) : ((flagBits l).1.getLsbD 3 && (flagBits l).2.getLsbD 3) = l.contains (3, true) := by
  obtain ⟨hv, hm⟩ := foldl_flagBits_bit l 0 0
  have hv' : (flagBits l).2.getLsbD 3 = l.contains (3, true) := hv.trans (by simp)
  by_cases h : (3, true) ∈ l
  · have : (flagBits l).1.getLsbD 3 = true := hm (.inr h)
    rw [hv', this, Bool.true_and]
  · have hno : l.contains (3, true) = false := Bool.eq_false_iff.2 (mt List.contains_iff_mem.1 h)
    rw [hv', hno, Bool.and_false]

/-- The flag effects of an operation are the flag writes of the statements. -/
theorem flagFx_eq_toFl (x : Eng) (l : List (Nat × Bool)) : flagFx x.sh 1 l = (x.toFl l).map (.wr 1) := by
  simp only [flagFx, Eng.toFl, flagBits_v]
  split <;> rfl

theorem znOf_eq_zeroNeg (r : W18) : znOf r = zeroNeg r := by
  simp only [znOf, zeroNeg, ← BitVec.msb_eq_toInt, BitVec.msb_eq_getLsbD_last]

/-- The sticky sets of a flag write stand last already. -/
theorem sticky_last (x : Eng) (ws : List Wr) (hws : ∀ w ∈ ws, w.sticky = false) (l : List (Nat × Bool)) :
    (ws ++ x.toFl l).filter (fun w => !w.sticky) ++ (ws ++ x.toFl l).filter Wr.sticky = ws ++ x.toFl l := by
  have h0 : ws.filter Wr.sticky = [] := by simpa [List.filter_eq_nil_iff] using hws
  have h1 : ws.filter (fun w => !w.sticky) = ws := by simpa [List.filter_eq_self] using hws
  simp only [List.filter_append, h0, h1, List.nil_append, List.append_assoc, List.append_cancel_left_eq]
  simp only [Eng.toFl]
  split <;> rfl

/-! ### Effects of latency 1 -/

@[simp] theorem filterMap_res_wr (ws : List Wr) : (ws.map (Fx.wr 1)).filterMap Fx.res = ws.map (fun w => ⟨1, w, false⟩) := by
  simp [List.filterMap_map, Function.comp_def, Fx.res]

/-- All effects of latency 1 fall due with the bundle. -/
theorem filter_due (ws : List Wr) :
    ((ws.map (fun w => (⟨1, w, false⟩ : PendW))).filter (fun p => decide (p.left ≤ 1))).map PendW.wr = ws := by
  simp [List.filter_map, Function.comp_def]

theorem filter_later (ws : List Wr) : (ws.map (fun w => (⟨1, w, false⟩ : PendW))).filter (fun p => decide (1 < p.left)) = [] := by
  simp [List.filter_map, Function.comp_def]

/-- A lone X-class operation that writes the registers of `ws` and the flags of `l` at +1 retires with these writes. -/
theorem retires_classX {c : Instr} {f : Ctx → OpRes} (hc : exec c s = issueOp a { slots := classX } f s) (h : Lone s a [4, 5])
    (ws : List Wr) (hws : ∀ w ∈ ws, w.sticky = false) (l : List (Nat × Bool))
    (hf : f (s.ctxOf a) = ⟨ws.map (.wr 1) ++ flagFx (s.engOf a).sh 1 l, []⟩) :
    Retires c s a (ws ++ (s.engOf a).toFl l) [] := by
  obtain ⟨hsolo, hslot, hext⟩ := h
  rw [flagFx_eq_toFl, ← List.map_append] at hf
  obtain ⟨t, ht, hr⟩ := issue_regs s a { slots := classX } f _ rfl hsolo hslot (.inl hext) (.inl rfl) (by simp) _ hf (by simp [Fx.res])
    (ws ++ (s.engOf a).toFl l) [] (by rw [filterMap_res_wr, filter_due, sticky_last _ _ hws])
    (by rw [filterMap_res_wr, filter_later]; rfl)
  exact ⟨t, hc.trans ht, hr⟩

/-- A lone X-class operation with one word result and flags. -/
theorem retires_alu {c : Instr} {f : Ctx → OpRes} (hc : exec c s = issueOp a { slots := classX } f s) (h : Lone s a [4, 5])
    {d : Nat} {r : W18} {l : List (Nat × Bool)} (hf : f (s.ctxOf a) = (s.ctxOf a).alu d r l) :
    Retires c s a ((s.engOf a).toD d r :: (s.engOf a).toFl l) [] :=
  retires_classX hc h [(s.engOf a).toD d r] (by simp [Eng.toD, Wr.sticky]) l hf

end Sys2Proof.Machine

/-! # Pairs and decimals: the X-class operations of one bundle -/

namespace Sys2Proof.Machine

variable {s : State} {a : At}

/-! ### Pairs (R176, R195) -/

/-- A 36-bit exact result overflows exactly where wrapping changes it. -/
theorem ovf36_iff_bmod (e : Int) : ovf36 e = decide (e.bmod (2 ^ 36) ≠ e) := by
  simp only [ovf36, Int.bmod_def, ← Bool.decide_or, decide_eq_decide]
  omega

theorem pair_high (r : W36) : BitVec.ofNat 18 (r.toNat / 262144) = (r >>> 18).setWidth 18 := by
  apply BitVec.eq_of_toNat_eq
  simp [Nat.shiftRight_eq_div_pow]

/-- A pair result that wraps an exact one retires with its two words and the flags over 36 bits. -/
theorem retires_dbl {c : Instr} {f : Ctx → OpRes} (hc : exec c s = issueOp a { slots := classX } f s) (h : Lone s a [4, 5])
    {v : Nat} {r : W36} {e : Int} {carry : Bool} (hr : r.toInt = e.bmod (2 ^ 36)) (hf : f (s.ctxOf a) = (s.ctxOf a).dbl v r e carry) :
    Retires c s a ((s.engOf a).toD (2 * v) (BitVec.ofNat 18 r.toNat) :: (s.engOf a).toD (2 * v + 1) (BitVec.ofNat 18 (r.toNat / 262144)) ::
      (s.engOf a).toFl [(0, carry), (1, decide (r = 0)), (2, decide (r.toInt < 0)), (3, decide (r.toInt ≠ e))]) [] := by
  have hn : decide (r.toInt < 0) = r.getLsbD 35 := by rw [← BitVec.msb_eq_toInt, BitVec.msb_eq_getLsbD_last]
  have hv : decide (r.toInt ≠ e) = ovf36 e := by rw [ovf36_iff_bmod, hr]
  rw [hn, hv, pair_high, BitVec.ofNat_toNat]
  exact retires_classX hc h [(s.engOf a).toD (2 * v) (r.setWidth 18), (s.engOf a).toD (2 * v + 1) ((r >>> 18).setWidth 18)]
    (by simp [Eng.toD, Wr.sticky]) _ hf

/-- A running extreme that is taken moves with its index; one that is not leaves the pair alone (R195). -/
theorem retires_running {c : Instr} {f : Ctx → OpRes} (hc : exec c s = issueOp a { slots := classX } f s) (h : Lone s a [4, 5])
    {v : Nat} {take : Bool} {p q : W18} (hf : f (s.ctxOf a) = (s.ctxOf a).running v take p q) :
    Retires c s a ((if take then [(s.engOf a).toD (2 * v) p, (s.engOf a).toD (2 * v + 1) q] else []) ++ (s.engOf a).toFl [(0, take)]) [] := by
  refine retires_classX hc h _ ?_ _ (hf.trans ?_)
  · cases take <;> simp [Eng.toD, Wr.sticky]
  · cases take <;> rfl

/-! What the four operations give to the shared issue. -/

theorem exec_addD (a : At) (v w u : BitVec 3) (s : State) : exec (.addD a v w u) s = issueOp a { slots := classX } (fun c =>
    c.dbl v.toNat (c.x.rdd w.toNat + c.x.rdd u.toNat) ((c.x.rdd w.toNat).toInt + (c.x.rdd u.toNat).toInt)
      (decide (2 ^ 36 ≤ (c.x.rdd w.toNat).toNat + (c.x.rdd u.toNat).toNat))) s := rfl

theorem exec_subD (a : At) (v w u : BitVec 3) (s : State) : exec (.subD a v w u) s = issueOp a { slots := classX } (fun c =>
    c.dbl v.toNat (c.x.rdd w.toNat - c.x.rdd u.toNat) ((c.x.rdd w.toNat).toInt - (c.x.rdd u.toNat).toInt)
      (decide ((c.x.rdd u.toNat).toNat ≤ (c.x.rdd w.toNat).toNat))) s := rfl

theorem exec_mini (a : At) (v : BitVec 3) (p q : BitVec 4) (s : State) : exec (.mini a v p q) s = issueOp a { slots := classX } (fun c =>
    c.running v.toNat (decide ((c.rd p).toInt < (c.x.rd (2 * v.toNat)).toInt)) (c.rd p) (c.rd q)) s := rfl

theorem exec_maxi (a : At) (v : BitVec 3) (p q : BitVec 4) (s : State) : exec (.maxi a v p q) s = issueOp a { slots := classX } (fun c =>
    c.running v.toNat (decide ((c.x.rd (2 * v.toNat)).toInt < (c.rd p).toInt)) (c.rd p) (c.rd q)) s := rfl

/-- Settles O9: the four operations through `retires_dbl` and `retires_running`. -/
theorem pairOperations : Obligations.PairOperations := by
  intro s a v w u p q h
  refine ⟨?_, ?_, ?_, ?_⟩
  · exact retires_dbl (exec_addD ..) h (BitVec.toInt_add _ _) rfl
  · exact retires_dbl (exec_subD ..) h BitVec.toInt_sub rfl
  · exact retires_running (exec_mini ..) h rfl
  · exact retires_running (exec_maxi ..) h rfl

/-! ### Decimal words (R197) -/

theorem toNat_toBcd (m : Nat) :
    (toBcd m).toNat = m % 10 + 16 * (m / 10 % 10) + 256 * (m / 100 % 10) + 4096 * (m / 1000 % 10) := by
  rw [toBcd, BitVec.toNat_ofNat]
  omega

/-- The four hexadecimal digits of a word, by division. -/
theorem digits_eq_div_mod (x : W18) : digit x 0 = x.toNat % 16 ∧ digit x 1 = x.toNat / 16 % 16 ∧ digit x 2 = x.toNat / 256 % 16 ∧
    digit x 3 = x.toNat / 4096 % 16 := by
  simp only [digit, Nat.shiftRight_eq_div_pow, Nat.reduceMul, Nat.reducePow, Nat.div_one, and_self]

/-- The word that spells four digits, digit by digit. -/
theorem digits_of_toNat {x : W18} {i j k l : Nat} (hx : x.toNat = i + 16 * j + 256 * k + 4096 * l)
    (hi : i ≤ 9) (hj : j ≤ 9) (hk : k ≤ 9) (hl : l ≤ 9) : digit x 0 = i ∧ digit x 1 = j ∧ digit x 2 = k ∧ digit x 3 = l := by
  obtain ⟨h0, h1, h2, h3⟩ := digits_eq_div_mod x
  omega

theorem digits_toBcd (m : Nat) : digit (toBcd m) 0 = m % 10 ∧ digit (toBcd m) 1 = m / 10 % 10 ∧ digit (toBcd m) 2 = m / 100 % 10 ∧
    digit (toBcd m) 3 = m / 1000 % 10 :=
  digits_of_toNat (toNat_toBcd m) (by omega) (by omega) (by omega) (by omega)

theorem bcd_toBcd {m : Nat} (hm : m ≤ 9999) : bcd (toBcd m) = m := by
  obtain ⟨h0, h1, h2, h3⟩ := digits_toBcd m
  rw [bcd, h0, h1, h2, h3]
  omega

theorem isBcd_toBcd (m : Nat) : isBcd (toBcd m) = true := by
  obtain ⟨h0, h1, h2, h3⟩ := digits_toBcd m
  simp only [isBcd, h0, h1, h2, h3, toNat_toBcd, Bool.and_eq_true, decide_eq_true_eq]
  omega

/-- A word below 2^16 is made of its four hexadecimal digits. -/
theorem toNat_eq_digits {x : W18} (hx : x.toNat < 0x10000) :
    x.toNat = digit x 0 + 16 * digit x 1 + 256 * digit x 2 + 4096 * digit x 3 := by
  obtain ⟨h0, h1, h2, h3⟩ := digits_eq_div_mod x
  omega

/-- A decimal word spells the number below 10,000 that its digits give. -/
theorem toBcd_bcd {x : W18} (h : isBcd x = true) : bcd x ≤ 9999 ∧ x = toBcd (bcd x) := by
  simp only [isBcd, Bool.and_eq_true, decide_eq_true_eq] at h
  obtain ⟨⟨⟨⟨hx, h0⟩, h1⟩, h2⟩, h3⟩ := h
  refine ⟨by rw [bcd]; omega, BitVec.eq_of_toNat_eq ?_⟩
  rw [toNat_eq_digits hx, toNat_toBcd, bcd]
  omega

theorem low16_eq_zero_iff (r : W18) : r.setWidth 16 = 0#16 ↔ r.toNat % 65536 = 0 := by
  simp [← BitVec.toNat_inj]

theorem low16_toBcd_eq_zero_iff {m : Nat} (hm : m ≤ 9999) : (toBcd m).setWidth 16 = 0#16 ↔ m = 0 := by
  rw [low16_eq_zero_iff, toNat_toBcd]
  omega

/-- The result of a decimal operation on decimal words: four digits and the decimal carry. -/
def Ctx.digits (c : Ctx) (d r : Nat) (k : Bool) : OpRes := c.alu d (toBcd r) [(1, decide (r = 0)), (3, false), (5, k)]

/-- A result that some decimal operation on a word that is not decimal may give: V, and Z of the word. -/
def Ctx.freeDigits (c : Ctx) (d : Nat) (o : OpRes) : Prop :=
  ∃ (r : W18) (k : Bool), o = c.alu d r [(1, decide (r.toNat % 65536 = 0)), (3, true), (5, k)]

theorem decimal_toBcd (c : Ctx) (d m n : Nat) {r : Nat} (hr : r ≤ 9999) (k : Bool) :
    c.decimal d (toBcd m) (toBcd n) (toBcd r) k = c.digits d r k := by
  simp [Ctx.decimal, Ctx.digits, isBcd_toBcd, low16_toBcd_eq_zero_iff hr]

theorem decimal_of_not_bcd (c : Ctx) (d : Nat) {p q : W18} (h : (isBcd p && isBcd q) = false) (r : W18) (k : Bool) :
    c.freeDigits d (c.decimal d p q r k) :=
  ⟨c.free 18 0, (c.free 1 1).getLsbD 0, by simp [Ctx.decimal, h, low16_eq_zero_iff]⟩

theorem dsum_toBcd (c : Ctx) (d : Nat) {m n : Nat} (hm : m ≤ 9999) (hn : n ≤ 9999) (cin : Bool) :
    c.dsum d (toBcd m) (toBcd n) cin = c.digits d ((m + n + cin.toNat) % 10000) (decide (10000 ≤ m + n + cin.toNat)) := by
  simp only [Ctx.dsum, bcd_toBcd hm, bcd_toBcd hn]
  exact decimal_toBcd c d m n (by omega) _

/-- A borrow adds 10,000, and none leaves the exact difference. -/
theorem ddiff_toBcd (c : Ctx) (d : Nat) {m n : Nat} (hm : m ≤ 9999) (hn : n ≤ 9999) (bin : Bool) :
    c.ddiff d (toBcd m) (toBcd n) bin = c.digits d ((m + 10000 - n - bin.toNat) % 10000) (decide (m < n + bin.toNat)) := by
  have hb : bin.toNat ≤ 1 := Bool.toNat_le bin
  simp only [Ctx.ddiff, bcd_toBcd hm, bcd_toBcd hn]
  split
  case isTrue hlt =>
    rw [show ((m : Int) - n - bin.toNat + 10000).toNat = (m + 10000 - n - bin.toNat) % 10000 by omega, decimal_toBcd c d m n (by omega)]
    rw [decide_eq_true (by omega : m < n + bin.toNat)]
  case isFalse hge =>
    rw [show ((m : Int) - n - bin.toNat).toNat = (m + 10000 - n - bin.toNat) % 10000 by omega, decimal_toBcd c d m n (by omega)]
    rw [decide_eq_false (by omega : ¬ m < n + bin.toNat)]

theorem dsum_of_not_bcd (c : Ctx) (d : Nat) {p q : W18} (h : (isBcd p && isBcd q) = false) (cin : Bool) :
    c.freeDigits d (c.dsum d p q cin) := decimal_of_not_bcd c d h _ _

theorem ddiff_of_not_bcd (c : Ctx) (d : Nat) {p q : W18} (h : (isBcd p && isBcd q) = false) (bin : Bool) :
    c.freeDigits d (c.ddiff d p q bin) := by
  simp only [Ctx.ddiff]
  split <;> exact decimal_of_not_bcd c d h _ _

/-- Words that spell no two numbers below 10,000 are not both decimal. -/
theorem not_bcd_of_forall {p q : W18} (h : ∀ m n : Nat, m ≤ 9999 → n ≤ 9999 → ¬(p = toBcd m ∧ q = toBcd n)) :
    (isBcd p && isBcd q) = false := by
  refine Bool.eq_false_iff.2 fun hboth => ?_
  obtain ⟨hp, hq⟩ := Bool.and_eq_true_iff.1 hboth
  exact h _ _ (toBcd_bcd hp).1 (toBcd_bcd hq).1 ⟨(toBcd_bcd hp).2, (toBcd_bcd hq).2⟩

/-- An operation whose result is free retires with some word and some decimal carry. -/
theorem retires_freeDigits {c : Instr} {f : Ctx → OpRes} (hc : exec c s = issueOp a { slots := classX } f s) (h : Lone s a [4, 5])
    {d : Nat} (hf : (s.ctxOf a).freeDigits d (f (s.ctxOf a))) :
    ∃ (r : W18) (k : Bool), Retires c s a
      ((s.engOf a).toD d r :: (s.engOf a).toFl [(1, decide (r.toNat % 65536 = 0)), (3, true), (5, k)]) [] := by
  obtain ⟨r, k, hr⟩ := hf
  exact ⟨r, k, retires_alu hc h hr⟩

theorem toInt_ofNat_lt {m : Nat} (hm : m ≤ 9999) : (BitVec.ofNat 18 m).toInt = m := by
  have hn : (BitVec.ofNat 18 m).toNat = m := by rw [BitVec.toNat_ofNat]; omega
  rw [BitVec.toInt_eq_toNat_of_lt (by omega), hn]

/-- What DAJ leaves of Da (R197). -/
def Ctx.adjusted (c : Ctx) (d : Nat) (v : Int) : OpRes :=
  let good := decide (0 ≤ v ∧ v ≤ 9999)
  let r : W18 := if good then toBcd v.toNat else 0x09999#18
  c.alu d r [(1, decide (r.setWidth 16 = 0#16)), (3, !good)]

theorem adjusted_digits (c : Ctx) (d : Nat) {m : Nat} (hm : m ≤ 9999) :
    c.adjusted d m = c.alu d (toBcd m) [(1, decide (m = 0)), (3, false)] := by
  have hg : (0 : Int) ≤ m ∧ (m : Int) ≤ 9999 := by omega
  simp only [Ctx.adjusted, hg, and_self, decide_true, if_true, Int.toNat_natCast, low16_toBcd_eq_zero_iff hm, Bool.not_true]

theorem adjusted_out_of_range (c : Ctx) (d : Nat) {v : Int} (hv : v < 0 ∨ 9999 < v) :
    c.adjusted d v = c.alu d 0x9999#18 [(1, false), (3, true)] := by
  have hg : ¬(0 ≤ v ∧ v ≤ 9999) := by omega
  simp [Ctx.adjusted, hg]

/-! What the five operations give to the shared issue. -/

theorem exec_dadd (a : At) (d p q : BitVec 4) (s : State) : exec (.dadd a d p q) s =
    issueOp a { slots := classX } (fun c => c.dsum d.toNat (c.rd p) (c.rd q) false) s := rfl

theorem exec_daddc (a : At) (d p q : BitVec 4) (s : State) : exec (.daddc a d p q) s =
    issueOp a { slots := classX } (fun c => c.dsum d.toNat (c.rd p) (c.rd q) c.x.flDC) s := rfl

theorem exec_dsub (a : At) (d p q : BitVec 4) (s : State) : exec (.dsub a d p q) s =
    issueOp a { slots := classX } (fun c => c.ddiff d.toNat (c.rd p) (c.rd q) false) s := rfl

theorem exec_dsubb (a : At) (d p q : BitVec 4) (s : State) : exec (.dsubb a d p q) s =
    issueOp a { slots := classX } (fun c => c.ddiff d.toNat (c.rd p) (c.rd q) c.x.flDC) s := rfl

theorem exec_daj (a : At) (d p : BitVec 4) (s : State) : exec (.daj a d p) s =
    issueOp a { slots := classX } (fun c => c.adjusted d.toNat (c.rd p).toInt) s := rfl

/-- The sum and difference operations on words that are decimal. -/
theorem decimal_ops_retire {p q : BitVec 4} (h : Lone s a [4, 5]) (d : BitVec 4) {m n : Nat} (hm : m ≤ 9999) (hn : n ≤ 9999)
    (hp : (s.engOf a).rd p.toNat = toBcd m) (hq : (s.engOf a).rd q.toNat = toBcd n) :
    let x := s.engOf a
    let c := x.flDC.toNat
    let res (r : Nat) (k : Bool) : List Wr := x.toD d.toNat (toBcd r) :: x.toFl [(1, decide (r = 0)), (3, false), (5, k)]
    Retires (.dadd a d p q) s a (res ((m + n) % 10000) (decide (10000 ≤ m + n))) [] ∧
    Retires (.daddc a d p q) s a (res ((m + n + c) % 10000) (decide (10000 ≤ m + n + c))) [] ∧
    Retires (.dsub a d p q) s a (res ((m + 10000 - n) % 10000) (decide (m < n))) [] ∧
    Retires (.dsubb a d p q) s a (res ((m + 10000 - n - c) % 10000) (decide (m < n + c))) [] := by
  have sum (cin : Bool) := dsum_toBcd (s.ctxOf a) d.toNat hm hn cin
  have diff (bin : Bool) := ddiff_toBcd (s.ctxOf a) d.toNat hm hn bin
  rw [← hp, ← hq] at sum diff
  exact ⟨retires_alu (exec_dadd ..) h (sum false), retires_alu (exec_daddc ..) h (sum _),
    retires_alu (exec_dsub ..) h (diff false), retires_alu (exec_dsubb ..) h (diff _)⟩

/-- Settles O11: decimal words spell numbers, which the operations add and subtract; a result of any other word is free. -/
theorem decimalArithmetic : Obligations.DecimalArithmetic := by
  refine ⟨fun s a d p q m n h => ⟨fun hm hn hp hq => decimal_ops_retire h d hm hn hp hq, fun hm hp => ?_, fun hp => ?_⟩,
    fun s a d p q h hnot => ?_⟩
  · have hv : ((s.ctxOf a).rd p).toInt = m := by rw [ctxOf_rd, hp, toInt_ofNat_lt hm]
    exact retires_alu (exec_daj ..) h (by rw [hv, adjusted_digits _ _ hm])
  · exact retires_alu (exec_daj ..) h (adjusted_out_of_range _ _ hp)
  · have hbad := not_bcd_of_forall hnot
    have sum (cin : Bool) := dsum_of_not_bcd (s.ctxOf a) d.toNat hbad cin
    have diff (bin : Bool) := ddiff_of_not_bcd (s.ctxOf a) d.toNat hbad bin
    simp only [List.mem_cons, List.not_mem_nil, or_false]
    rintro c (rfl | rfl | rfl | rfl)
    · exact retires_freeDigits (exec_dadd ..) h (sum _)
    · exact retires_freeDigits (exec_daddc ..) h (sum _)
    · exact retires_freeDigits (exec_dsub ..) h (diff _)
    · exact retires_freeDigits (exec_dsubb ..) h (diff _)

end Sys2Proof.Machine

/-! # The divide: its stall, and the quotient that lands -/

namespace Sys2Proof.Machine

variable {s t u : State} {a : At} {y : Eng}

/-! ### `Retired` under the updates of the state -/

theorem Retired.start (s : State) (a : At) : Retired s s a (s.engOf a) s := ⟨rfl, fun _ _ => rfl, rfl, rfl⟩

theorem Retired.setEng (h : Retired s t a y u) (z : Eng) : Retired s (t.setEng a.die.val a.eng.val z) a z u where
  eng := eng_setEng _ _ _ _
  others k hk := (eng_setEng_other _ _ _ _ _ hk).trans (h.others k hk)
  regs := h.regs
  rest := h.rest

theorem Retired.updEng (h : Retired s t a y u) (f : Eng → Eng) : Retired s (t.updEng a.die.val a.eng.val f) a (f y) u := by
  rw [State.updEng, h.eng]
  exact h.setEng (f y)

theorem addF_regs (h : t.regs = u.regs) (x : Fld) (d : Nat) (l : List Nat) (n : Nat) : (t.addF x d l n).regs = (u.addF x d l n).regs := by
  simp only [State.addF, State.setF, State.f, State.reg, State.setReg, h]

theorem Retired.addF (h : Retired s t a y u) (x : Fld) (d : Nat) (l : List Nat) (n : Nat) :
    Retired s (t.addF x d l n) a y (u.addF x d l n) where
  eng := h.eng
  others := h.others
  regs := addF_regs h.regs x d l n
  rest := h.rest

theorem Retired.useFree (h : Retired s t a y u) (n : Nat) : Retired s (t.useFree n) a y u := ⟨h.eng, h.others, h.regs, h.rest⟩

/-! ### Results of a lone bundle land -/

theorem puts_pops (l : List Wr) (x : Eng) : (l.foldl Eng.put x).popU = x.popU ∧ (l.foldl Eng.put x).popS = x.popS := by
  induction l generalizing x with
  | nil => exact ⟨rfl, rfl⟩
  | cons w l ih =>
    have hw : (x.put w).popU = x.popU ∧ (x.put w).popS = x.popS := by
      cases w with
      | fl sh m v => cases sh <;> exact ⟨rfl, rfl⟩
      | flSet sh b => cases sh <;> exact ⟨rfl, rfl⟩
      | _ => exact ⟨rfl, rfl⟩
    exact ⟨(ih _).1.trans hw.1, (ih _).2.trans hw.2⟩

/-- With only the results `ws` of latency 1 on the way, the end of a lone bundle lands them and moves the PC on. -/
theorem finish_solo (h : s.solo a = true) {ws : List Wr} (hws : ws.filter (fun w => !w.sticky) ++ ws.filter Wr.sticky = ws) :
    let x := s.engOf a
    ((((({ x with pw := ws.map (fun w => ⟨1, w, false⟩) } : Eng).sampled x).mark []).tickPw.aged [] [] []).ran []).advance x.loops [] =
      (x.after ws []).sampled x := by
  intro x
  have p := solo_parts h
  obtain ⟨hf, hh, hc, hpm, hpo, hz, hfr⟩ := still_parts x p.still
  obtain ⟨hpc, hbr, hrpt, -⟩ := puts_ctl ws x
  rw [mark_quiet _ _ (by exact p.xfers), tickPw_aged _ (by exact hpm) (by exact hpo) (by exact hz) (by exact hc) (by exact solo_fence h),
    tickPw_sampled, ran_quiet _ (by exact (tickPw_fullRun _).trans hfr), tickPw_solo _ _ hf hh, filter_due, hws, filter_later]
  rw [advance_quiet_sampled _ _ _ (by exact hbr.trans p.br) (by exact hrpt.trans p.rpt) (by simp only [hpc]; exact solo_midLoop h),
    advance_solo _ _ (by exact hbr.trans p.br) (by exact hrpt.trans p.rpt) (by simp only [hpc]; exact solo_midLoop h)]
  simp only [hpc]
  rfl

/-! ### The stall of a divide (R141) -/

/-- A lone syllable that is legal in its slot and takes no trap closes its bundle at once. -/
theorem issueOp_solo {info : OpInfo} {f : Ctx → OpRes} {fx : List Fx} (h : s.solo a = true) (hs : a.slot.val ∈ info.slots)
    (he : a.ext = none) (hp : info.priv = false) (hf : f (s.ctxOf a) = ⟨fx, []⟩) :
    ∃ fetched, issueOp a info f s = .next (((s.setEng a.die.val a.eng.val (s.engOf a)).setEng a.die.val a.eng.val
      ((s.engOf a).gather [⟨a.slot.val, info.kind, fx, [], none⟩])).closeBundle a.die.val a.eng.val fetched) := by
  have p := solo_parts h
  have hset := settle_quiet s a.die.val a.eng.val p.div p.popU p.popS
  have hb : (s.eng a.die.val a.eng.val).bundle = [] := p.bundle
  change f ⟨s.setEng a.die.val a.eng.val (s.eng a.die.val a.eng.val), a.die.val, a.eng.val, s.eng a.die.val a.eng.val, a⟩ = _ at hf
  refine ⟨(s.engOf a).fetched, ?_⟩
  simp [issueOp, issueSyls, p.issues, hb, hset, he, hp, hs, hf, p.last, p.err, insertSyl, State.engOf]

/-- The engine during the stall of a divide: its bundle, `l`, waits, and the requests are sampled at its issue. -/
def Eng.stalled (x : Eng) (l : List Syl) : Eng := ({ x with bundle := [], div := some l } : Eng).sampled x

/-- A lone divide that only writes registers reads no word in error and waits. -/
theorem runBundle_div {d e i : Nat} {x : Eng} {fx : List Fx} {fetched : List W18} (hx : t.eng d e = x.gather [⟨i, .div, fx, [], none⟩])
    (hc : x.carry = []) (hfx : ∀ f ∈ fx, f.res.isSome = true) :
    t.runBundle d e [⟨i, .div, fx, [], none⟩] fetched = t.setEng d e (x.stalled [⟨i, .div, fx, [], none⟩]) := by
  obtain ⟨hacc, -, -, -, -, -, -, -, hwalk⟩ := fx_regs fx hfx
  have hword (l : List Syl) : firstBadWord ((x.gather l).lview fx) ((x.gather l).meets fx) = none := by
    rw [meets_still (x.gather l) fx hc, hacc]; rfl
  simp only [State.runBundle, hx, List.flatMap_cons, List.flatMap_nil, List.append_nil, hword, hwalk, residueBad, List.any_cons, List.any_nil]
  rfl

/-- A good bundle of one syllable without an error or a trap runs. -/
theorem closeBundle_runs {d e : Nat} {x : Eng} {z : Syl} {fetched : List W18} (hx : t.eng d e = x.gather [z])
    (hgood : okBundle (x.pmAt 1 x.half x.pc.toNat) = true) (herr : z.err = none)
    (htrap : (t.incF F.ENG_PMBANK.COUNT d [e]).pickTrap d e [z] = (none, [])) :
    t.closeBundle d e fetched = (t.incF F.ENG_PMBANK.COUNT d [e]).runBundle d e [z] fetched := by
  have hgood' : okBundle ((x.gather [z]).pmAt 1 (x.gather [z]).half (x.gather [z]).pc.toNat) = true := hgood
  have hb : (x.gather [z]).bundle = [z] := rfl
  simp [State.closeBundle, hx, hgood', hb, htrap, herr]

/-- A lone operation of kind `div` answers with its bundle in the stall. -/
theorem issueOp_div {slots : List Nat} {f : Ctx → OpRes} {fx : List Fx} (h : s.solo a = true) (hs : a.slot.val ∈ slots)
    (he : a.ext = none) (hf : f (s.ctxOf a) = ⟨fx, []⟩) (hfx : ∀ g ∈ fx, g.res.isSome = true) :
    ∃ t, issueOp a { slots := slots, kind := .div } f s = .next t ∧
      Retired s t a ((s.engOf a).stalled [⟨a.slot.val, .div, fx, [], none⟩]) (s.counted a) := by
  have p := solo_parts h
  obtain ⟨fetched, ht⟩ := issueOp_solo (info := { slots := slots, kind := .div }) h hs he rfl hf
  refine ⟨_, ht, ?_⟩
  rw [closeBundle_runs (eng_setEng _ _ _ _) p.good rfl (pickTrap_solo h _ _ _ (eng_setEng _ _ _ _) rfl),
    runBundle_div ((eng_incF _ _ _ _ _ _).trans (eng_setEng _ _ _ _)) (still_parts _ p.still).2.2.1 hfx]
  exact ((((Retired.start s a).setEng _).setEng _).addF ..).setEng _

/-- What a bundle samples at the end of its stall is what it sampled at its issue (R144). -/
theorem sampled_stalled {x : Eng} (hr : x.rpt = none) (y : Eng) (l : List Syl) : y.sampled (x.stalled l) = y.sampled x := by
  have hr' : (x.stalled l).rpt = none := hr
  simp only [Eng.sampled, hr, hr']
  rfl

/-- The end of the stall leaves nothing of it but the results on their way. -/
theorem retire_stalled {x : Eng} (hb : x.bundle = []) (hd : x.div = none) (hp : x.pw = []) (l : List Syl) (r : List PendW) (z : Eng) :
    ((x.stalled l).retire (x.stalled l).lmem r).sampled z = ({ x with pw := r } : Eng).sampled z := by
  cases x
  simp_all [Eng.stalled, Eng.retire, Eng.sampled]

/-- With no pop due, the end of the stall is the waiting bundle's effects and 18 cycles of stall (R141). -/
theorem settle_div {d e : Nat} {l : List Syl} (hd : (t.eng d e).div = some l) {y : Eng}
    (hy : ((t.applyFx d e l).addF F.ENG_STALL.CYCLES d [e] 18).eng d e = y) (hu : y.popU = false) (hs : y.popS = false) :
    t.settle d e = ((t.applyFx d e l).addF F.ENG_STALL.CYCLES d [e] 18).setEng d e y := by
  simp [State.settle, hd, State.updEng, hy, hu, hs]

/-- After the stall the results of the waiting bundle have landed, and the PC has moved on. -/
theorem settle_stalled (h : s.solo a = true) {ws : List Wr} (hws : ws.filter (fun w => !w.sticky) ++ ws.filter Wr.sticky = ws)
    (ht : Retired s t a ((s.engOf a).stalled [⟨a.slot.val, .div, ws.map (.wr 1), [], none⟩]) u) :
    Retired s (t.settle a.die.val a.eng.val) a (((s.engOf a).after ws []).sampled (s.engOf a))
      (u.addF F.ENG_STALL.CYCLES a.die.val [a.eng.val] 18) := by
  have p := solo_parts h
  have happ : Retired s (t.applyFx a.die.val a.eng.val [⟨a.slot.val, .div, ws.map (.wr 1), [], none⟩]) a
      (((s.engOf a).after ws []).sampled (s.engOf a)) u := by
    rw [applyFx_regs t _ _ _ _ ht.eng p.still p.xfers p.pw (by simp [Fx.res]), filterMap_res_wr, sampled_stalled p.rpt,
      retire_stalled p.bundle p.div p.pw, ← finish_solo h hws]
    exact ((ht.setEng _).updEng _).useFree _
  have hst := happ.addF F.ENG_STALL.CYCLES a.die.val [a.eng.val] 18
  obtain ⟨hu, hs⟩ := puts_pops ws (s.engOf a)
  rw [settle_div (congrArg Eng.div ht.eng) hst.eng (hu.trans p.popU) (hs.trans p.popS)]
  exact hst.setEng _

/-! ### The quotient (R198) -/

/-- The quotient of the magnitudes with the sign of the exact quotient is the truncated one. -/
theorem signed_quotient_eq_tdiv (m q : Int) :
    (if (m < 0 ↔ q < 0) then 1 else -1) * ((m.natAbs / q.natAbs : Nat) : Int) = m.tdiv q := by
  have hn (n : Nat) : ¬(n : Int) < 0 := by omega
  rcases m with m | m <;> rcases q with q | q <;> simp [Int.tdiv, Int.negSucc_lt_zero, hn]

theorem sat18_eq_max_min (v : Int) : sat18 v = max (-131072) (min 131071 v) := by
  simp only [sat18, clamp]
  omega

theorem ovf18_iff_sat18 (v : Int) : ovf18 v = decide (sat18 v ≠ v) := by
  simp only [ovf18, sat18_eq_max_min, ← Bool.decide_or, decide_eq_decide]
  omega

/-- The quotient that lands: by a zero divisor the largest word of the sign of the numerator. -/
def divResult (m q : Int) (neg : Bool) : Int :=
  if q = 0 then (if neg then -131072 else 131071) else max (-131072) (min 131071 (m.tdiv q))

/-- The result of a divide, and V where it is not the exact quotient. -/
theorem divide_eq_alu (c : Ctx) (d : Nat) (m q : Int) (neg : Bool) :
    let r : W18 := BitVec.ofInt 18 (divResult m q neg)
    c.divide d m q neg = c.alu d r ((3, decide (q = 0 ∨ divResult m q neg ≠ m.tdiv q)) :: zeroNeg r) := by
  by_cases hq : q = 0
  · cases neg <;> simp [Ctx.divide, divResult, hq, wrap18, sat18, clamp, znOf_eq_zeroNeg]
  · simp [Ctx.divide, divResult, hq, wrap18, quot, ovf18_iff_sat18, sat18_eq_max_min, znOf_eq_zeroNeg]

theorem exec_div (a : At) (d p q : BitVec 4) (s : State) : exec (.div a d p q) s = issueOp a { slots := [4], kind := .div }
    (fun c => c.divide d.toNat (c.rd p).toInt (c.rd q).toInt (decide ((c.rd p).toInt < 0))) s := rfl

theorem exec_divf (a : At) (d p q : BitVec 4) (s : State) : exec (.divf a d p q) s = issueOp a { slots := [4], kind := .div }
    (fun c => c.divide d.toNat ((c.rd p).toInt * 131072) (c.rd q).toInt (decide ((c.rd p).toInt < 0))) s := rfl

/-- A lone operation of kind `div` with one word result and flags: it waits in its stall, in which registers and PC are as before, and
then its result lands. -/
theorem stalls_then_retires {c : Instr} {f : Ctx → OpRes} (hc : exec c s = issueOp a { slots := [4], kind := .div } f s) (h : Lone s a [4])
    {d : Nat} {r : W18} {l : List (Nat × Bool)} (hf : f (s.ctxOf a) = (s.ctxOf a).alu d r l) :
    ∃ t, exec c s = .next t ∧ t.regs = (s.counted a).regs ∧ (t.engOf a).d = (s.engOf a).d ∧ (t.engOf a).pc = (s.engOf a).pc ∧
      Retired s (t.settle a.die.val a.eng.val) a (((s.engOf a).after ((s.engOf a).toD d r :: (s.engOf a).toFl l) []).sampled (s.engOf a))
        ((s.counted a).addF F.ENG_STALL.CYCLES a.die.val [a.eng.val] 18) := by
  obtain ⟨hsolo, hslot, hext⟩ := h
  have hf' : f (s.ctxOf a) = ⟨((s.engOf a).toD d r :: (s.engOf a).toFl l).map (.wr 1), []⟩ := by
    rw [hf, Ctx.alu, ctxOf_wd, ctxOf_x, flagFx_eq_toFl, List.map_cons]
  obtain ⟨t, ht, hr⟩ := issueOp_div hsolo hslot hext hf' (by simp [Fx.res])
  have heng : t.engOf a = _ := hr.eng
  exact ⟨t, hc.trans ht, hr.regs, by rw [heng]; rfl, by rw [heng]; rfl,
    settle_stalled hsolo (sticky_last _ [(s.engOf a).toD d r] (by simp [Eng.toD, Wr.sticky]) l) hr⟩

/-- Settles O13: the bundle of a divide waits in its stall (`stalls_then_retires`), and its result is `divide_eq_alu`. -/
theorem divide : Obligations.Divide := by
  intro s a d p q h
  have hneg (v : Int) : (if 0 ≤ v then (131071 : Int) else -131072) = if decide (v < 0) = true then -131072 else 131071 := by
    by_cases hv : v < 0 <;> simp [hv, Int.not_le.2, Int.not_lt.1]
  simp only [signed_quotient_eq_tdiv, hneg]
  exact ⟨stalls_then_retires (exec_div ..) h (divide_eq_alu ..), stalls_then_retires (exec_divf ..) h (divide_eq_alu ..)⟩

end Sys2Proof.Machine

/-! # A lone syllable that traps

What a trap of a lone syllable leaves behind, and the host's counts of it: ENG_TRAP and ENG_TCNT name the trap, ENG_PMBANK the bundles fetched behind
it, and the two may be written in either order. -/

namespace Sys2Proof.Machine

/-! ### Fields of a register value -/

theorem getLsbD_setField (w : W32) (hi lo v : Nat) {i : Nat} (hi32 : i < 32) :
    (setField w hi lo v).getLsbD i = if lo ≤ i ∧ i ≤ hi then v.testBit (i - lo) else w.getLsbD i := by
  simp only [setField, BitVec.getLsbD_or, BitVec.getLsbD_and, BitVec.getLsbD_not, BitVec.getLsbD_ofNat, Nat.testBit_shiftLeft,
    Nat.testBit_mod_two_pow, Nat.testBit_two_pow_sub_one, hi32, decide_true, Bool.true_and]
  by_cases hl : lo ≤ i
  · by_cases hh : i ≤ hi
    · simp [hl, hh, show i - lo < hi + 1 - lo by omega]
    · simp [hl, hh, show ¬ i - lo < hi + 1 - lo by omega]
  · simp [hl]

theorem testBit_field (w : W32) (hi lo j : Nat) : (field w hi lo).testBit j = (decide (j < hi + 1 - lo) && w.getLsbD (lo + j)) := by
  simp [field, Nat.testBit_mod_two_pow, Nat.testBit_shiftRight, BitVec.testBit_toNat]

theorem field_setField (w : W32) {hi : Nat} (lo v : Nat) (h32 : hi < 32) : field (setField w hi lo v) hi lo = v % 2 ^ (hi + 1 - lo) := by
  refine Nat.eq_of_testBit_eq fun j => ?_
  rw [testBit_field, Nat.testBit_mod_two_pow]
  by_cases hj : j < hi + 1 - lo
  · rw [getLsbD_setField _ _ _ _ (by omega), if_pos (by omega), Nat.add_sub_cancel_left]
  · simp [hj]

/-- A field is unchanged by a write of one that lies below it or above it. -/
theorem field_setField_disjoint (w : W32) {hi lo hi' lo' : Nat} (v : Nat) (h32 : hi' < 32) (h : hi < lo' ∨ hi' < lo) :
    field (setField w hi lo v) hi' lo' = field w hi' lo' := by
  refine Nat.eq_of_testBit_eq fun j => ?_
  rw [testBit_field, testBit_field]
  by_cases hj : j < hi' + 1 - lo'
  · rw [getLsbD_setField _ _ _ _ (by omega), if_neg (by omega)]
  · simp [hj]

theorem ne_zero_of_field {w : W32} {hi lo : Nat} (h : field w hi lo ≠ 0) : w ≠ 0 := by
  rintro rfl
  exact h (by simp [field])

/-! ### Register writes in either order -/

theorem put_put_of_lt {V : Type} (m : Store V) {i j : Nat} (v w : V) (h : i < j) :
    Store.put (Store.put m i v) j w = Store.put (Store.put m j w) i v := by
  have hji : ¬ j < i := Nat.lt_asymm h
  have hne : ¬ i = j := Nat.ne_of_lt h
  induction m with
  | nil => simp only [Store.put, h, hji, hne, if_true, if_false]
  | cons p m ih =>
    obtain ⟨k, u⟩ := p
    rcases Nat.lt_trichotomy i k with hik | rfl | hki
    · have hki : ¬ k = i := Nat.ne_of_gt hik
      by_cases hjk : j < k
      · simp only [Store.put, h, hji, hne, hik, hjk, if_true, if_false]
      · by_cases hkj : k = j
        · subst hkj
          simp only [Store.put, h, hji, hne, Nat.lt_irrefl, if_true, if_false]
        · simp only [Store.put, hji, hne, hik, hjk, hkj, if_true, if_false]
    · simp only [Store.put, hji, hne, Nat.lt_irrefl, if_true, if_false]
    · have hik : ¬ i < k := Nat.lt_asymm hki
      have hjk : ¬ j < k := Nat.lt_asymm (Nat.lt_trans hki h)
      have hki' : ¬ k = i := Nat.ne_of_lt hki
      have hkj : ¬ k = j := Nat.ne_of_lt (Nat.lt_trans hki h)
      simp only [Store.put, ih, hik, hjk, hki', hkj, if_false]

/-- Entries of different keys may be put in either order, into any list. -/
theorem put_comm {V : Type} (m : Store V) {i j : Nat} (v w : V) (h : i ≠ j) :
    Store.put (Store.put m i v) j w = Store.put (Store.put m j w) i v := by
  rcases Nat.lt_or_gt_of_ne h with hij | hji
  · exact put_put_of_lt m v w hij
  · exact (put_put_of_lt m w v hji).symm

variable {s : State}

/-- Writes of values that are not the reset values commute at different cells, whatever form the register map has. -/
theorem setReg_comm {r q : RegName} {d e : Nat} {i j : List Nat} {v w : W32} (hcell : r.cell d i ≠ q.cell e j)
    (hv : v ≠ r.desc.reset) (hw : w ≠ q.desc.reset) :
    (s.setReg r d i v).setReg q e j w = (s.setReg q e j w).setReg r d i v := by
  simp only [State.setReg, Store.set, hv, hw, if_false, put_comm s.regs v w hcell]

/-- Field writes commute at different cells where neither leaves the reset value. -/
theorem setF_comm {x y : Fld} {d e : Nat} {i j : List Nat} {v w : Nat} (hcell : x.reg.cell d i ≠ y.reg.cell e j)
    (hx : setField (s.reg x.reg d i) x.hi x.lo v ≠ x.reg.desc.reset) (hy : setField (s.reg y.reg e j) y.hi y.lo w ≠ y.reg.desc.reset) :
    (s.setF x d i v).setF y e j w = (s.setF y e j w).setF x d i v := by
  simp only [State.setF, s.reg_setReg_other _ _ _ _ _ _ _ hcell, s.reg_setReg_other _ _ _ _ _ _ _ hcell.symm]
  exact setReg_comm hcell hx hy

theorem setField_ne_zero (w : W32) {hi lo v : Nat} (h32 : hi < 32) (hv : v % 2 ^ (hi + 1 - lo) ≠ 0) : setField w hi lo v ≠ 0 :=
  ne_zero_of_field (by rwa [field_setField w lo v h32])

theorem f_setF (x : Fld) (d : Nat) (i : List Nat) (v : Nat) (h32 : x.hi < 32) : (s.setF x d i v).f x d i = v % 2 ^ (x.hi + 1 - x.lo) := by
  rw [State.f, State.setF, State.reg_setReg, field_setField _ _ _ h32]

/-- A counter that was raised, or was not 0, is not 0. -/
theorem f_addF_ne_zero {x : Fld} {d : Nat} {i : List Nat} {n : Nat} (h32 : x.hi < 32) (hlo : x.lo ≤ x.hi) (h : 0 < s.f x d i + n) :
    (s.addF x d i n).f x d i ≠ 0 := by
  have hw : 2 ≤ 2 ^ (x.hi + 1 - x.lo) := Nat.le_self_pow (by omega) 2
  rw [State.addF, f_setF _ _ _ _ h32, Fld.top, Nat.mod_eq_of_lt (by omega)]
  omega

theorem setField_counter_ne_zero {x : Fld} {d : Nat} {i : List Nat} {n : Nat} (h32 : x.hi < 32) (hlo : x.lo ≤ x.hi)
    (h : 0 < s.f x d i + n) : setField (s.reg x.reg d i) x.hi x.lo (min (s.f x d i + n) x.top) ≠ 0 := by
  have hne := f_addF_ne_zero h32 hlo h
  rw [State.addF, State.setF, State.f, State.reg_setReg] at hne
  exact ne_zero_of_field hne

/-- Raising a counter that is not 0 commutes with a write at another cell that does not leave the reset value. -/
theorem addF_setF_comm {x y : Fld} {d e : Nat} {i j : List Nat} {v : Nat} (n : Nat) (hcell : x.reg.cell d i ≠ y.reg.cell e j)
    (hx : setField (s.reg x.reg d i) x.hi x.lo v ≠ x.reg.desc.reset) (hy : s.f y e j ≠ 0)
    (hy0 : y.reg.desc.reset = 0) (hy32 : y.hi < 32) (hylo : y.lo ≤ y.hi) :
    (s.setF x d i v).addF y e j n = (s.addF y e j n).setF x d i v := by
  rw [State.addF, s.f_setF_other x y d e i j v hcell]
  exact setF_comm hcell hx (hy0 ▸ setField_counter_ne_zero hy32 hylo (by omega))

/-! ### The counts of a trap (R110, R165) -/

theorem trap_cell_ne_pmbank (d e : Nat) : RegName.cell .ENG_TRAP d [e] ≠ RegName.cell .ENG_PMBANK d [e] := by
  simp [RegName.cell, RegName.addr, RegName.pkgHeld, RegName.desc]

theorem tcnt_cell_ne_pmbank (d e : Nat) : RegName.cell .ENG_TCNT d [e] ≠ RegName.cell .ENG_PMBANK d [e] := by
  simp [RegName.cell, RegName.addr, RegName.pkgHeld, RegName.desc]

theorem code_mod_ne_zero (k : Cause) : k.code % 64 ≠ 0 := by
  cases k <;> decide

/-- A write to ENG_TRAP that does not leave 0 and the count of fetched bundles may be made in either order. -/
theorem setF_trap_addF_pmbank (x : Fld) (hx : x.reg = .ENG_TRAP) {d e v : Nat} (n : Nat)
    (hv : setField (s.reg x.reg d [e]) x.hi x.lo v ≠ 0) (h : s.f F.ENG_PMBANK.COUNT d [e] ≠ 0) :
    (s.setF x d [e] v).addF F.ENG_PMBANK.COUNT d [e] n = (s.addF F.ENG_PMBANK.COUNT d [e] n).setF x d [e] v ∧
      (s.setF x d [e] v).f F.ENG_PMBANK.COUNT d [e] ≠ 0 := by
  have hcell : x.reg.cell d [e] ≠ RegName.cell .ENG_PMBANK d [e] := hx ▸ trap_cell_ne_pmbank d e
  have hreset : x.reg.desc.reset = 0 := by rw [hx]; rfl
  refine ⟨addF_setF_comm n hcell (hreset ▸ hv) h rfl (by decide) (by decide), ?_⟩
  rwa [s.f_setF_other x _ d d [e] [e] v hcell]

/-- The count of a trap and the count of the bundles fetched behind it may be made in either order. -/
theorem incF_traps_addF_pmbank {d e : Nat} (n : Nat) (h : s.f F.ENG_PMBANK.COUNT d [e] ≠ 0) :
    (s.incF F.ENG_TCNT.TRAPS d [e]).addF F.ENG_PMBANK.COUNT d [e] n = (s.addF F.ENG_PMBANK.COUNT d [e] n).incF F.ENG_TCNT.TRAPS d [e] := by
  have hf : (s.addF F.ENG_PMBANK.COUNT d [e] n).f F.ENG_TCNT.TRAPS d [e] = s.f F.ENG_TCNT.TRAPS d [e] :=
    s.f_setF_other F.ENG_PMBANK.COUNT F.ENG_TCNT.TRAPS d d [e] [e] _ (tcnt_cell_ne_pmbank d e).symm
  calc (s.incF F.ENG_TCNT.TRAPS d [e]).addF F.ENG_PMBANK.COUNT d [e] n
      = (s.addF F.ENG_PMBANK.COUNT d [e] n).setF F.ENG_TCNT.TRAPS d [e] (min (s.f F.ENG_TCNT.TRAPS d [e] + 1) F.ENG_TCNT.TRAPS.top) :=
        addF_setF_comm n (tcnt_cell_ne_pmbank d e) (setField_counter_ne_zero (by decide) (by decide) (by omega)) h rfl (by decide) (by decide)
    _ = (s.addF F.ENG_PMBANK.COUNT d [e] n).incF F.ENG_TCNT.TRAPS d [e] := by rw [State.incF, State.addF.eq_def _ F.ENG_TCNT.TRAPS, hf]

/-- ENG_TRAP is not 0 where it holds a cause, whatever EPC is written. -/
theorem setField_epc_ne_zero {w : W32} (v : Nat) (h : field w 21 16 ≠ 0) : setField w 11 0 v ≠ 0 :=
  ne_zero_of_field (by rwa [field_setField_disjoint w v (by decide : 21 < 32) (.inl (by decide : 11 < 16))])

/-- The counts of a trap and the count of the bundles fetched behind it may be made in either order. -/
theorem trapCounted_addF (a : At) (k : Cause) (pc : BitVec 12) (n : Nat) (h : s.f F.ENG_PMBANK.COUNT a.die.val [a.eng.val] ≠ 0) :
    (s.trapCounted a k pc).addF F.ENG_PMBANK.COUNT a.die.val [a.eng.val] n =
      (s.addF F.ENG_PMBANK.COUNT a.die.val [a.eng.val] n).trapCounted a k pc := by
  have hcause : (s.setF F.ENG_TRAP.CAUSE a.die.val [a.eng.val] k.code).f F.ENG_TRAP.CAUSE a.die.val [a.eng.val] ≠ 0 := by
    rw [f_setF F.ENG_TRAP.CAUSE _ _ _ (by decide)]
    exact code_mod_ne_zero k
  obtain ⟨h1, hf1⟩ := setF_trap_addF_pmbank F.ENG_TRAP.CAUSE rfl n (setField_ne_zero _ (by decide : 21 < 32) (code_mod_ne_zero k)) h
  obtain ⟨h2, hf2⟩ := setF_trap_addF_pmbank F.ENG_TRAP.EPC rfl n (setField_epc_ne_zero pc.toNat hcause) hf1
  obtain ⟨h3, hf3⟩ := setF_trap_addF_pmbank F.ENG_TRAP.TEV rfl n (setField_ne_zero _ (v := 1) (by decide : 30 < 32) (by decide)) hf2
  simp only [State.trapCounted, State.raise]
  rw [incF_traps_addF_pmbank n hf3, h3, h2, h1]

/-- The bundles fetched behind a counted one may be counted before its trap is. -/
theorem counted_trapCounted_addF (s : State) (a : At) (k : Cause) (pc : BitVec 12) (n : Nat) :
    ((s.counted a).trapCounted a k pc).addF F.ENG_PMBANK.COUNT a.die.val [a.eng.val] n = (s.countedOn a n).trapCounted a k pc :=
  trapCounted_addF a k pc n (f_addF_ne_zero (by decide) (by decide) (Nat.succ_pos _))

/-! ### The entry to the trap handler (R147, R154) -/

theorem getLsbD_putBit (x : W18) {i j : Nat} (b : Bool) (hj : j < 18) : (putBit x i b).getLsbD j = if j = i then b else x.getLsbD j := by
  by_cases h : j = i
  · subst h
    cases b <;> simp [putBit, hj]
  · cases b <;> simp [putBit, h, hj]

/-- The bits of ST after an entry, for any S `b` and any bit `c` of the old ST, under the mask of the entry. -/
theorem entry_bits : ∀ i < 18, ∀ b c : Bool,
    (if i = 2 then true else if i = 1 then false else if i = 0 then true else if i = 5 then b else c) =
      ((c && (0x3FFD8#18).getLsbD i || (if b then 0x20#18 else 0).getLsbD i) || (0x5#18).getLsbD i) := by decide

/-- ST after an entry, as the model writes it: by a mask. -/
theorem entrySt_eq (st : W18) : entrySt st = (st &&& 0x3FFD8#18) ||| (if st.getLsbD 0 then 0x20#18 else 0) ||| 0x5#18 := by
  refine BitVec.eq_of_getLsbD_eq fun i hi => ?_
  simp only [entrySt, getLsbD_putBit _ _ hi, BitVec.getLsbD_or, BitVec.getLsbD_and]
  exact entry_bits i hi _ _

variable {t u : State} {a : At} {y : Eng}

/-- The handler entry of an engine with nothing of its bundle in flight (R148). -/
theorem enter_quiet {x : Eng} (hst : x.still = true) (hpw : x.pw = []) (hb : x.bundle = []) (hd : x.div = none) (hr : x.rpt = none)
    (hbr : x.br = none) (hfar : x.far = []) (l : List Syl) (epc pc : BitVec 12) : (x.gather l).enter epc pc none = x.entered epc pc := by
  obtain ⟨hf, hh, hc, hpm, hpo, hz, hfr⟩ := still_parts x hst
  simp only [Eng.enter, Eng.entered, entrySt_eq, Eng.zset, Eng.gather]
  cases x
  simp_all

theorem Retired.setF (h : Retired s t a y u) (x : Fld) (d : Nat) (l : List Nat) (v : Nat) :
    Retired s (t.setF x d l v) a y (u.setF x d l v) where
  eng := h.eng
  others := h.others
  regs := by simp only [State.setF, State.reg, State.setReg, h.regs]
  rest := h.rest

theorem Retired.trapCounted (h : Retired s t a y u) (k : Cause) (pc : BitVec 12) :
    Retired s (t.trapCounted a k pc) a y (u.trapCounted a k pc) :=
  (((h.setF ..).setF ..).setF ..).addF ..

theorem Retired.fetchedOn (h : Retired s t a y u) :
    ∃ n ≤ 10, Retired s (t.fetchedOn a.die.val a.eng.val) a y (u.addF F.ENG_PMBANK.COUNT a.die.val [a.eng.val] n) :=
  ⟨freeNat 11 (t.fresh + 1019), Nat.le_of_lt_succ (Nat.mod_lt _ (by decide)), h.addF ..⟩

/-- The handler entry of the engine of a lone syllable. -/
theorem enter_solo (h : s.solo a = true) (l : List Syl) (epc pc : BitVec 12) :
    ((s.engOf a).gather l).enter epc pc none = (s.engOf a).entered epc pc := by
  have p := solo_parts h
  have hi := p.issues
  simp only [State.issues, Bool.and_eq_true, List.isEmpty_iff] at hi
  obtain ⟨⟨⟨-, hfar⟩, -⟩, -⟩ := hi
  exact enter_quiet p.still p.pw p.bundle p.div p.rpt p.br hfar l epc pc

/-- A trap outside a handler is counted and enters the handler at TVEC. -/
theorem trap_enters (h : s.solo a = true) {l : List Syl} (ht : Retired s t a ((s.engOf a).gather l) u) (hsh : (s.engOf a).sh = false)
    {k : Cause} (hk : k ≠ .resop) (i : Nat) (pc : BitVec 12) (syls : List W18) :
    Retired s (t.trap a.die.val a.eng.val ⟨k, i, none, false, none, []⟩ pc pc none false syls) a ((s.engOf a).trapped pc k i)
      (u.trapCounted a k pc) := by
  have hsh' : ((s.engOf a).gather l).sh = false := hsh
  have hy : { ((s.engOf a).gather l).enter pc (s.engOf a).tvec none with
      vecBad := (s.engOf a).vecBad.filter (fun k => decide (k ≠ 1)), ecause := BitVec.ofNat 18 (k.code + 64 * i) } = (s.engOf a).trapped pc k i := by
    rw [enter_solo h]
    rfl
  have hset := (ht.trapCounted k pc).setEng ((s.engOf a).trapped pc k i)
  rw [← hy] at hset ⊢
  simp only [State.trap, ht.eng, hsh', hk, if_false, Bool.false_eq_true, Nat.add_zero]
  exact hset

/-- A lone syllable in no stall closes its bundle at once. -/
theorem issueOp_closes {info : OpInfo} {f : Ctx → OpRes} (h : s.solo a = true) (hs : a.slot.val ∈ info.slots)
    (he : a.ext = none) (hp : info.priv = false) :
    ∃ fetched, issueOp a info f s = .next (((s.setEng a.die.val a.eng.val (s.engOf a)).setEng a.die.val a.eng.val
      ((s.engOf a).gather [⟨a.slot.val, info.kind, (f (s.ctxOf a)).fx, (f (s.ctxOf a)).traps, none⟩])).closeBundle
        a.die.val a.eng.val fetched) := by
  have p := solo_parts h
  have hset := settle_quiet s a.die.val a.eng.val p.div p.popU p.popS
  have hb : (s.eng a.die.val a.eng.val).bundle = [] := p.bundle
  refine ⟨(s.engOf a).fetched, ?_⟩
  simp [issueOp, issueSyls, p.issues, hb, hset, he, hp, hs, p.last, p.err, insertSyl, State.engOf, State.ctxOf]

/-- A trap other than SYSC, with nothing of its request to keep, ends its bundle without effects (R154). -/
theorem trapBundle_of_ne_sysc {d e : Nat} {l : List Syl} {k : Cause} {i : Nat} {fetched : List W18} (hk : k ≠ .sysc) :
    let x := t.eng d e
    t.trapBundle d e l ⟨k, i, none, false, none, []⟩ fetched =
      ((t.useFree 4096).trap d e ⟨k, i, none, false, none, []⟩ x.pc x.pc x.br x.br.isSome fetched).fetchedOn d e := by
  simp only [State.trapBundle, List.foldl_nil]

/-- A good bundle of one syllable closes with the trap that its checks pick. -/
theorem closeBundle_traps {d e : Nat} {x : Eng} {z : Syl} {k : Cause} {i : Nat} {fetched : List W18} (hx : t.eng d e = x.gather [z])
    (hgood : okBundle (x.pmAt 1 x.half x.pc.toNat) = true) (herr : z.err = none) (hbr : x.br = none) (hk : k ≠ .sysc)
    (htrap : (t.incF F.ENG_PMBANK.COUNT d [e]).pickTrap d e [z] = (some ⟨k, i, none, false, none, []⟩, [])) :
    t.closeBundle d e fetched = (((t.incF F.ENG_PMBANK.COUNT d [e]).useFree 4096).trap d e ⟨k, i, none, false, none, []⟩ x.pc x.pc none false
      fetched).fetchedOn d e := by
  have hgood' : okBundle ((x.gather [z]).pmAt 1 (x.gather [z]).half x.pc.toNat) = true := hgood
  have hb : (x.gather [z]).bundle = [z] := rfl
  have hbr' : (x.gather [z]).br = none := hbr
  have hpc : (x.gather [z]).pc = x.pc := rfl
  simp [State.closeBundle, hx, hgood', hb, herr, htrap, trapBundle_of_ne_sysc hk, hbr', hpc]

/-- A syllable whose first trap is PRIV takes it, whatever else its bundle meets. -/
theorem pickTrap_priv (t : State) (d e : Nat) {z : Syl} {r : TrapReq} (hz : z.traps = [r]) (hr : r.cause = .priv) :
    t.pickTrap d e [z] = (some r, []) := by
  simp [State.pickTrap, hz, ofCause, hr]

/-- A lone operation that asks for PRIV alone takes it: nothing of the bundle is done. -/
theorem traps_priv {c : Instr} {info : OpInfo} {f : Ctx → OpRes} (hc : exec c s = issueOp a info f s) (hp : info.priv = false)
    (h : Lone s a info.slots) (hsh : (s.engOf a).sh = false) (hf : (f (s.ctxOf a)).traps = [(s.ctxOf a).trap .priv]) :
    Traps c s a .priv ((s.engOf a).trapped (s.engOf a).pc .priv a.slot.val) := by
  obtain ⟨hsolo, hslot, hext⟩ := h
  have p := solo_parts hsolo
  obtain ⟨fetched, ht⟩ := issueOp_closes hsolo hslot hext hp (f := f)
  have hin : Retired s _ a _ (s.counted a) := ((((Retired.start s a).setEng (s.engOf a)).setEng ((s.engOf a).gather
    [⟨a.slot.val, info.kind, (f (s.ctxOf a)).fx, (f (s.ctxOf a)).traps, none⟩])).addF F.ENG_PMBANK.COUNT a.die.val [a.eng.val] 1).useFree 4096
  obtain ⟨n, hn, hr⟩ := (trap_enters hsolo hin hsh (k := .priv) (by decide) a.slot.val (s.engOf a).pc fetched).fetchedOn
  rw [closeBundle_traps (eng_setEng _ _ _ _) p.good rfl p.br (by decide) (pickTrap_priv _ _ _ hf rfl)] at ht
  rw [counted_trapCounted_addF] at hr
  exact ⟨n, hn, _, hc.trans ht, hr⟩

end Sys2Proof.Machine

/-! # The vector length (R105, R216) -/

namespace Sys2Proof.Machine

variable {s : State} {a : At}

/-- A lone operation that only writes registers at +1 retires with these writes. -/
theorem retires_writes {c : Instr} {info : OpInfo} {f : Ctx → OpRes} (hc : exec c s = issueOp a info f s) (h : LoneX s a info.slots)
    (hext : a.ext = none ∨ info.ext = true) (hp : info.priv = false) (hk : info.kind ≠ .div) (ws : List Wr)
    (hws : ∀ w ∈ ws, w.sticky = false) (hf : f (s.ctxOf a) = ⟨ws.map (.wr 1), []⟩) : Retires c s a ws [] := by
  obtain ⟨hsolo, hslot⟩ := h
  have hsticky : ws.filter Wr.sticky = [] := by simpa [List.filter_eq_nil_iff] using hws
  have hplain : ws.filter (fun w => !w.sticky) = ws := by simpa [List.filter_eq_self] using hws
  obtain ⟨t, ht, hr⟩ := issue_regs s a info f _ rfl hsolo hslot hext (.inl hp) hk _ hf (by simp [Fx.res])
    ws [] (by rw [filterMap_res_wr, filter_due, hplain, hsticky, List.append_nil]) (by rw [filterMap_res_wr, filter_later]; rfl)
  exact ⟨t, hc.trans ht, hr⟩

theorem exec_vsetl (a : At) (d p : BitVec 4) (s : State) : exec (.vsetl a d p) s =
    issueOp a { slots := classV } (fun c => c.setVl d (c.rd p).toNat) s := rfl

theorem exec_vsetli (a : At) (d : BitVec 4) (imm : BitVec 8) (s : State) : exec (.vsetli a d imm) s =
    issueOp a { slots := classV, ext := true } (fun c => c.setVl d (c.uimm imm)) s := rfl

/-- What an MTS to VL does, in supervisor mode or in a user's. -/
def Ctx.mtsVl (c : Ctx) (p : BitVec 4) : OpRes :=
  { fx := [.wr 1 (.vl (BitVec.ofNat 7 (min (c.rd p).toNat 16)))], traps := if c.x.user then [c.trap .priv] else [] }

theorem exec_mts_vl (a : At) (p : BitVec 4) (s : State) : exec (.mts a p 5) s =
    issueOp a { slots := classC } (fun c => c.mtsVl p) s := by
  change execMts a p 5 s = _
  simp [execMts, Ctx.mtsVl, lcNo, userWrite, Ctx.sysWrite, Ctx.resv]

/-- Setting VL retires with VL and Dd. -/
theorem retires_setVl {c : Instr} {info : OpInfo} {f : Ctx → OpRes} (hc : exec c s = issueOp a info f s) (h : LoneX s a info.slots)
    (hext : a.ext = none ∨ info.ext = true) (hp : info.priv = false) (hk : info.kind ≠ .div) {d : BitVec 4} {r : Nat}
    (hf : f (s.ctxOf a) = (s.ctxOf a).setVl d r) :
    Retires c s a [.vl (BitVec.ofNat 7 (min r 16)), (s.engOf a).toD d.toNat (BitVec.ofNat 18 (min r 16))] [] :=
  retires_writes hc h hext hp hk _ (by simp [Eng.toD, Wr.sticky]) hf

/-- Settles O40: both forms through `retires_setVl`, and MTS to VL through `retires_writes` and `traps_priv`. -/
theorem vectorLength : Obligations.VectorLength := by
  intro s a d p imm
  refine ⟨fun ⟨hsolo, hslot, hext⟩ => ?_, fun h => ?_, fun ⟨hsolo, hslot, hext⟩ hu => ?_, fun h hu hsh => ?_⟩
  · exact retires_setVl (exec_vsetl ..) ⟨hsolo, hslot⟩ (.inl hext) rfl (by decide) rfl
  · exact retires_setVl (exec_vsetli ..) h (.inr rfl) rfl (by decide) rfl
  · exact retires_writes (exec_mts_vl ..) ⟨hsolo, hslot⟩ (.inl hext) rfl (by decide) _ (by simp [Wr.sticky]) (by simp [Ctx.mtsVl, hu])
  · have htrap := traps_priv (exec_mts_vl a p s) rfl h hsh (by simp [Ctx.mtsVl, hu])
    obtain ⟨-, hslot, -⟩ := h
    rwa [show a.slot.val = 7 from List.mem_singleton.1 hslot] at htrap

end Sys2Proof.Machine
